-- ==== Sys2Proof/Word.lean ====
section
/-!
DEFINITION. The word types of the Krafohel and their plainest arithmetic: 32-bit register words (02_pages_epochs.md R28),
bytes of device memory (03_raster_memory.md R64, R79), 64-bit cells (R64).
-/
namespace Sys2Proof

/-- One register word (R28). -/
abbrev Word := BitVec 32

/-- One byte of device memory (R79). -/
abbrev Byte := BitVec 8

/-- One raster cell, drive cell or queue word: 64 bits (R64, R318). -/
abbrev Cell := BitVec 64

end Sys2Proof
end

