-- ==== Sys2Proof/Syntax.lean ====
section
/-!
DEFINITION. The commands of the Krafohel: one constructor per row of spec/opcode_table.json, with the operands that row's
rule needs, and the types of the operands that are more than numbers. Messages whose layout the manual gives are carried
as their words; messages of outside standards (RTP, E1.31, PTP, LTC) are carried as records of the fields the rules read.
-/
namespace Sys2Proof

/-- The two requesters of the register space (R29). -/
inductive Req where
  | host
  | gaffer
deriving DecidableEq, Repr

/-- Where a mailbox request comes from (R420): the host's MBX_REQ, or a datagram on MG0 from an address and UDP port. -/
inductive MbxSrc where
  | host
  | mg0 (ip : Word) (port : Nat)
deriving DecidableEq, Repr

/-- What arrives at a MAC: a frame, or an mPacket of the 802.3br verify handshake (R310, R312). -/
inductive RxKind where
  | frame
  | verify
  | respond
deriving DecidableEq, Repr

/-- A frame as it arrives at a port (R302): its bytes from the destination address on, without the FCS. -/
structure RxFrame where
  kind : RxKind
  data : List Byte
  fcsErr : Bool
  alignErr : Bool
  asmErr : Bool
deriving DecidableEq, Repr

/-- A received IP datagram as flow matching reads it (R137). -/
structure Datagram where
  ipv6 : Bool
  vlan : Nat
  srcIp : Word
  dstIp : Word
  dstPort : Nat
  trunc : Bool
  payload : List Byte
deriving DecidableEq, Repr

/-- One run of sample row data of an ST 2110-20 packet (R141): codes in the order sent. -/
structure VideoRow where
  line : Nat
  offset : Nat
  codes : List Nat
deriving DecidableEq, Repr

/-- An ST 2110-20 packet (R140, R141): `second` where it came on the second leg, `bytes` its length as VID_MBPS counts it, `excess` where it
arrives beyond 80 Gb/s of video (R139). -/
structure VideoPacket where
  second : Bool
  bytes : Nat
  excess : Bool
  ts : Word
  eseq : Nat
  marker : Bool
  field : Bool
  rows : List VideoRow
deriving DecidableEq, Repr

/-- An E1.31 data packet (R149 to R151). -/
structure SacnData where
  rootVec : Nat
  frameVec : Nat
  dmpVec : Nat
  addrType : Nat
  firstAddr : Nat
  addrIncr : Nat
  startCode : Nat
  preview : Bool
  terminated : Bool
  cid : Nat
  univ : Nat
  seq : Nat
  prio : Nat
  syncAddr : Nat
  propCount : Nat
  slots : List Byte
deriving DecidableEq, Repr

/-- An E1.31 synchronisation packet (R149, R151). -/
structure SacnSync where
  rootVec : Nat
  frameVec : Nat
  cid : Nat
  syncAddr : Nat
deriving DecidableEq, Repr

/-- A stream with a timeout (R22, R23). -/
inductive Stream where
  | flow (f : Nat)
  | dmx (n : Nat)
  | genlock
  | ltc
deriving DecidableEq, Repr

/-- A filtered input pin (R20). -/
inductive Pin where
  | rstN
  | frzN
  | tamperN
  | genlock
  | ltc
  | cap (c : Nat)
  | dmx (n : Nat)
deriving DecidableEq, Repr

/-- A PTP Announce (R336, R337): the port it arrives on, its domainNumber, whether it came in IEEE 802.3, the interval its master gives
(a power of two of a second), and its comparison dataset. -/
structure PtpAnnounce where
  port : Nat
  domain : Nat
  ether : Bool
  interval : Int
  source : Nat
  gm : Nat
  prio1 : Nat
  clockClass : Nat
  accuracy : Nat
  variance : Nat
  prio2 : Nat
  steps : Nat
deriving DecidableEq, Repr

/-- A PTP Sync as a domain reads it (R336, R337). `origin` counts nanoseconds; `corr` is in 2⁻¹⁶ ns. -/
structure PtpSync where
  port : Nat
  domain : Nat
  ether : Bool
  interval : Int
  source : Nat
  seqId : Nat
  twoStep : Bool
  originSec : Nat
  originNs : Nat
  corr : Int
deriving DecidableEq, Repr

/-- A PTP Follow_Up (R336). -/
structure PtpFollowUp where
  port : Nat
  domain : Nat
  ether : Bool
  source : Nat
  seqId : Nat
  originSec : Nat
  originNs : Nat
  corr : Int
deriving DecidableEq, Repr

/-- A PTP Delay_Resp (R336, R337), with the interval it gives for Delay_Req. -/
structure PtpDelayResp where
  port : Nat
  domain : Nat
  ether : Bool
  interval : Int
  source : Nat
  seqId : Nat
  rxSec : Nat
  rxNs : Nat
  corr : Int
deriving DecidableEq, Repr

/-- A decoded 80-bit LTC frame (R353). -/
structure LtcFrame where
  tc : Word
  dropFlag : Bool
  user : Word
  bitRate : Nat
  reversed : Bool
  bitError : Bool
deriving DecidableEq, Repr

/-- How an INPUT DMX packet ended (R327). -/
structure DmxPacket where
  startCode : Nat
  slots : List Byte
  framingError : Bool
  shortBreak : Bool
deriving DecidableEq, Repr

/-- What Lehr's converter gives at one sample of a sensor (R386, R387): none is no result within 200 µs. -/
structure SensorReading where
  sensor : Nat
  value : Option Int
deriving DecidableEq, Repr

/-- The measurement of a calibration at its end (R401 to R403). -/
structure CalMeasure where
  extrefUv : Nat
  residuals : List Int
  refPresent : Bool
  refOffPpm : Nat
  tbPpb : Int
  badSlices : List Nat
  badLines : List Nat
  sliceOrder : List Nat
  lineOrder : List Nat
deriving DecidableEq, Repr

/-- The measurement of a slice at its end (R438, R439, R443). -/
structure SliceMeasure where
  done : Nat
  total : Nat
  sig : Cell
  golden : Cell
  mismatches : Nat
  mem : Nat
  bit : Nat
  addr : Nat
deriving DecidableEq, Repr

/-- What meets a CANCEL on its slot in the same cycle (R119, R127): a command of the other requester, the end of the job, the expiry of its
delay, or the completion of another job, on a bench. -/
inductive Meet where
  | arm (r : Req)
  | pset (r : Req) (flags : Byte)
  | gset (r : Req) (flags : Cell)
  | finish
  | delay
  | other (bench : Nat)
deriving DecidableEq, Repr

/-- The data of a register write, and the events of the page that its block sets in the cycle of the write (R50, R51; for EVT_STAT). -/
structure WriteData where
  word : Word
  met : Word
deriving DecidableEq, Repr

/-- A BUF_CMD CANCEL of a requester; `met` where it arrives in the cycle in which the command before it took place (R86). -/
structure CancelCmd where
  r : Req
  met : Bool
deriving DecidableEq, Repr

/-- An RDM response (R328) and how long it took from its first start bit (ns). -/
structure RdmResponse where
  data : List Byte
  took : Nat
deriving DecidableEq, Repr

/-- A message that reaches a fixture over its link, and the address it came from (R257, R284). -/
structure LinkMsg where
  words : List Word
  src : Nat
deriving DecidableEq, Repr

/-- What one command does. Each constructor is a row of spec/opcode_table.json; LAWS.json maps it to the row's mnemonic. -/
inductive Instr where
  -- register access (02_pages_epochs.md)
  | registerWrite (r : Req) (page off : Nat) (v : WriteData)
  | rwsWrite (r : Req) (page off : Nat) (v : Word)
  | unmappedAccess (r : Req) (page off : Nat) (isWrite : Bool)
  | refusedAccessWidth (r : Req) (page off : Nat) (isWrite : Bool)
  | rcCounterRead (r : Req) (page off : Nat)
  | pairLoRead (r : Req) (page off : Nat)
  | pairLoWrite (r : Req) (page off : Nat) (v : Word)
  | pairHiWrite (r : Req) (page off : Nat) (v : Word)
  | pageRst (r : Req) (page : Nat)
  | withdraw (r : Req) (page : Nat)
  | withdrawTakesEffect (page : Nat)
  | blockReturn (r : Req) (page : Nat)
  | pageReturnToService (page : Nat)
  | evtInjArm (r : Req) (page : Nat) (v : Word)
  | vecEoi (r : Req) (v : Word)
  | accessAbandon (r : Req) (page : Nat) (isWrite : Bool)
  | blockClockRestart (page : Nat)
  | commit (r : Req) (n : Word)
  | pageSealAck (page : Nat)
  | revert (r : Req)
  | snapReq (r : Req)
  | snapshotCapture
  | epochApply
  | warmReset (r : Req) (v : Word)
  | frameBoundary
  | streamTimeout (st : Stream)
  | freqSel (r : Req) (v : Word)
  | freqGateEnd (cycles : Nat)
  | pllLockLost (k : Nat)
  | pllLockRegained (k : Nat)
  | refclkAbsent
  | pinGlitch (pin : Pin)
  -- maps and leases (03_raster_memory.md)
  | mapsBuild (r : Req) (v : Word)
  | mapBuildEnd
  | mapSet (r : Req) (v : Word)
  | define (r : Req)
  | free (r : Req)
  | cancel (r : CancelCmd)
  | query (r : Req)
  | freeDonePop (r : Req)
  | bar2Write (off : Nat) (data : List Byte)
  | bar2Read (off len : Nat)
  | gafferMemoryAccess (addr len : Nat) (data : Option (List Byte))
  -- scheduler (04_render_jobs.md)
  | arm (r : Req) (slot : Nat)
  | slotCancel (r : Req) (slot : Nat) (meets : Option Meet)
  | pset (r : Req) (slot : Nat) (flags : Byte)
  | pclr (r : Req) (slot : Nat) (flags : Byte)
  | slotQuery (r : Req) (slot : Nat)
  | gset (r : Req) (flags : Cell)
  | gclr (r : Req) (flags : Cell)
  | schedHeldWritesApply
  | delayExpire (slot : Nat)
  | affinityWindowExpire (slot : Nat)
  | jobComplete (bench : Nat)
  | layerDeadline (layer : Nat)
  | lsEccError (bench word : Nat) (uncorrectable : Bool)
  -- ports, ingest (10_ports.md, 05_video_sampler.md)
  | portFrameReceive (port : Nat) (f : RxFrame)
  | pauseHoldEnd (port : Nat)
  | xoffPauseRefresh (port : Nat)
  | flowMatch (port : Nat) (d : Datagram)
  | videoPacket (flow : Nat) (p : VideoPacket)
  | hostPost (r : Req) (flow : Nat) (v : Word)
  | sacnDataPacket (flow : Nat) (p : SacnData)
  | sacnSyncPacket (flow : Nat) (p : SacnSync)
  | sacnSourceExpire (flow cid univ : Nat)
  | levels (flow : Nat) (words : List Word) (bytes : Nat)
  | flags (flow : Nat) (words : List Word) (bytes : Nat)
  | consoleFlagsApply
  | timecode (flow : Nat) (words : List Word) (bytes : Nat)
  | user (flow : Nat) (words : List Word) (bytes : Nat)
  -- Marver, solver, colour loop (06_marver.md, 07_colour_solver.md)
  | marverBaseWriterDone
  | marverPassStart
  | marverPassEnd
  | solverFrameDone
  | loopGainChangeover
  | loopReportJudge
  | resetFix (r : Req) (fix : Nat)
  | resetAll (r : Req)
  | resetAllDone
  -- scan engines and Tuiper (08_scanout_latch.md, 09_tuiper_link.md)
  | engineFrameStart (e : Nat)
  | scanWalkResume (e j : Nat)
  | levelFrameFlush (e j : Nat)
  | underrunPoint (e : Nat)
  | sendEnd (e j : Nat)
  | engineLatchPoint (e : Nat)
  | directBase (r : Req) (e : Nat) (v : Word)
  | portFrameSent (port : Nat)
  | tuiperSyncSend
  | delayReq (link : Nat) (words : List Word)
  | telemetry (link : Nat) (words : List Word)
  | telLost (fix : Nat)
  | hkFrame (link : Nat) (words : List Word)
  | txEnum (r : Req) (v : Word)
  | txSet (r : Req) (v : Word)
  | txRequestBegun
  | faultQPop (r : Req)
  | setStateChange (set : Nat)
  | setHoldComplete (set : Nat)
  | force (r : Req) (set : Nat)
  | rearm (r : Req) (set : Nat)
  | setsQuery (r : Req) (set : Nat)
  | transQPop (r : Req)
  -- links and queues (10_ports.md)
  | linkUp (port rate partnerAdv : Nat)
  | linkDown (port : Nat)
  | verifyTimeout (port : Nat)
  | renegTimeout (port : Nat)
  | dataLoPop (r : Req) (q : Nat)
  | dropPkt (r : Req) (q : Nat)
  | flush (r : Req) (q : Nat)
  | dmxPacketStart (n : Nat)
  | dmxInputPacketEnd (n : Nat) (p : DmxPacket)
  | rdmSend (r : Req) (v : Word)
  | rdmResponseEnd (data : RdmResponse) (collision : Bool)
  | rdmResponseTimeout
  -- time (11_time.md)
  | timeCapture (r : Req)
  | ptpAnnounce (d : Nat) (m : PtpAnnounce)
  | ptpSync (d : Nat) (m : PtpSync)
  | ptpFollowUp (d : Nat) (m : PtpFollowUp)
  | ptpDelayResp (d : Nat) (m : PtpDelayResp)
  | ptpDelayReqSend (d : Nat)
  | ptpDomainLost (d : Nat)
  | ptpRevert
  | tsqPop (r : Req)
  | genlockEdge
  | genlockFlywheel
  | ltcFrame (f : LtcFrame)
  | ltcFlywheel
  | triggerPulse (n : Nat)
  | triggerPulseEnd (n : Nat)
  | captureEdge (c : Nat) (rising : Bool)
  | capturePop (r : Req) (c : Nat)
  -- twin (12_twin.md)
  | helloSend
  | hello (pl : Nat) (words : List Word)
  | peerLost
  | seekTimeout
  | head (pl : Nat) (words : List Word)
  | headMiss
  | recMsg (pl : Nat) (words : List Word) (body : List Byte)
  | recMiss
  | recordApply
  | ack (pl : Nat) (words : List Word)
  | takeover
  | take (r : Req)
  | yieldCmd (r : Req)
  | rejoin (r : Req)
  | clearFailover (r : Req)
  | takeMessage (pl : Nat) (words : List Word)
  | takeOk (pl : Nat) (words : List Word)
  | takeback
  -- Lehr and calibration (13_thermal_calibration.md)
  | sensorSample (x : SensorReading)
  | riseHoldExpire (c : Nat)
  | clockGlideStep
  | ackFail (r : Req)
  | restore (r : Req) (sensor : Nat)
  | calSensors (r : Req)
  | calTimebase (r : Req)
  | calLane (r : Req) (lane : Nat)
  | calComplete (m : CalMeasure)
  | calResultsApply
  | eyeMeasure (lane width height : Nat)
  -- start, firmware, update, keeper (14_start_update.md, 16_electrical.md)
  | powerOnReset
  | rstN (low : Bool)
  | supplyFall
  | resetRelease
  | bootRomRun
  | ready
  | ping (src : MbxSrc) (tag : Nat)
  | info (src : MbxSrc) (tag : Nat)
  | imageBegin (src : MbxSrc) (tag total : Nat)
  | imageData (src : MbxSrc) (tag off : Nat) (data : List Byte)
  | imageBuf (src : MbxSrc) (tag buf bytes : Nat)
  | imageEnd (src : MbxSrc) (tag : Nat)
  | imageVerifyDone
  | update (src : MbxSrc) (tag : Nat)
  | revertUpdate (src : MbxSrc) (tag : Nat)
  | confirm (src : MbxSrc) (tag : Nat)
  | setSave (src : MbxSrc) (tag buf count : Nat)
  | setSaveDone
  | setRead (src : MbxSrc) (tag copy off : Nat)
  | jackReload (src : MbxSrc) (tag core : Nat)
  | jackReloadDone (core : Nat)
  | reboot (src : MbxSrc) (tag key : Nat)
  | mgDrop
  | updateLoadDone
  | updateMigrationDone (ok : Bool)
  | updateHandover
  | updateConfirmed
  | updateReversed
  | watchdogExpire
  | keepSecond
  | keepSecWrite (r : Req) (hi : Word)
  | tamper
  | log0Pop (r : Req)
  | pcieLinkChange (up : Bool) (speed width : Nat)
  | pcieError (uncorrectable : Bool)
  | flr
  -- self-test, life cycle, freeze, TAP (15_selftest_debug.md)
  | stReq (r : Req) (page testSel : Nat)
  | stAbort (r : Req) (page : Nat)
  | sliceStart
  | sliceEnd (m : SliceMeasure)
  | sliceBudgetExpire (m : SliceMeasure)
  | row (r : Req) (page mem : Nat)
  | column (r : Req) (page mem : Nat)
  | fuse (r : Req) (page mem : Nat)
  | advance (r : Req) (v : Word)
  | revoke (r : Req) (v : Word)
  | secBump (r : Req) (v : Word)
  | fuseDone (supplyOk : Bool)
  | debugFreeze (r : Req) (v : Word)
  | frzN
  | freezeClockStop (domain sub : Nat) (forced : Bool)
  | freezeOvertemp
  | extest (pins : List Nat)
  | samplePreload (pins : List Nat)
  | idcode
  | dumpSel (chain : Nat)
  | dumpScan
  | tapFreeze
  | bypass (code : Nat)
  -- the fixture side (09_tuiper_link.md)
  | fixtureFrameAccept (words : LinkMsg)
  | fixtureApply (pt : Nat)
  | fixtureLossDark
  | fixtureSync (words : List Word) (src : Nat)
  | fixtureDelayReqSend
  | fixtureTelemetrySend
  | discover (words : LinkMsg)
  | fixtureReplySend
  | mute (words : LinkMsg)
  | unmute (words : LinkMsg)
  | setWrite (words : LinkMsg)
  | setReadParam (words : LinkMsg)
  | keeperLost
  | msixVectorUnmask (v : Nat)
  | registerRead (r : Req) (page off : Nat)
  | fixtureDelayResp (words : List Word)
  | fixturePowerUp
  | dmxPacketEnd (n : Nat)
  | rdmRequestEnd
  | pageRstDone (page : Nat)
  | probationFailure
deriving DecidableEq, Repr

end Sys2Proof
end

