-- ==== Sys2Proof/Decode.lean ====
section
/-!
DEFINITION. The words of the command table. No row of the table gives bits, so no word spells a command: commands arrive in the
queue of the state.
-/
namespace Sys2Proof

/-- The command that a word of `nbits` bits spells by the table: none, since the table gives no row any bits. -/
def decodeTableWord (_nbits _w : Nat) : Option Instr := none

end Sys2Proof
end

