-- ==== Sys2Proof/Config.lean ====
section
/-!
DEFINITION. What the manual leaves open: constants without a body, so that nothing can be proved of their values.
-/
namespace Sys2Proof.Config

/-- UNVERIFIED free values (log entry 1): the `n`-th value the manual leaves undefined. -/
opaque free : Nat → Nat

/-- The LAST_FIELD code of a guard action to which the manual gives no code, by register address (log entry 7). -/
opaque openCode : Nat → Nat

/-- Whether the ECDSA P-384 signature and the key hash of an image verify, over the bytes from its header on (log entry 19). -/
opaque sigOk : List Byte → Bool

/-- Logic sections, march sections and memory instances of a page's block (R442, R443): MEMS × 65536 + LOGIC × 256 + MARCH. -/
opaque gloryInfo : Nat → Nat

/-- Bit lengths and domain codes of the dump chains (R453): entry `k` of the directory, and their count for `k` = 0. -/
opaque dumpChain : Nat → Nat

/-- Whether an image can read or migrate a settings format (R415): image format, settings format. -/
opaque setVerReadable : Nat → Nat → Bool

/-- The records of settings converted from one format to another (R424): old format, new format, records. -/
opaque migrate : Nat → Nat → List Byte → List Byte

/-- The MAC address of the partner's punty port, which a punty message is sent to (R366): by port. -/
opaque peerMac : Nat → Nat

end Sys2Proof.Config
end

