-- ==== Sys2Proof/Machine/AMap.lean ====
section
/-!
DEFINITION. Sorted association lists: the plain-data maps of the model. A map lists only the keys whose value differs from
what an unlisted key reads as, in rising order of key, so that equal maps are equal data.
-/
namespace Sys2Proof.Machine

/-- A map from numbers: pairs of key and value, keys strictly rising. -/
abbrev AMap (α : Type) := List (Nat × α)

/-- The value at key `k`; `d k` where the key is not listed. -/
def amGet {α : Type} (d : Nat → α) : AMap α → Nat → α
  | [], k => d k
  | (j, v) :: m, k => if k = j then v else amGet d m k

/-- The map without key `k`. -/
def amDel {α : Type} : AMap α → Nat → AMap α
  | [], _ => []
  | (j, w) :: m, k => if k = j then amDel m k else (j, w) :: amDel m k

/-- The map with `k`, which it does not list, listed in its place. -/
def amIns {α : Type} : AMap α → Nat → α → AMap α
  | [], k, v => [(k, v)]
  | (j, w) :: m, k, v => if k < j then (k, v) :: (j, w) :: m else (j, w) :: amIns m k v

/-- Put `v` at key `k`, listing it only where it differs from `d k`. -/
def amSet {α : Type} [DecidableEq α] (d : Nat → α) (m : AMap α) (k : Nat) (v : α) : AMap α :=
  if v = d k then amDel m k else amIns (amDel m k) k v

/-- The canonical form: keys strictly rising and from `lo` on, no value equal to what its key reads as when unlisted. -/
def amWfFrom {α : Type} [DecidableEq α] (d : Nat → α) (lo : Nat) : AMap α → Bool
  | [] => true
  | (j, v) :: m => decide (lo ≤ j) && decide (v ≠ d j) && amWfFrom d (j + 1) m

/-- The canonical form of a whole map. -/
def amWf {α : Type} [DecidableEq α] (d : Nat → α) (m : AMap α) : Bool := amWfFrom d 0 m

end Sys2Proof.Machine
end

