-- ==== Sys2Proof/Machine/Regs.lean ====
section
/-!
DEFINITION. The register map: for every register of every page, its offset, its fields, their access types and reset values,
as the register tables of the spec give them (R7, R32, R61, R92 to R95, R134, R135, R164 to R166, R184, R185, R214, R215,
R247 to R249, R296, R297, R329 to R332, R358 to R361, R384, R406 to R408, R432 to R434, R456 to R458). `A.X` is the address
(page × 0x1000 + offset) of register X, with the page's instance `p` and the register's index `i` where it has them;
`F.X_FIELD` is the place of one field.
-/
namespace Sys2Proof.Machine

/-- Access types (R30). -/
inductive Acc where
  | rw | ro | rc | w1c | w1s | wo | rws | rwi
deriving DecidableEq, Repr

/-- The place of a field in a word: its high and low bit. -/
structure Fld where
  hi : Nat
  lo : Nat
deriving DecidableEq, Repr

/-- One field of a register table. -/
structure FieldDef where
  hi : Nat
  lo : Nat
  acc : Acc
  reset : Nat
deriving DecidableEq, Repr

/-- Whether a register is half of a 64-bit pair (R48). -/
inductive Pair where
  | single | lo | hi
deriving DecidableEq, Repr

/-- One register, or `cnt` of them `stride` bytes apart. -/
structure RegDef where
  off : Nat
  stride : Nat
  cnt : Nat
  pair : Pair
  fields : List FieldDef
deriving DecidableEq, Repr

/-- The blocks of the page map (R29). -/
inductive Blk where
  | sys | clk | keep | hostB | gaffer | mem | lease | rasterB | maps | sched | bench | ingest | flow | sampler | marver
  | solver | cloop | scan | tuiper | sets | fl | sp | pl | mg | dmx | q | time | ptp | trig | sync | twin | lehr | cal
  | glory | life | debug | lane
deriving DecidableEq, Repr

/-- The block of a page (R29); none where the page is unassigned. -/
def blkOf (p : Nat) : Option Blk :=
  if p < 0x30 then
    (match p with
    | 0x000 => some .sys | 0x001 => some .clk | 0x002 => some .keep | 0x004 => some .hostB | 0x008 => some .gaffer
    | 0x010 => some .mem | 0x011 => some .lease | 0x020 => some .rasterB | 0x021 => some .maps | _ => none)
  else if p = 0x30 then some .sched
  else if p < 0x40 then none else if p < 0x50 then some .bench else if p = 0x50 then some .ingest
  else if p < 0x60 then none else if p < 0x70 then some .flow else if p = 0x80 then some .sampler
  else if p = 0x90 then some .marver else if p = 0xA0 then some .solver else if p = 0xA1 then some .cloop
  else if p < 0xB0 then none else if p < 0xB8 then some .scan
  else if p = 0xC0 then some .tuiper else if p = 0xC1 then some .sets
  else if p < 0x100 then none else if p < 0x140 then some .fl else if p < 0x144 then some .sp
  else if p < 0x146 then some .pl else if p = 0x146 then some .mg else if p = 0x148 then some .dmx
  else if p < 0x150 then none else if p < 0x160 then some .q
  else if p = 0x160 then some .time else if p = 0x161 then some .ptp else if p = 0x162 then some .trig
  else if p = 0x163 then some .sync else if p = 0x170 then some .twin else if p = 0x180 then some .lehr
  else if p = 0x181 then some .cal else if p = 0x190 then some .glory else if p = 0x191 then some .life
  else if p = 0x192 then some .debug else if p < 0x1A0 then none else if p < 0x1E6 then some .lane else none

/-- The block code PAGE_ID reports (R29). -/
def Blk.code : Blk → Nat
  | .sys => 0x0001 | .clk => 0x0002 | .keep => 0x0003 | .hostB => 0x0004 | .gaffer => 0x0005 | .mem => 0x0010
  | .lease => 0x0011 | .rasterB => 0x0020 | .maps => 0x0021 | .sched => 0x0030 | .bench => 0x0031 | .ingest => 0x0040
  | .flow => 0x0041 | .sampler => 0x0050 | .marver => 0x0060 | .solver => 0x0070 | .cloop => 0x0071 | .scan => 0x0080
  | .tuiper => 0x0090 | .sets => 0x0091 | .fl => 0x00A0 | .sp => 0x00A1 | .pl => 0x00A2 | .mg => 0x00A3 | .dmx => 0x00A4
  | .q => 0x00B0 | .time => 0x00C0 | .ptp => 0x00C1 | .trig => 0x00C2 | .sync => 0x00C3 | .twin => 0x00D0 | .lehr => 0x00E0
  | .cal => 0x00E1 | .glory => 0x00F0 | .life => 0x00F1 | .debug => 0x00F2 | .lane => 0x0100

/-- The first page of a block (R29). -/
def Blk.base : Blk → Nat
  | .sys => 0x000 | .clk => 0x001 | .keep => 0x002 | .hostB => 0x004 | .gaffer => 0x008 | .mem => 0x010
  | .lease => 0x011 | .rasterB => 0x020 | .maps => 0x021 | .sched => 0x030 | .bench => 0x040 | .ingest => 0x050
  | .flow => 0x060 | .sampler => 0x080 | .marver => 0x090 | .solver => 0x0A0 | .cloop => 0x0A1 | .scan => 0x0B0
  | .tuiper => 0x0C0 | .sets => 0x0C1 | .fl => 0x100 | .sp => 0x140 | .pl => 0x144 | .mg => 0x146 | .dmx => 0x148
  | .q => 0x150 | .time => 0x160 | .ptp => 0x161 | .trig => 0x162 | .sync => 0x163 | .twin => 0x170 | .lehr => 0x180
  | .cal => 0x181 | .glory => 0x190 | .life => 0x191 | .debug => 0x192 | .lane => 0x1A0

/-- The instance number of a page (R29). -/
def instOf (p : Nat) : Nat :=
  match blkOf p with
  | some b => p - b.base
  | none => 0


/-- The common page header (R32). -/
def headerTable : List RegDef := [
  ⟨0x000, 0, 1, .single, [⟨31, 16, .ro, 0⟩, ⟨15, 8, .ro, 0⟩]⟩,
  ⟨0x004, 0, 1, .single, [⟨31, 24, .ro, 1⟩, ⟨23, 16, .ro, 0⟩]⟩,
  ⟨0x008, 0, 1, .single, [⟨31, 25, .ro, 0⟩]⟩,
  ⟨0x00C, 0, 1, .single, [⟨31, 31, .rwi, 0⟩, ⟨30, 30, .rwi, 0⟩, ⟨1, 0, .rwi, 0⟩]⟩,
  ⟨0x010, 0, 1, .single, [⟨31, 0, .w1c, 0⟩]⟩,
  ⟨0x014, 0, 1, .single, [⟨31, 0, .rw, 0⟩]⟩,
  ⟨0x018, 0, 1, .single, [⟨31, 0, .w1s, 0⟩]⟩,
  ⟨0x01C, 0, 1, .single, [⟨31, 0, .w1c, 0⟩]⟩,
  ⟨0x020, 0, 1, .single, [⟨31, 0, .ro, 0⟩]⟩,
  ⟨0x024, 0, 1, .single, [⟨31, 31, .ro, 0⟩, ⟨15, 0, .ro, 0⟩]⟩,
  ⟨0x028, 0, 1, .single, [⟨31, 27, .w1c, 0⟩, ⟨23, 16, .ro, 0⟩, ⟨15, 0, .w1c, 0⟩]⟩,
  ⟨0x02C, 0, 1, .single, [⟨31, 0, .rc, 0⟩]⟩,
  ⟨0x030, 0, 1, .single, [⟨15, 8, .rw, 0⟩, ⟨1, 1, .w1s, 0⟩, ⟨0, 0, .w1s, 0⟩]⟩,
  ⟨0x034, 0, 1, .single, [⟨31, 16, .ro, 0⟩, ⟨2, 0, .ro, 0⟩]⟩]

/-- Registers of the CLK page (R7, 01_architecture.md). -/
def clkTable : List RegDef := [
  ⟨0x080, 0, 1, .single, [⟨6, 0, .ro, 0⟩]⟩,
  ⟨0x084, 0, 1, .single, [⟨22, 16, .rwi, 0⟩, ⟨3, 0, .rwi, 0⟩]⟩,
  ⟨0x088, 0, 1, .single, [⟨31, 0, .ro, 0⟩]⟩,
  ⟨0x08C, 0, 1, .single, [⟨31, 0, .rc, 0⟩]⟩,
  ⟨0x090, 0, 1, .single, [⟨31, 0, .rc, 0⟩]⟩]

/-- Registers of the SYS page (R61, 02_pages_epochs.md). -/
def sysTable : List RegDef := [
  ⟨0x080, 0, 1, .single, [⟨31, 0, .ro, 1262895254⟩]⟩,
  ⟨0x084, 0, 1, .single, [⟨31, 24, .ro, 11⟩, ⟨23, 16, .ro, 0⟩, ⟨15, 8, .ro, 1⟩]⟩,
  ⟨0x088, 0, 1, .single, [⟨31, 0, .rwi, 0⟩]⟩,
  ⟨0x08C, 0, 1, .single, [⟨31, 0, .ro, 0⟩]⟩,
  ⟨0x090, 0, 1, .single, [⟨31, 0, .ro, 0⟩]⟩,
  ⟨0x094, 0, 1, .single, [⟨31, 0, .ro, 0⟩]⟩,
  ⟨0x098, 0, 1, .single, [⟨10, 0, .rws, 20⟩]⟩,
  ⟨0x09C, 0, 1, .single, [⟨1, 1, .rwi, 0⟩, ⟨0, 0, .w1s, 0⟩]⟩,
  ⟨0x0A0, 0, 1, .single, [⟨1, 1, .rwi, 0⟩, ⟨0, 0, .w1s, 0⟩]⟩,
  ⟨0x0A4, 0, 1, .single, [⟨31, 24, .ro, 0⟩, ⟨23, 16, .ro, 0⟩, ⟨15, 0, .ro, 0⟩]⟩,
  ⟨0x0A8, 0, 1, .single, [⟨31, 0, .ro, 0⟩]⟩,
  ⟨0x0AC, 0, 1, .single, [⟨10, 0, .rw, 64⟩]⟩,
  ⟨0x0B0, 0, 1, .single, [⟨31, 16, .wo, 0⟩, ⟨0, 0, .wo, 0⟩]⟩,
  ⟨0x0B4, 0, 1, .single, [⟨4, 4, .ro, 0⟩, ⟨3, 3, .ro, 0⟩, ⟨2, 2, .ro, 0⟩, ⟨1, 1, .ro, 0⟩, ⟨0, 0, .ro, 0⟩]⟩,
  ⟨0x0B8, 0, 1, .single, [⟨31, 16, .rc, 0⟩, ⟨11, 0, .ro, 0⟩]⟩,
  ⟨0x0BC, 0, 1, .single, [⟨0, 0, .ro, 0⟩]⟩,
  ⟨0x0C0, 0x4, 16, .single, [⟨31, 0, .ro, 0⟩]⟩,
  ⟨0x100, 0, 1, .single, [⟨5, 0, .wo, 0⟩]⟩,
  ⟨0x800, 0x4, 512, .single, [⟨31, 31, .rw, 0⟩, ⟨5, 0, .rw, 0⟩]⟩]

/-- Registers of the MEM page (R92, 03_raster_memory.md). -/
def memTable : List RegDef := [
  ⟨0x080, 0, 1, .single, [⟨15, 0, .ro, 32⟩]⟩,
  ⟨0x084, 0, 1, .single, [⟨18, 0, .ro, 12288⟩]⟩,
  ⟨0x088, 0, 1, .lo, [⟨31, 0, .rc, 0⟩]⟩,
  ⟨0x08C, 0, 1, .hi, [⟨31, 0, .rc, 0⟩]⟩,
  ⟨0x090, 0, 1, .lo, [⟨31, 0, .rc, 0⟩]⟩,
  ⟨0x094, 0, 1, .hi, [⟨31, 0, .rc, 0⟩]⟩,
  ⟨0x098, 0, 1, .single, [⟨31, 0, .rc, 0⟩]⟩,
  ⟨0x09C, 0, 1, .single, [⟨31, 0, .rc, 0⟩]⟩,
  ⟨0x0A0, 0, 1, .lo, [⟨31, 0, .ro, 0⟩]⟩,
  ⟨0x0A4, 0, 1, .hi, [⟨2, 0, .ro, 0⟩]⟩]

/-- Registers of the LEASE page (R93, 03_raster_memory.md). -/
def leaseTable : List RegDef := [
  ⟨0x080, 0, 1, .single, [⟨11, 0, .rwi, 0⟩]⟩,
  ⟨0x084, 0, 1, .single, [⟨18, 0, .rwi, 0⟩]⟩,
  ⟨0x088, 0, 1, .single, [⟨18, 0, .rwi, 0⟩]⟩,
  ⟨0x08C, 0, 1, .single, [⟨0, 0, .rwi, 0⟩]⟩,
  ⟨0x090, 0, 1, .single, [⟨2, 0, .wo, 0⟩]⟩,
  ⟨0x094, 0, 1, .single, [⟨31, 28, .ro, 0⟩, ⟨23, 12, .ro, 0⟩, ⟨2, 0, .ro, 0⟩]⟩,
  ⟨0x098, 0, 1, .single, [⟨31, 0, .ro, 0⟩]⟩,
  ⟨0x09C, 0, 1, .single, [⟨15, 0, .ro, 0⟩]⟩,
  ⟨0x0A0, 0, 1, .single, [⟨31, 31, .rc, 0⟩, ⟨11, 0, .rc, 0⟩]⟩,
  ⟨0x0A4, 0, 1, .single, [⟨15, 0, .rc, 0⟩]⟩,
  ⟨0x0A8, 0, 1, .lo, [⟨31, 0, .ro, 0⟩]⟩,
  ⟨0x0AC, 0, 1, .hi, [⟨2, 0, .ro, 0⟩]⟩,
  ⟨0x0B0, 0, 1, .single, [⟨31, 31, .ro, 0⟩, ⟨30, 28, .ro, 0⟩, ⟨12, 12, .ro, 0⟩, ⟨11, 0, .ro, 0⟩]⟩,
  ⟨0x0B4, 0, 1, .single, [⟨31, 0, .rc, 0⟩]⟩]

/-- Registers of the RASTER page (R94, 03_raster_memory.md). -/
def rasterBTable : List RegDef := [
  ⟨0x080, 0x4, 16, .single, [⟨11, 0, .rws, 4095⟩]⟩,
  ⟨0x0C0, 0x4, 16, .single, [⟨27, 16, .rws, 0⟩, ⟨11, 0, .rws, 0⟩]⟩,
  ⟨0x100, 0x4, 16, .single, [⟨28, 16, .rws, 0⟩, ⟨12, 0, .rws, 0⟩]⟩,
  ⟨0x140, 0x4, 16, .single, [⟨28, 16, .ro, 0⟩, ⟨12, 0, .ro, 0⟩]⟩,
  ⟨0x180, 0, 1, .single, [⟨31, 0, .rc, 0⟩]⟩]

/-- Registers of the MAPS page (R95, 03_raster_memory.md). -/
def mapsTable : List RegDef := [
  ⟨0x080, 0, 1, .single, [⟨27, 16, .rws, 4095⟩, ⟨11, 0, .rws, 4095⟩]⟩,
  ⟨0x084, 0, 1, .single, [⟨31, 31, .wo, 0⟩, ⟨27, 16, .wo, 0⟩, ⟨11, 0, .wo, 0⟩]⟩,
  ⟨0x088, 0, 1, .single, [⟨31, 30, .ro, 0⟩, ⟨27, 24, .ro, 0⟩, ⟨18, 0, .ro, 0⟩]⟩,
  ⟨0x08C, 0, 1, .single, [⟨17, 0, .ro, 0⟩]⟩,
  ⟨0x090, 0, 1, .single, [⟨17, 0, .ro, 0⟩]⟩,
  ⟨0x094, 0, 1, .single, [⟨23, 0, .ro, 0⟩]⟩,
  ⟨0x098, 0, 1, .single, [⟨18, 0, .ro, 0⟩]⟩,
  ⟨0x09C, 0, 1, .single, [⟨28, 18, .ro, 0⟩, ⟨17, 0, .ro, 0⟩]⟩,
  ⟨0x0A0, 0, 1, .single, [⟨24, 0, .ro, 0⟩]⟩,
  ⟨0x800, 0x4, 256, .single, [⟨31, 0, .rw, 0⟩]⟩,
  ⟨0xC00, 0x4, 256, .single, [⟨3, 0, .rw, 0⟩]⟩]

/-- Registers of the SCHED page (R134, 04_render_jobs.md). -/
def schedTable : List RegDef := [
  ⟨0x080, 0, 1, .single, [⟨31, 31, .rws, 0⟩, ⟨7, 0, .rws, 192⟩]⟩,
  ⟨0x084, 0, 1, .single, [⟨15, 0, .rws, 2000⟩]⟩,
  ⟨0x088, 0, 1, .single, [⟨11, 0, .rws, 4095⟩]⟩,
  ⟨0x08C, 0, 1, .single, [⟨11, 0, .rws, 4095⟩]⟩,
  ⟨0x090, 0, 1, .single, [⟨31, 30, .rws, 0⟩, ⟨29, 28, .rws, 3⟩, ⟨7, 0, .rws, 8⟩]⟩,
  ⟨0x094, 0, 1, .single, [⟨31, 0, .ro, 0⟩]⟩,
  ⟨0x098, 0, 1, .single, [⟨31, 28, .wo, 0⟩, ⟨23, 16, .wo, 0⟩, ⟨11, 0, .wo, 0⟩]⟩,
  ⟨0x09C, 0, 1, .single, [⟨31, 28, .ro, 0⟩, ⟨27, 24, .ro, 0⟩, ⟨23, 23, .ro, 0⟩, ⟨22, 19, .ro, 0⟩, ⟨18, 16, .ro, 0⟩, ⟨15, 8, .ro, 0⟩]⟩,
  ⟨0x0A0, 0, 1, .single, [⟨31, 0, .ro, 0⟩]⟩,
  ⟨0x0A8, 0, 1, .lo, [⟨31, 0, .ro, 0⟩]⟩,
  ⟨0x0AC, 0, 1, .hi, [⟨31, 0, .ro, 0⟩]⟩,
  ⟨0x0B0, 0, 1, .lo, [⟨31, 0, .w1s, 0⟩]⟩,
  ⟨0x0B4, 0, 1, .hi, [⟨31, 0, .w1s, 0⟩]⟩,
  ⟨0x0B8, 0, 1, .lo, [⟨31, 0, .w1c, 0⟩]⟩,
  ⟨0x0BC, 0, 1, .hi, [⟨31, 0, .w1c, 0⟩]⟩,
  ⟨0x0C0, 0, 1, .lo, [⟨31, 0, .rwi, 0⟩]⟩,
  ⟨0x0C4, 0, 1, .hi, [⟨31, 0, .rwi, 0⟩]⟩,
  ⟨0x0C8, 0, 1, .lo, [⟨31, 0, .w1c, 0⟩]⟩,
  ⟨0x0CC, 0, 1, .hi, [⟨31, 0, .w1c, 0⟩]⟩,
  ⟨0x0D0, 0, 1, .single, [⟨31, 0, .rc, 0⟩]⟩,
  ⟨0x0D4, 0, 1, .single, [⟨31, 0, .rc, 0⟩]⟩,
  ⟨0x0D8, 0, 1, .single, [⟨31, 0, .rc, 0⟩]⟩,
  ⟨0x0DC, 0, 1, .single, [⟨31, 0, .rc, 0⟩]⟩,
  ⟨0x0E0, 0, 1, .single, [⟨31, 0, .rc, 0⟩]⟩,
  ⟨0x0E4, 0, 1, .single, [⟨31, 0, .rc, 0⟩]⟩,
  ⟨0x0E8, 0, 1, .single, [⟨31, 0, .rc, 0⟩]⟩,
  ⟨0x0EC, 0, 1, .single, [⟨28, 16, .ro, 0⟩, ⟨12, 0, .ro, 0⟩]⟩,
  ⟨0x0F0, 0, 1, .single, [⟨31, 31, .ro, 0⟩, ⟨28, 16, .ro, 0⟩, ⟨11, 0, .ro, 0⟩]⟩,
  ⟨0x100, 0x4, 16, .single, [⟨31, 31, .ro, 0⟩, ⟨30, 30, .ro, 0⟩, ⟨15, 0, .ro, 0⟩]⟩,
  ⟨0x800, 0x8, 256, .single, [⟨31, 0, .rws, 0⟩]⟩,
  ⟨0x804, 0x8, 256, .single, [⟨31, 31, .rws, 0⟩, ⟨30, 30, .rws, 0⟩, ⟨17, 12, .rws, 0⟩, ⟨11, 0, .rws, 0⟩]⟩]

/-- Registers of the BENCH page (R135, 04_render_jobs.md). -/
def benchTable : List RegDef := [
  ⟨0x080, 0, 1, .single, [⟨31, 31, .ro, 0⟩, ⟨30, 30, .ro, 0⟩, ⟨11, 0, .ro, 0⟩]⟩,
  ⟨0x084, 0, 1, .single, [⟨31, 0, .ro, 0⟩]⟩,
  ⟨0x088, 0, 1, .single, [⟨23, 0, .ro, 0⟩]⟩,
  ⟨0x08C, 0, 1, .single, [⟨31, 0, .rc, 0⟩]⟩,
  ⟨0x090, 0, 1, .lo, [⟨31, 0, .rc, 0⟩]⟩,
  ⟨0x094, 0, 1, .hi, [⟨31, 0, .rc, 0⟩]⟩,
  ⟨0x098, 0, 1, .single, [⟨31, 0, .rc, 0⟩]⟩,
  ⟨0x09C, 0, 1, .single, [⟨31, 0, .rc, 0⟩]⟩,
  ⟨0x0A0, 0, 1, .single, [⟨31, 0, .rc, 0⟩]⟩,
  ⟨0x0A4, 0, 1, .single, [⟨31, 0, .rc, 0⟩]⟩,
  ⟨0x0A8, 0, 1, .single, [⟨31, 0, .rc, 0⟩]⟩,
  ⟨0x0AC, 0, 1, .single, [⟨14, 0, .ro, 0⟩]⟩]

/-- Registers of the INGEST page (R164, 05_video_sampler.md). -/
def ingestTable : List RegDef := [
  ⟨0x080, 0, 1, .single, [⟨31, 31, .rws, 0⟩, ⟨19, 16, .rws, 0⟩, ⟨8, 8, .rws, 0⟩]⟩,
  ⟨0x084, 0, 1, .single, [⟨11, 0, .rws, 4095⟩]⟩,
  ⟨0x088, 0, 1, .single, [⟨11, 0, .rws, 4095⟩]⟩,
  ⟨0x08C, 0, 1, .single, [⟨7, 0, .rws, 0⟩]⟩,
  ⟨0x090, 0, 1, .single, [⟨31, 31, .ro, 0⟩, ⟨8, 0, .ro, 0⟩]⟩,
  ⟨0x094, 0, 1, .single, [⟨16, 0, .ro, 0⟩]⟩,
  ⟨0x098, 0, 1, .single, [⟨31, 0, .rc, 0⟩]⟩,
  ⟨0x09C, 0, 1, .single, [⟨31, 0, .rc, 0⟩]⟩,
  ⟨0x0A0, 0, 1, .single, [⟨15, 0, .ro, 0⟩]⟩,
  ⟨0x0A4, 0, 1, .single, [⟨15, 0, .ro, 0⟩]⟩]

/-- Registers of the FLOW page (R165, 05_video_sampler.md). -/
def flowTable : List RegDef := [
  ⟨0x080, 0, 1, .single, [⟨3, 0, .ro, 0⟩]⟩,
  ⟨0x084, 0, 1, .single, [⟨15, 0, .ro, 0⟩]⟩,
  ⟨0x800, 0x80, 16, .single, [⟨31, 29, .rws, 0⟩, ⟨28, 27, .rws, 0⟩, ⟨26, 26, .rws, 0⟩, ⟨25, 25, .rws, 0⟩, ⟨23, 20, .rws, 0⟩, ⟨19, 19, .rws, 0⟩, ⟨15, 12, .rws, 0⟩, ⟨11, 0, .rws, 0⟩]⟩,
  ⟨0x804, 0x80, 16, .single, [⟨31, 0, .rws, 0⟩]⟩,
  ⟨0x808, 0x80, 16, .single, [⟨31, 0, .rws, 0⟩]⟩,
  ⟨0x80C, 0x80, 16, .single, [⟨31, 0, .rws, 0⟩]⟩,
  ⟨0x810, 0x80, 16, .single, [⟨15, 0, .rws, 0⟩]⟩,
  ⟨0x814, 0x80, 16, .single, [⟨31, 16, .rws, 60⟩, ⟨15, 0, .rws, 2500⟩]⟩,
  ⟨0x818, 0x80, 16, .single, [⟨31, 16, .rws, 0⟩, ⟨15, 0, .rws, 0⟩]⟩,
  ⟨0x81C, 0x80, 16, .single, [⟨31, 24, .rws, 0⟩, ⟨15, 0, .rws, 0⟩]⟩,
  ⟨0x820, 0x80, 16, .single, [⟨28, 16, .rws, 0⟩, ⟨12, 0, .rws, 0⟩]⟩,
  ⟨0x824, 0x80, 16, .single, [⟨31, 30, .rws, 0⟩, ⟨29, 29, .rws, 1⟩, ⟨28, 28, .rws, 0⟩, ⟨27, 27, .rws, 0⟩, ⟨26, 25, .rws, 0⟩, ⟨24, 24, .rws, 0⟩, ⟨13, 0, .rws, 203⟩]⟩,
  ⟨0x828, 0x80, 16, .single, [⟨31, 0, .rws, 1065353216⟩]⟩,
  ⟨0x82C, 0x80, 16, .single, [⟨19, 16, .rws, 3⟩, ⟨11, 0, .rws, 4095⟩]⟩,
  ⟨0x830, 0x80, 16, .single, [⟨11, 0, .rws, 4095⟩]⟩,
  ⟨0x834, 0x80, 16, .single, [⟨11, 0, .rws, 4095⟩]⟩,
  ⟨0x838, 0x80, 16, .single, [⟨11, 0, .rws, 4095⟩]⟩,
  ⟨0x83C, 0x80, 16, .single, [⟨11, 0, .rws, 4095⟩]⟩,
  ⟨0x840, 0x80, 16, .single, [⟨31, 16, .rwi, 0⟩, ⟨1, 0, .rwi, 0⟩]⟩,
  ⟨0x844, 0x80, 16, .single, [⟨31, 31, .ro, 0⟩, ⟨30, 30, .ro, 0⟩, ⟨29, 29, .ro, 0⟩, ⟨27, 24, .ro, 0⟩, ⟨21, 20, .ro, 0⟩, ⟨17, 16, .ro, 0⟩]⟩,
  ⟨0x848, 0x80, 16, .single, [⟨31, 0, .rc, 0⟩]⟩,
  ⟨0x84C, 0x80, 16, .single, [⟨31, 0, .rc, 0⟩]⟩,
  ⟨0x850, 0x80, 16, .single, [⟨31, 0, .rc, 0⟩]⟩,
  ⟨0x854, 0x80, 16, .single, [⟨31, 0, .rc, 0⟩]⟩,
  ⟨0x858, 0x80, 16, .single, [⟨31, 0, .ro, 0⟩]⟩,
  ⟨0x85C, 0x80, 16, .single, [⟨2, 0, .ro, 0⟩]⟩]

/-- Registers of the SAMPLER page (R166, 05_video_sampler.md). -/
def samplerTable : List RegDef := [
  ⟨0x080, 0x4, 32, .single, [⟨31, 31, .rws, 0⟩, ⟨7, 0, .rws, 0⟩]⟩,
  ⟨0x100, 0x10, 16, .single, [⟨28, 16, .rws, 0⟩, ⟨12, 0, .rws, 0⟩]⟩,
  ⟨0x104, 0x10, 16, .single, [⟨31, 24, .rws, 0x20⟩, ⟨13, 0, .rws, 0xCB⟩]⟩,
  ⟨0x108, 0x10, 16, .single, [⟨31, 0, .rws, 1065353216⟩]⟩,
  ⟨0x200, 0, 1, .lo, [⟨31, 0, .rc, 0⟩]⟩,
  ⟨0x204, 0, 1, .hi, [⟨31, 0, .rc, 0⟩]⟩,
  ⟨0x208, 0, 1, .single, [⟨31, 0, .rc, 0⟩]⟩,
  ⟨0x20C, 0, 1, .single, [⟨31, 0, .rc, 0⟩]⟩,
  ⟨0x210, 0, 1, .single, [⟨31, 0, .rc, 0⟩]⟩,
  ⟨0x214, 0, 1, .single, [⟨31, 0, .rc, 0⟩]⟩,
  ⟨0x218, 0, 1, .lo, [⟨31, 0, .rc, 0⟩]⟩,
  ⟨0x21C, 0, 1, .hi, [⟨31, 0, .rc, 0⟩]⟩]

/-- Registers of the MARVER page (R184, R185, 06_marver.md). -/
def marverTable : List RegDef := [
  ⟨0x080, 0, 1, .single, [⟨31, 31, .rws, 0⟩, ⟨8, 0, .rws, 240⟩]⟩,
  ⟨0x088, 0, 1, .lo, [⟨31, 0, .rws, 0⟩]⟩,
  ⟨0x08C, 0, 1, .hi, [⟨31, 0, .rws, 0⟩]⟩,
  ⟨0x090, 0, 1, .single, [⟨31, 31, .ro, 0⟩, ⟨30, 30, .ro, 0⟩, ⟨28, 24, .ro, 0⟩, ⟨20, 16, .ro, 0⟩, ⟨15, 0, .ro, 0⟩]⟩,
  ⟨0x094, 0, 1, .single, [⟨31, 16, .ro, 0⟩, ⟨15, 0, .ro, 0⟩]⟩,
  ⟨0x098, 0, 1, .single, [⟨31, 0, .ro, 0⟩]⟩,
  ⟨0x09C, 0, 1, .single, [⟨31, 0, .ro, 0⟩]⟩,
  ⟨0x0A0, 0, 1, .single, [⟨15, 0, .ro, 0⟩]⟩,
  ⟨0x0A4, 0, 1, .single, [⟨23, 0, .ro, 0⟩]⟩,
  ⟨0x0A8, 0, 1, .lo, [⟨31, 0, .ro, 0⟩]⟩,
  ⟨0x0AC, 0, 1, .hi, [⟨31, 0, .ro, 0⟩]⟩,
  ⟨0x0B0, 0, 1, .lo, [⟨31, 0, .rc, 0⟩]⟩,
  ⟨0x0B4, 0, 1, .hi, [⟨31, 0, .rc, 0⟩]⟩,
  ⟨0x0B8, 0, 1, .single, [⟨31, 0, .rc, 0⟩]⟩,
  ⟨0x0BC, 0, 1, .single, [⟨31, 0, .rc, 0⟩]⟩,
  ⟨0x0C0, 0, 1, .single, [⟨31, 0, .rc, 0⟩]⟩,
  ⟨0x100, 0x10, 16, .single, [⟨31, 31, .rws, 0⟩, ⟨30, 30, .rws, 0⟩, ⟨29, 29, .rws, 0⟩, ⟨27, 24, .rws, 0⟩, ⟨22, 20, .rws, 0⟩, ⟨19, 19, .rws, 0⟩, ⟨18, 18, .rws, 0⟩, ⟨17, 17, .rws, 0⟩, ⟨16, 16, .rws, 0⟩, ⟨15, 12, .rws, 0⟩, ⟨7, 6, .rws, 0⟩, ⟨5, 4, .rws, 0⟩, ⟨3, 2, .rws, 0⟩, ⟨1, 0, .rws, 0⟩]⟩,
  ⟨0x104, 0x10, 16, .single, [⟨15, 0, .rws, 65535⟩]⟩,
  ⟨0x108, 0x10, 16, .single, [⟨31, 31, .ro, 0⟩, ⟨30, 30, .ro, 0⟩, ⟨29, 29, .ro, 0⟩, ⟨28, 25, .ro, 0⟩, ⟨24, 0, .ro, 0⟩]⟩]

/-- Registers of the SOLVER page (R214, 07_colour_solver.md). -/
def solverTable : List RegDef := [
  ⟨0x080, 0, 1, .single, [⟨31, 31, .rws, 0⟩, ⟨8, 0, .rws, 233⟩]⟩,
  ⟨0x084, 0, 1, .single, [⟨11, 0, .rws, 4095⟩]⟩,
  ⟨0x088, 0x4, 3, .single, [⟨11, 0, .rws, 4095⟩]⟩,
  ⟨0x094, 0x4, 3, .single, [⟨11, 0, .rws, 4095⟩]⟩,
  ⟨0x0A0, 0, 1, .single, [⟨31, 31, .ro, 0⟩, ⟨30, 30, .ro, 0⟩, ⟨29, 29, .ro, 0⟩, ⟨25, 24, .ro, 0⟩]⟩,
  ⟨0x0A4, 0, 1, .single, [⟨31, 0, .ro, 0⟩]⟩,
  ⟨0x0A8, 0, 1, .single, [⟨24, 0, .ro, 0⟩]⟩,
  ⟨0x0AC, 0, 1, .single, [⟨31, 0, .ro, 0⟩]⟩,
  ⟨0x0B0, 0, 1, .single, [⟨24, 0, .ro, 0⟩]⟩,
  ⟨0x0B4, 0, 1, .single, [⟨24, 0, .ro, 0⟩]⟩,
  ⟨0x0B8, 0, 1, .single, [⟨23, 0, .ro, 0⟩]⟩,
  ⟨0x0BC, 0, 1, .single, [⟨15, 0, .ro, 0⟩]⟩,
  ⟨0x0C0, 0, 1, .lo, [⟨31, 0, .rc, 0⟩]⟩,
  ⟨0x0C4, 0, 1, .hi, [⟨31, 0, .rc, 0⟩]⟩,
  ⟨0x0C8, 0, 1, .single, [⟨31, 0, .rc, 0⟩]⟩,
  ⟨0x0CC, 0, 1, .single, [⟨31, 0, .rc, 0⟩]⟩,
  ⟨0x0D0, 0, 1, .single, [⟨31, 0, .rc, 0⟩]⟩,
  ⟨0x0D4, 0, 1, .single, [⟨31, 0, .rc, 0⟩]⟩,
  ⟨0x0D8, 0, 1, .single, [⟨31, 0, .rc, 0⟩]⟩,
  ⟨0x0DC, 0, 1, .single, [⟨31, 0, .rc, 0⟩]⟩,
  ⟨0x0E0, 0, 1, .single, [⟨31, 0, .rc, 0⟩]⟩,
  ⟨0x0E4, 0, 1, .single, [⟨31, 0, .rc, 0⟩]⟩,
  ⟨0x0E8, 0, 1, .single, [⟨31, 0, .rc, 0⟩]⟩,
  ⟨0x0EC, 0, 1, .single, [⟨31, 0, .rc, 0⟩]⟩,
  ⟨0x0F0, 0, 1, .single, [⟨31, 28, .ro, 0⟩, ⟨15, 0, .ro, 0⟩]⟩,
  ⟨0x0F4, 0, 1, .single, [⟨17, 0, .ro, 0⟩]⟩]

/-- Registers of the CLOOP page (R215, 07_colour_solver.md). -/
def cloopTable : List RegDef := [
  ⟨0x080, 0, 1, .single, [⟨31, 31, .rws, 0⟩, ⟨21, 16, .rws, 10⟩, ⟨15, 0, .rws, 11878⟩]⟩,
  ⟨0x084, 0, 1, .single, [⟨11, 0, .rws, 4095⟩]⟩,
  ⟨0x088, 0, 1, .single, [⟨31, 28, .wo, 0⟩, ⟨17, 0, .wo, 0⟩]⟩,
  ⟨0x08C, 0, 1, .single, [⟨31, 31, .ro, 0⟩, ⟨16, 0, .ro, 0⟩]⟩,
  ⟨0x090, 0, 1, .single, [⟨31, 0, .rc, 0⟩]⟩,
  ⟨0x094, 0, 1, .single, [⟨31, 0, .rc, 0⟩]⟩,
  ⟨0x098, 0, 1, .single, [⟨31, 0, .rc, 0⟩]⟩,
  ⟨0x09C, 0, 1, .single, [⟨31, 0, .rc, 0⟩]⟩,
  ⟨0x0A0, 0, 1, .single, [⟨31, 0, .rc, 0⟩]⟩,
  ⟨0x0A4, 0, 1, .single, [⟨31, 0, .rc, 0⟩]⟩,
  ⟨0x0A8, 0, 1, .single, [⟨20, 0, .ro, 0⟩]⟩,
  ⟨0x0AC, 0, 1, .single, [⟨31, 28, .ro, 0⟩, ⟨17, 0, .ro, 0⟩]⟩]

/-- Registers of the SCAN page (R247, R248, 08_scanout_latch.md). -/
def scanTable : List RegDef := [
  ⟨0x080, 0, 1, .single, [⟨31, 31, .rws, 0⟩, ⟨30, 30, .rws, 0⟩, ⟨29, 29, .rws, 0⟩, ⟨28, 28, .rws, 0⟩, ⟨27, 27, .rws, 0⟩, ⟨15, 8, .rws, 224⟩, ⟨7, 0, .rws, 240⟩]⟩,
  ⟨0x084, 0, 1, .single, [⟨11, 0, .rws, 4095⟩]⟩,
  ⟨0x088, 0, 1, .single, [⟨31, 0, .rws, 16666667⟩]⟩,
  ⟨0x08C, 0, 1, .single, [⟨31, 0, .rws, 0⟩]⟩,
  ⟨0x090, 0, 1, .single, [⟨31, 0, .rws, 34000000⟩]⟩,
  ⟨0x094, 0, 1, .single, [⟨31, 0, .ro, 0⟩]⟩,
  ⟨0x098, 0, 1, .single, [⟨27, 16, .rwi, 4095⟩, ⟨11, 0, .rwi, 4095⟩]⟩,
  ⟨0x09C, 0, 1, .single, [⟨31, 0, .ro, 0⟩]⟩,
  ⟨0x0A0, 0, 1, .single, [⟨27, 16, .ro, 4095⟩, ⟨11, 0, .ro, 4095⟩]⟩,
  ⟨0x0A4, 0, 1, .single, [⟨31, 31, .ro, 0⟩, ⟨30, 30, .ro, 0⟩, ⟨29, 29, .ro, 0⟩, ⟨28, 28, .ro, 0⟩, ⟨25, 24, .ro, 0⟩]⟩,
  ⟨0x0A8, 0, 1, .single, [⟨31, 0, .ro, 0⟩]⟩,
  ⟨0x0AC, 0, 1, .single, [⟨31, 0, .ro, 0⟩]⟩,
  ⟨0x0B0, 0, 1, .lo, [⟨31, 0, .ro, 0⟩]⟩,
  ⟨0x0B4, 0, 1, .hi, [⟨31, 0, .ro, 0⟩]⟩,
  ⟨0x0B8, 0, 1, .single, [⟨29, 0, .ro, 0⟩]⟩,
  ⟨0x0C0, 0, 1, .lo, [⟨31, 0, .rc, 0⟩]⟩,
  ⟨0x0C4, 0, 1, .hi, [⟨31, 0, .rc, 0⟩]⟩,
  ⟨0x0C8, 0, 1, .single, [⟨31, 0, .rc, 0⟩]⟩,
  ⟨0x0CC, 0, 1, .single, [⟨31, 0, .rc, 0⟩]⟩,
  ⟨0x0D0, 0, 1, .single, [⟨31, 0, .rc, 0⟩]⟩,
  ⟨0x0D4, 0, 1, .single, [⟨31, 0, .rc, 0⟩]⟩,
  ⟨0x0D8, 0, 1, .single, [⟨31, 0, .rc, 0⟩]⟩,
  ⟨0x0DC, 0, 1, .single, [⟨31, 0, .rc, 0⟩]⟩,
  ⟨0x0E0, 0, 1, .single, [⟨31, 0, .rc, 0⟩]⟩,
  ⟨0x200, 0x20, 8, .single, [⟨12, 0, .rws, 0⟩]⟩,
  ⟨0x204, 0x20, 8, .single, [⟨15, 0, .rws, 0⟩]⟩,
  ⟨0x208, 0x20, 8, .single, [⟨12, 0, .ro, 0⟩]⟩,
  ⟨0x20C, 0x20, 8, .single, [⟨31, 31, .ro, 0⟩, ⟨23, 0, .ro, 0⟩]⟩,
  ⟨0x210, 0x20, 8, .single, [⟨15, 0, .ro, 0⟩]⟩,
  ⟨0x214, 0x20, 8, .single, [⟨31, 0, .rc, 0⟩]⟩,
  ⟨0x218, 0x20, 8, .single, [⟨31, 0, .rc, 0⟩]⟩,
  ⟨0x21C, 0x20, 8, .single, [⟨31, 0, .rc, 0⟩]⟩]

/-- Registers of the SCAN0 page (R249, 08_scanout_latch.md). -/
def scan0Table : List RegDef := [
  ⟨0x800, 0, 1, .single, [⟨31, 0, .rws, 34000000⟩]⟩,
  ⟨0x804, 0, 1, .single, [⟨31, 0, .ro, 0⟩]⟩,
  ⟨0x808, 0, 1, .single, [⟨13, 0, .rws, 100⟩]⟩,
  ⟨0x80C, 0, 1, .single, [⟨29, 24, .ro, 0⟩, ⟨23, 0, .ro, 0⟩]⟩]

/-- Registers of the TUIPER page (R296, 09_tuiper_link.md). -/
def tuiperTable : List RegDef := [
  ⟨0x080, 0, 1, .single, [⟨31, 31, .rws, 0⟩, ⟨30, 30, .rws, 0⟩, ⟨29, 29, .rws, 0⟩, ⟨27, 16, .rws, 0⟩, ⟨15, 0, .rws, 34997⟩]⟩,
  ⟨0x084, 0, 1, .single, [⟨15, 0, .rws, 875⟩]⟩,
  ⟨0x088, 0, 1, .single, [⟨23, 0, .rws, 4587520⟩]⟩,
  ⟨0x08C, 0, 1, .single, [⟨31, 0, .rws, 4016784896⟩]⟩,
  ⟨0x090, 0, 1, .single, [⟨23, 16, .rws, 8⟩, ⟨15, 0, .rws, 47400⟩]⟩,
  ⟨0x094, 0, 1, .single, [⟨13, 0, .rws, 1472⟩]⟩,
  ⟨0x098, 0, 1, .single, [⟨15, 0, .rws, 2000⟩]⟩,
  ⟨0x09C, 0, 1, .single, [⟨31, 16, .rws, 240⟩, ⟨3, 0, .rws, 3⟩]⟩,
  ⟨0x0A0, 0, 1, .single, [⟨15, 0, .rws, 500⟩]⟩,
  ⟨0x0A4, 0, 1, .single, [⟨11, 0, .rws, 4095⟩]⟩,
  ⟨0x0A8, 0, 1, .single, [⟨31, 31, .rws, 0⟩, ⟨27, 24, .rws, 0⟩, ⟨3, 0, .rws, 0⟩]⟩,
  ⟨0x0AC, 0, 1, .single, [⟨15, 0, .ro, 0⟩]⟩,
  ⟨0x0B0, 0, 1, .single, [⟨31, 28, .wo, 0⟩, ⟨21, 16, .wo, 0⟩, ⟨8, 0, .wo, 0⟩]⟩,
  ⟨0x0B4, 0, 1, .single, [⟨31, 31, .ro, 0⟩, ⟨30, 28, .ro, 0⟩]⟩,
  ⟨0x0B8, 0, 1, .single, [⟨31, 31, .rc, 0⟩, ⟨26, 24, .rc, 0⟩, ⟨23, 21, .rc, 0⟩, ⟨17, 0, .rc, 0⟩]⟩,
  ⟨0x0BC, 0, 1, .single, [⟨15, 0, .rc, 0⟩]⟩,
  ⟨0x0C0, 0, 1, .single, [⟨31, 0, .rc, 0⟩]⟩,
  ⟨0x0C4, 0, 1, .single, [⟨31, 0, .rc, 0⟩]⟩,
  ⟨0x0C8, 0, 1, .single, [⟨31, 0, .rc, 0⟩]⟩,
  ⟨0x0CC, 0, 1, .lo, [⟨31, 0, .rc, 0⟩]⟩,
  ⟨0x0D0, 0, 1, .hi, [⟨31, 0, .rc, 0⟩]⟩,
  ⟨0x0D4, 0, 1, .single, [⟨31, 0, .rc, 0⟩]⟩,
  ⟨0x0D8, 0, 1, .single, [⟨31, 0, .rc, 0⟩]⟩,
  ⟨0x0DC, 0, 1, .single, [⟨31, 0, .rc, 0⟩]⟩,
  ⟨0x0E0, 0, 1, .single, [⟨18, 0, .ro, 0⟩]⟩,
  ⟨0x0E4, 0, 1, .single, [⟨31, 0, .rc, 0⟩]⟩,
  ⟨0x400, 0x4, 256, .single, [⟨31, 0, .rwi, 0⟩]⟩]

/-- Registers of the SETS page (R297, 09_tuiper_link.md). -/
def setsTable : List RegDef := [
  ⟨0x080, 0, 1, .single, [⟨31, 31, .rws, 0⟩]⟩,
  ⟨0x084, 0, 1, .single, [⟨11, 0, .rws, 4095⟩]⟩,
  ⟨0x088, 0, 1, .single, [⟨11, 0, .rws, 4095⟩]⟩,
  ⟨0x08C, 0, 1, .single, [⟨31, 31, .ro, 0⟩, ⟨30, 12, .ro, 0⟩, ⟨11, 0, .ro, 0⟩]⟩,
  ⟨0x090, 0, 1, .single, [⟨31, 28, .wo, 0⟩, ⟨11, 0, .wo, 0⟩]⟩,
  ⟨0x094, 0, 1, .single, [⟨31, 28, .ro, 0⟩, ⟨26, 24, .ro, 0⟩, ⟨23, 20, .ro, 0⟩, ⟨15, 0, .ro, 0⟩]⟩,
  ⟨0x098, 0, 1, .single, [⟨17, 0, .ro, 0⟩]⟩,
  ⟨0x09C, 0, 1, .single, [⟨12, 0, .ro, 0⟩]⟩,
  ⟨0x0A0, 0, 1, .single, [⟨31, 31, .rc, 0⟩, ⟨30, 28, .rc, 0⟩, ⟨27, 12, .rc, 0⟩, ⟨11, 0, .rc, 0⟩]⟩,
  ⟨0x0A4, 0, 1, .single, [⟨15, 0, .rc, 0⟩]⟩,
  ⟨0x0A8, 0, 1, .single, [⟨31, 0, .rc, 0⟩]⟩]

/-- Registers of the PORT page (R329, 10_ports.md). -/
def portTable : List RegDef :=
  [⟨0x080, 0, 1, .single, [⟨31, 31, .rws, 0⟩, ⟨30, 30, .rws, 0⟩, ⟨29, 29, .rws, 0⟩, ⟨28, 28, .rws, 1⟩, ⟨27, 27, .rws, 0⟩, ⟨26, 26, .rws, 0⟩, ⟨23, 20, .rws, 0⟩, ⟨13, 0, .rws, 1522⟩]⟩,
  ⟨0x084, 0, 1, .single, [⟨31, 30, .rws, 0⟩, ⟨27, 24, .rws, 15⟩]⟩,
  ⟨0x088, 0, 1, .lo, [⟨31, 0, .rws, 0⟩]⟩,
  ⟨0x08C, 0, 1, .hi, [⟨15, 0, .rws, 0⟩]⟩,
  ⟨0x090, 0x8, 16, .single, [⟨31, 0, .rws, 0⟩]⟩,
  ⟨0x094, 0x8, 16, .single, [⟨31, 31, .rws, 0⟩, ⟨15, 0, .rws, 0⟩]⟩,
  ⟨0x110, 0x4, 16, .single, [⟨31, 0, .rws, 0⟩]⟩,
  ⟨0x150, 0, 1, .single, [⟨31, 16, .rws, 65535⟩, ⟨15, 0, .rws, 0⟩]⟩,
  ⟨0x154, 0, 1, .single, [⟨31, 31, .ro, 0⟩, ⟨30, 30, .ro, 0⟩, ⟨29, 29, .ro, 0⟩, ⟨27, 24, .ro, 0⟩]⟩,
  ⟨0x158, 0, 1, .single, [⟨31, 0, .rws, 0⟩]⟩,
  ⟨0x15C, 0, 1, .single, [⟨5, 0, .rws, 24⟩]⟩,
  ⟨0x160, 0, 1, .single, [⟨31, 0, .rws, 0⟩]⟩,
  ⟨0x180, 0, 1, .lo, [⟨31, 0, .rc, 0⟩]⟩,
  ⟨0x184, 0, 1, .hi, [⟨31, 0, .rc, 0⟩]⟩,
  ⟨0x188, 0, 1, .lo, [⟨31, 0, .rc, 0⟩]⟩,
  ⟨0x18C, 0, 1, .hi, [⟨31, 0, .rc, 0⟩]⟩,
  ⟨0x190, 0, 1, .lo, [⟨31, 0, .rc, 0⟩]⟩,
  ⟨0x194, 0, 1, .hi, [⟨31, 0, .rc, 0⟩]⟩,
  ⟨0x198, 0, 1, .lo, [⟨31, 0, .rc, 0⟩]⟩,
  ⟨0x19C, 0, 1, .hi, [⟨31, 0, .rc, 0⟩]⟩,
  ⟨0x1A0, 0, 1, .lo, [⟨31, 0, .rc, 0⟩]⟩,
  ⟨0x1A4, 0, 1, .hi, [⟨31, 0, .rc, 0⟩]⟩,
  ⟨0x1A8, 0, 1, .lo, [⟨31, 0, .rc, 0⟩]⟩,
  ⟨0x1AC, 0, 1, .hi, [⟨31, 0, .rc, 0⟩]⟩,
  ⟨0x1B0, 0, 1, .lo, [⟨31, 0, .rc, 0⟩]⟩,
  ⟨0x1B4, 0, 1, .hi, [⟨31, 0, .rc, 0⟩]⟩,
  ⟨0x1B8, 0, 1, .lo, [⟨31, 0, .rc, 0⟩]⟩,
  ⟨0x1BC, 0, 1, .hi, [⟨31, 0, .rc, 0⟩]⟩,
  ⟨0x1C0, 0, 1, .lo, [⟨31, 0, .rc, 0⟩]⟩,
  ⟨0x1C4, 0, 1, .hi, [⟨31, 0, .rc, 0⟩]⟩,
  ⟨0x1C8, 0, 1, .lo, [⟨31, 0, .rc, 0⟩]⟩,
  ⟨0x1CC, 0, 1, .hi, [⟨31, 0, .rc, 0⟩]⟩,
  ⟨0x1D0, 0, 1, .lo, [⟨31, 0, .rc, 0⟩]⟩,
  ⟨0x1D4, 0, 1, .hi, [⟨31, 0, .rc, 0⟩]⟩,
  ⟨0x1D8, 0, 1, .lo, [⟨31, 0, .rc, 0⟩]⟩,
  ⟨0x1DC, 0, 1, .hi, [⟨31, 0, .rc, 0⟩]⟩,
  ⟨0x1E0, 0, 1, .lo, [⟨31, 0, .rc, 0⟩]⟩,
  ⟨0x1E4, 0, 1, .hi, [⟨31, 0, .rc, 0⟩]⟩,
  ⟨0x1E8, 0, 1, .lo, [⟨31, 0, .rc, 0⟩]⟩,
  ⟨0x1EC, 0, 1, .hi, [⟨31, 0, .rc, 0⟩]⟩] ++
  [⟨0x1F0, 0, 1, .lo, [⟨31, 0, .rc, 0⟩]⟩,
  ⟨0x1F4, 0, 1, .hi, [⟨31, 0, .rc, 0⟩]⟩,
  ⟨0x1F8, 0, 1, .lo, [⟨31, 0, .rc, 0⟩]⟩,
  ⟨0x1FC, 0, 1, .hi, [⟨31, 0, .rc, 0⟩]⟩,
  ⟨0x200, 0, 1, .lo, [⟨31, 0, .rc, 0⟩]⟩,
  ⟨0x204, 0, 1, .hi, [⟨31, 0, .rc, 0⟩]⟩]

/-- Registers of the FLX page (R330, 10_ports.md). -/
def flExtraTable : List RegDef := [
  ⟨0x280, 0, 1, .single, [⟨31, 31, .rws, 0⟩, ⟨30, 30, .rws, 0⟩, ⟨25, 24, .rws, 0⟩, ⟨7, 0, .rws, 10⟩]⟩,
  ⟨0x284, 0, 1, .single, [⟨31, 31, .ro, 0⟩, ⟨2, 0, .ro, 0⟩]⟩,
  ⟨0x288, 0, 1, .lo, [⟨31, 0, .rc, 0⟩]⟩,
  ⟨0x28C, 0, 1, .hi, [⟨31, 0, .rc, 0⟩]⟩,
  ⟨0x290, 0, 1, .lo, [⟨31, 0, .rc, 0⟩]⟩,
  ⟨0x294, 0, 1, .hi, [⟨31, 0, .rc, 0⟩]⟩,
  ⟨0x298, 0, 1, .single, [⟨31, 31, .rws, 0⟩, ⟨27, 24, .rws, 1⟩, ⟨15, 0, .rws, 480⟩]⟩,
  ⟨0x29C, 0, 1, .single, [⟨31, 16, .ro, 0⟩, ⟨13, 12, .ro, 0⟩, ⟨11, 11, .ro, 0⟩, ⟨7, 4, .ro, 0⟩]⟩,
  ⟨0x2A0, 0, 1, .single, [⟨20, 0, .ro, 0⟩]⟩,
  ⟨0x2A4, 0, 1, .single, [⟨31, 0, .rc, 0⟩]⟩,
  ⟨0x2A8, 0, 1, .single, [⟨31, 0, .rc, 0⟩]⟩,
  ⟨0x2AC, 0, 1, .single, [⟨31, 0, .rc, 0⟩]⟩]

/-- Registers of the Q page (R331, 10_ports.md). -/
def qTable : List RegDef := [
  ⟨0x080, 0, 1, .single, [⟨31, 31, .rws, 0⟩, ⟨30, 30, .rws, 0⟩]⟩,
  ⟨0x084, 0, 1, .single, [⟨11, 0, .rws, 4095⟩]⟩,
  ⟨0x088, 0, 1, .single, [⟨25, 0, .rws, 96⟩]⟩,
  ⟨0x08C, 0, 1, .single, [⟨25, 0, .rws, 32⟩]⟩,
  ⟨0x090, 0, 1, .single, [⟨25, 0, .ro, 0⟩]⟩,
  ⟨0x094, 0, 1, .single, [⟨24, 0, .ro, 0⟩]⟩,
  ⟨0x098, 0, 1, .single, [⟨31, 0, .rc, 0⟩]⟩,
  ⟨0x09C, 0, 1, .single, [⟨31, 0, .ro, 0⟩]⟩,
  ⟨0x0A0, 0, 1, .single, [⟨31, 31, .ro, 0⟩, ⟨30, 30, .ro, 0⟩, ⟨29, 29, .ro, 0⟩, ⟨28, 28, .ro, 0⟩, ⟨27, 27, .ro, 0⟩]⟩,
  ⟨0x0A4, 0, 1, .single, [⟨3, 0, .wo, 0⟩]⟩,
  ⟨0x0A8, 0, 1, .single, [⟨31, 28, .ro, 0⟩, ⟨25, 0, .ro, 0⟩]⟩,
  ⟨0x0AC, 0, 1, .single, [⟨31, 0, .rc, 0⟩]⟩,
  ⟨0x0B0, 0, 1, .single, [⟨31, 0, .rc, 0⟩]⟩,
  ⟨0x0B4, 0, 1, .single, [⟨31, 0, .rc, 0⟩]⟩]

/-- Registers of the DMX page (R332, 10_ports.md). -/
def dmxTable : List RegDef := [
  ⟨0x084, 0, 1, .single, [⟨31, 28, .wo, 0⟩, ⟨19, 16, .wo, 0⟩, ⟨8, 0, .wo, 0⟩]⟩,
  ⟨0x088, 0, 1, .single, [⟨31, 31, .ro, 0⟩, ⟨30, 28, .ro, 0⟩]⟩,
  ⟨0x800, 0x4, 64, .single, [⟨31, 0, .rwi, 0⟩]⟩,
  ⟨0x100, 0x40, 16, .single, [⟨31, 31, .rws, 0⟩, ⟨30, 29, .rws, 0⟩, ⟨28, 28, .rws, 0⟩, ⟨27, 27, .rws, 0⟩, ⟨26, 24, .rws, 1⟩, ⟨23, 23, .rws, 0⟩, ⟨19, 16, .rws, 0⟩, ⟨9, 0, .rws, 512⟩]⟩,
  ⟨0x104, 0x40, 16, .single, [⟨23, 0, .rws, 0⟩]⟩,
  ⟨0x108, 0x40, 16, .single, [⟨31, 16, .rws, 25000⟩, ⟨15, 8, .rws, 176⟩, ⟨7, 0, .rws, 16⟩]⟩,
  ⟨0x10C, 0x40, 16, .single, [⟨31, 16, .rws, 500⟩, ⟨9, 0, .rws, 250⟩]⟩,
  ⟨0x110, 0x40, 16, .single, [⟨31, 16, .rws, 60⟩, ⟨15, 0, .rws, 2500⟩]⟩,
  ⟨0x114, 0x40, 16, .single, [⟨17, 16, .rws, 0⟩, ⟨7, 0, .rws, 0⟩]⟩,
  ⟨0x118, 0x40, 16, .single, [⟨31, 31, .ro, 0⟩, ⟨30, 30, .ro, 0⟩, ⟨29, 29, .ro, 0⟩, ⟨9, 0, .ro, 0⟩]⟩,
  ⟨0x11C, 0x40, 16, .single, [⟨31, 0, .rc, 0⟩]⟩,
  ⟨0x120, 0x40, 16, .single, [⟨31, 0, .rc, 0⟩]⟩,
  ⟨0x124, 0x40, 16, .single, [⟨31, 0, .rc, 0⟩]⟩,
  ⟨0x128, 0x40, 16, .single, [⟨31, 0, .ro, 0⟩]⟩,
  ⟨0x080, 0, 1, .single, [⟨15, 0, .ro, 0⟩]⟩]

/-- Registers of the TIME page (R358, 11_time.md). -/
def timeTable : List RegDef := [
  ⟨0x080, 0, 1, .single, [⟨31, 31, .rws, 0⟩, ⟨30, 30, .rws, 0⟩]⟩,
  ⟨0x084, 0, 1, .single, [⟨31, 16, .rws, 3277⟩, ⟨15, 0, .rws, 32768⟩]⟩,
  ⟨0x088, 0, 1, .single, [⟨17, 0, .rws, 200000⟩]⟩,
  ⟨0x08C, 0, 1, .single, [⟨31, 16, .rws, 100⟩, ⟨15, 0, .rws, 1000⟩]⟩,
  ⟨0x090, 0, 1, .single, [⟨31, 29, .ro, 0⟩, ⟨28, 28, .ro, 0⟩, ⟨27, 27, .ro, 1⟩]⟩,
  ⟨0x094, 0, 1, .single, [⟨31, 0, .ro, 0⟩]⟩,
  ⟨0x098, 0, 1, .single, [⟨31, 0, .ro, 0⟩]⟩,
  ⟨0x0A0, 0, 1, .lo, [⟨31, 0, .ro, 0⟩]⟩,
  ⟨0x0A4, 0, 1, .hi, [⟨3, 0, .ro, 4⟩]⟩,
  ⟨0x0A8, 0, 1, .single, [⟨0, 0, .w1s, 0⟩]⟩,
  ⟨0x0B0, 0, 1, .lo, [⟨31, 0, .ro, 0⟩]⟩,
  ⟨0x0B4, 0, 1, .hi, [⟨31, 0, .ro, 0⟩]⟩,
  ⟨0x0B8, 0, 1, .single, [⟨29, 0, .ro, 0⟩]⟩,
  ⟨0x0BC, 0, 1, .single, [⟨31, 0, .ro, 0⟩]⟩,
  ⟨0x0C0, 0, 1, .lo, [⟨31, 0, .ro, 0⟩]⟩,
  ⟨0x0C4, 0, 1, .hi, [⟨31, 0, .ro, 0⟩]⟩,
  ⟨0x0C8, 0, 1, .single, [⟨29, 0, .ro, 0⟩]⟩,
  ⟨0x0CC, 0, 1, .single, [⟨31, 0, .ro, 0⟩]⟩,
  ⟨0x0D0, 0, 1, .single, [⟨31, 0, .rc, 0⟩]⟩,
  ⟨0x100, 0, 1, .single, [⟨31, 28, .rws, 3⟩, ⟨23, 16, .rws, 128⟩, ⟨7, 0, .rws, 10⟩]⟩,
  ⟨0x104, 0, 1, .single, [⟨15, 0, .rws, 2000⟩]⟩,
  ⟨0x108, 0, 1, .single, [⟨11, 0, .rws, 4095⟩]⟩,
  ⟨0x10C, 0, 1, .single, [⟨31, 0, .rc, 0⟩]⟩,
  ⟨0x110, 0, 1, .single, [⟨31, 0, .rc, 0⟩]⟩,
  ⟨0x114, 0, 1, .single, [⟨31, 0, .rc, 0⟩]⟩,
  ⟨0x118, 0, 1, .single, [⟨31, 0, .rc, 0⟩]⟩,
  ⟨0x180, 0, 1, .single, [⟨6, 0, .rwi, 0⟩]⟩,
  ⟨0x184, 0, 1, .single, [⟨6, 0, .ro, 0⟩]⟩,
  ⟨0x188, 0, 1, .single, [⟨31, 31, .rc, 0⟩, ⟨15, 0, .rc, 0⟩]⟩,
  ⟨0x18C, 0, 1, .single, [⟨31, 0, .ro, 0⟩]⟩,
  ⟨0x190, 0, 1, .single, [⟨29, 0, .ro, 0⟩]⟩]

/-- Registers of the PTP page (R359, 11_time.md). -/
def ptpTable : List RegDef := [
  ⟨0x080, 0, 1, .single, [⟨29, 28, .rws, 2⟩, ⟨15, 0, .rws, 60⟩]⟩,
  ⟨0x084, 0, 1, .single, [⟨31, 31, .ro, 1⟩, ⟨30, 30, .ro, 0⟩]⟩,
  ⟨0x088, 0, 1, .single, [⟨31, 0, .rc, 0⟩]⟩,
  ⟨0x08C, 0, 1, .single, [⟨31, 0, .ro, 0⟩]⟩,
  ⟨0x100, 0x80, 2, .single, [⟨31, 31, .rws, 0⟩, ⟨30, 29, .rws, 0⟩, ⟨28, 28, .rws, 0⟩, ⟨22, 16, .rws, 0⟩, ⟨15, 8, .rws, 3⟩, ⟨7, 0, .rws, 0⟩]⟩,
  ⟨0x104, 0x80, 2, .single, [⟨31, 29, .ro, 0⟩, ⟨22, 16, .ro, 0⟩]⟩,
  ⟨0x108, 0x80, 2, .lo, [⟨31, 0, .ro, 0⟩]⟩,
  ⟨0x10C, 0x80, 2, .hi, [⟨31, 0, .ro, 0⟩]⟩,
  ⟨0x110, 0x80, 2, .lo, [⟨31, 0, .ro, 0⟩]⟩,
  ⟨0x114, 0x80, 2, .hi, [⟨31, 0, .ro, 0⟩]⟩,
  ⟨0x118, 0x80, 2, .lo, [⟨31, 0, .ro, 0⟩]⟩,
  ⟨0x11C, 0x80, 2, .hi, [⟨31, 0, .ro, 0⟩]⟩,
  ⟨0x120, 0x80, 2, .single, [⟨31, 0, .ro, 0⟩]⟩,
  ⟨0x124, 0x80, 2, .single, [⟨31, 0, .ro, 0⟩]⟩,
  ⟨0x128, 0x80, 2, .single, [⟨31, 0, .rc, 0⟩]⟩,
  ⟨0x12C, 0x80, 2, .single, [⟨31, 0, .rc, 0⟩]⟩,
  ⟨0x130, 0x80, 2, .single, [⟨31, 0, .rc, 0⟩]⟩,
  ⟨0x134, 0x80, 2, .single, [⟨31, 0, .rc, 0⟩]⟩]

/-- Registers of the TRIG page (R360, 11_time.md). -/
def trigTable : List RegDef := [
  ⟨0x100, 0x20, 16, .single, [⟨31, 29, .rws, 0⟩, ⟨28, 28, .rws, 0⟩]⟩,
  ⟨0x104, 0x20, 16, .lo, [⟨31, 0, .rws, 0⟩]⟩,
  ⟨0x108, 0x20, 16, .hi, [⟨31, 0, .rws, 0⟩]⟩,
  ⟨0x10C, 0x20, 16, .single, [⟨29, 0, .rws, 0⟩]⟩,
  ⟨0x110, 0x20, 16, .single, [⟨31, 0, .rws, 1000000⟩]⟩,
  ⟨0x114, 0x20, 16, .single, [⟨31, 0, .rws, 0⟩]⟩,
  ⟨0x118, 0x20, 16, .single, [⟨29, 0, .rws, 1000⟩]⟩,
  ⟨0x11C, 0x20, 16, .single, [⟨31, 0, .rws, 0⟩]⟩,
  ⟨0x400, 0x20, 8, .single, [⟨31, 31, .rws, 0⟩, ⟨29, 28, .rws, 1⟩, ⟨9, 0, .rws, 20⟩]⟩,
  ⟨0x404, 0x20, 8, .single, [⟨31, 31, .rc, 0⟩, ⟨30, 30, .rc, 0⟩]⟩,
  ⟨0x408, 0x20, 8, .lo, [⟨31, 0, .ro, 0⟩]⟩,
  ⟨0x40C, 0x20, 8, .hi, [⟨31, 0, .ro, 0⟩]⟩,
  ⟨0x410, 0x20, 8, .single, [⟨29, 0, .ro, 0⟩]⟩,
  ⟨0x414, 0x20, 8, .single, [⟨31, 0, .rc, 0⟩]⟩,
  ⟨0x080, 0, 1, .single, [⟨15, 0, .ro, 0⟩]⟩,
  ⟨0x084, 0, 1, .single, [⟨31, 0, .rc, 0⟩]⟩]

/-- Registers of the SYNC page (R361, 11_time.md). -/
def syncTable : List RegDef := [
  ⟨0x080, 0, 1, .single, [⟨31, 30, .rws, 0⟩]⟩,
  ⟨0x084, 0, 1, .single, [⟨31, 12, .rws, 60⟩, ⟨11, 0, .rws, 1⟩]⟩,
  ⟨0x088, 0, 1, .single, [⟨31, 0, .rws, 0⟩]⟩,
  ⟨0x08C, 0, 1, .single, [⟨19, 0, .rws, 10000⟩]⟩,
  ⟨0x090, 0, 1, .single, [⟨31, 31, .ro, 0⟩, ⟨30, 30, .ro, 0⟩, ⟨29, 28, .ro, 0⟩, ⟨27, 27, .ro, 0⟩]⟩,
  ⟨0x094, 0, 1, .single, [⟨29, 0, .ro, 0⟩]⟩,
  ⟨0x098, 0, 1, .lo, [⟨31, 0, .ro, 0⟩]⟩,
  ⟨0x09C, 0, 1, .hi, [⟨31, 0, .ro, 0⟩]⟩,
  ⟨0x0A0, 0, 1, .single, [⟨31, 0, .ro, 0⟩]⟩,
  ⟨0x0C0, 0, 1, .single, [⟨31, 31, .rws, 0⟩, ⟨25, 16, .rws, 100⟩, ⟨15, 0, .rws, 1000⟩]⟩,
  ⟨0x0C4, 0, 1, .single, [⟨29, 0, .rws, 200⟩]⟩,
  ⟨0x0C8, 0, 1, .single, [⟨17, 16, .rws, 0⟩, ⟨15, 0, .rws, 2500⟩]⟩,
  ⟨0x0CC, 0, 1, .single, [⟨31, 31, .ro, 0⟩, ⟨30, 30, .ro, 0⟩, ⟨29, 0, .ro, 0⟩]⟩,
  ⟨0x0D0, 0, 1, .single, [⟨31, 0, .rc, 0⟩]⟩,
  ⟨0x0D4, 0, 1, .single, [⟨31, 0, .rc, 0⟩]⟩,
  ⟨0x100, 0, 1, .single, [⟨31, 31, .rws, 0⟩, ⟨30, 30, .rws, 0⟩, ⟨27, 24, .rws, 4⟩, ⟨13, 0, .rws, 1000⟩]⟩,
  ⟨0x104, 0, 1, .single, [⟨17, 16, .rws, 0⟩, ⟨15, 0, .rws, 2500⟩]⟩,
  ⟨0x108, 0, 1, .single, [⟨31, 0, .ro, 0⟩]⟩,
  ⟨0x10C, 0, 1, .single, [⟨31, 0, .ro, 0⟩]⟩,
  ⟨0x110, 0, 1, .single, [⟨31, 31, .ro, 0⟩, ⟨30, 30, .ro, 0⟩, ⟨29, 29, .ro, 0⟩, ⟨28, 28, .ro, 0⟩, ⟨25, 24, .ro, 0⟩]⟩,
  ⟨0x114, 0, 1, .single, [⟨31, 0, .rc, 0⟩]⟩,
  ⟨0x118, 0, 1, .single, [⟨31, 0, .rc, 0⟩]⟩,
  ⟨0x11C, 0, 1, .single, [⟨31, 0, .rc, 0⟩]⟩,
  ⟨0x120, 0, 1, .single, [⟨31, 0, .rc, 0⟩]⟩]

/-- Registers of the TWIN page (R384, 12_twin.md). -/
def twinTable : List RegDef := [
  ⟨0x080, 0, 1, .single, [⟨31, 31, .rws, 0⟩, ⟨30, 30, .rws, 0⟩, ⟨15, 0, .rws, 0⟩]⟩,
  ⟨0x084, 0, 1, .single, [⟨15, 0, .rws, 240⟩]⟩,
  ⟨0x088, 0, 1, .single, [⟨31, 16, .rws, 5000⟩, ⟨7, 0, .rws, 20⟩]⟩,
  ⟨0x08C, 0, 1, .single, [⟨19, 16, .rws, 2⟩, ⟨15, 0, .rws, 2000⟩]⟩,
  ⟨0x090, 0, 1, .single, [⟨17, 16, .rws, 3⟩, ⟨15, 0, .rws, 34998⟩]⟩,
  ⟨0x094, 0, 1, .single, [⟨31, 28, .wo, 0⟩]⟩,
  ⟨0x098, 0, 1, .single, [⟨31, 31, .ro, 0⟩, ⟨30, 28, .ro, 0⟩, ⟨27, 27, .ro, 0⟩, ⟨26, 26, .ro, 0⟩, ⟨25, 24, .ro, 0⟩, ⟨23, 20, .ro, 0⟩, ⟨15, 0, .ro, 0⟩]⟩,
  ⟨0x09C, 0, 1, .single, [⟨31, 0, .ro, 0⟩]⟩,
  ⟨0x0A0, 0, 1, .single, [⟨31, 0, .ro, 0⟩]⟩,
  ⟨0x0A4, 0, 1, .single, [⟨31, 0, .ro, 0⟩]⟩,
  ⟨0x0A8, 0, 1, .single, [⟨24, 0, .ro, 0⟩]⟩,
  ⟨0x0AC, 0, 1, .single, [⟨15, 0, .ro, 0⟩]⟩,
  ⟨0x0B0, 0, 1, .lo, [⟨31, 0, .ro, 0⟩]⟩,
  ⟨0x0B4, 0, 1, .hi, [⟨31, 0, .ro, 0⟩]⟩,
  ⟨0x0B8, 0, 1, .lo, [⟨31, 0, .ro, 0⟩]⟩,
  ⟨0x0BC, 0, 1, .hi, [⟨31, 0, .ro, 0⟩]⟩,
  ⟨0x0C0, 0, 1, .single, [⟨31, 0, .rc, 0⟩]⟩,
  ⟨0x0C4, 0, 1, .single, [⟨31, 0, .rc, 0⟩]⟩,
  ⟨0x0C8, 0, 1, .single, [⟨31, 0, .rc, 0⟩]⟩,
  ⟨0x0CC, 0, 1, .single, [⟨31, 0, .rc, 0⟩]⟩,
  ⟨0x0D0, 0, 1, .single, [⟨31, 0, .rc, 0⟩]⟩,
  ⟨0x0D4, 0, 1, .single, [⟨31, 0, .rc, 0⟩]⟩,
  ⟨0x0D8, 0, 1, .single, [⟨31, 0, .rc, 0⟩]⟩,
  ⟨0x0DC, 0, 1, .single, [⟨31, 0, .rc, 0⟩]⟩]

/-- Registers of the LEHR page (R406, 13_thermal_calibration.md). -/
def lehrTable : List RegDef := [
  ⟨0x080, 0, 1, .single, [⟨31, 31, .rws, 1⟩, ⟨30, 30, .rws, 0⟩, ⟨29, 24, .rws, 32⟩, ⟨21, 16, .rws, 4⟩, ⟨13, 8, .rws, 2⟩, ⟨5, 0, .rws, 4⟩]⟩,
  ⟨0x084, 0, 1, .single, [⟨31, 24, .rws, 95⟩, ⟨23, 16, .rws, 100⟩, ⟨15, 8, .rws, 110⟩, ⟨3, 0, .rws, 3⟩]⟩,
  ⟨0x088, 0, 1, .single, [⟨31, 16, .rws, 1000⟩, ⟨11, 0, .rws, 20⟩]⟩,
  ⟨0x08C, 0, 1, .single, [⟨31, 31, .ro, 0⟩, ⟨30, 30, .ro, 0⟩, ⟨29, 29, .ro, 0⟩, ⟨27, 24, .ro, 0⟩, ⟨22, 20, .ro, 0⟩, ⟨13, 8, .ro, 0⟩, ⟨5, 0, .ro, 0⟩]⟩,
  ⟨0x090, 0, 1, .single, [⟨31, 16, .ro, 10000⟩, ⟨15, 0, .ro, 11000⟩]⟩,
  ⟨0x094, 0, 1, .single, [⟨31, 28, .wo, 0⟩, ⟨4, 0, .wo, 0⟩]⟩,
  ⟨0x098, 0, 1, .single, [⟨23, 0, .ro, 0⟩]⟩,
  ⟨0x09C, 0, 1, .single, [⟨20, 16, .ro, 0⟩, ⟨15, 0, .ro, 0⟩]⟩,
  ⟨0x0A0, 0, 1, .single, [⟨11, 0, .rws, 4095⟩]⟩,
  ⟨0x0A8, 0, 1, .lo, [⟨31, 0, .rc, 0⟩]⟩,
  ⟨0x0AC, 0, 1, .hi, [⟨31, 0, .rc, 0⟩]⟩,
  ⟨0x0B0, 0, 1, .single, [⟨18, 0, .ro, 0⟩]⟩,
  ⟨0x100, 0x10, 8, .single, [⟨31, 16, .ro, 0⟩, ⟨15, 0, .ro, 0⟩]⟩,
  ⟨0x104, 0x10, 8, .single, [⟨4, 0, .rws, 8⟩]⟩,
  ⟨0x108, 0x10, 8, .single, [⟨10, 8, .ro, 0⟩, ⟨5, 0, .ro, 0⟩]⟩,
  ⟨0x200, 0x4, 24, .single, [⟨31, 31, .ro, 0⟩, ⟨26, 24, .ro, 0⟩, ⟨23, 23, .ro, 0⟩, ⟨15, 0, .ro, 0⟩]⟩,
  ⟨0x300, 0x8, 16, .single, [⟨31, 31, .rws, 0⟩, ⟨23, 16, .rws, 70⟩, ⟨3, 0, .rws, 3⟩]⟩,
  ⟨0x304, 0x8, 16, .single, [⟨31, 16, .rws, 0⟩, ⟨15, 0, .rws, 1311⟩]⟩]

/-- Registers of the CAL page (R407, 13_thermal_calibration.md). -/
def calTable : List RegDef := [
  ⟨0x080, 0, 1, .single, [⟨31, 28, .wo, 0⟩, ⟨6, 0, .wo, 0⟩]⟩,
  ⟨0x084, 0, 1, .single, [⟨31, 31, .ro, 0⟩, ⟨30, 30, .ro, 0⟩, ⟨27, 24, .ro, 0⟩]⟩,
  ⟨0x088, 0, 1, .single, [⟨31, 31, .rws, 1⟩]⟩,
  ⟨0x08C, 0, 1, .single, [⟨31, 0, .rws, 0⟩]⟩,
  ⟨0x090, 0, 1, .single, [⟨31, 31, .ro, 0⟩, ⟨30, 30, .ro, 0⟩]⟩,
  ⟨0x094, 0, 1, .single, [⟨31, 0, .ro, 0⟩]⟩,
  ⟨0x098, 0, 1, .single, [⟨31, 0, .ro, 0⟩]⟩,
  ⟨0x09C, 0, 1, .single, [⟨21, 0, .ro, 0⟩]⟩,
  ⟨0x0A0, 0, 1, .single, [⟨12, 0, .rws, 500⟩]⟩,
  ⟨0x0A4, 0, 1, .single, [⟨31, 0, .ro, 0⟩]⟩,
  ⟨0x100, 0x4, 24, .single, [⟨31, 16, .ro, 0⟩, ⟨15, 0, .ro, 0⟩]⟩]

/-- Registers of the LANE page (R408, 13_thermal_calibration.md). -/
def laneTable : List RegDef := [
  ⟨0x080, 0, 1, .single, [⟨31, 31, .rws, 1⟩, ⟨30, 30, .rws, 1⟩]⟩,
  ⟨0x084, 0, 1, .single, [⟨31, 31, .ro, 0⟩, ⟨30, 30, .ro, 0⟩, ⟨29, 29, .ro, 0⟩, ⟨26, 24, .ro, 4⟩, ⟨17, 16, .ro, 2⟩]⟩,
  ⟨0x088, 0, 1, .single, [⟨19, 0, .ro, 65535⟩]⟩,
  ⟨0x08C, 0, 1, .single, [⟨19, 0, .ro, 0⟩]⟩,
  ⟨0x090, 0, 1, .single, [⟨13, 8, .ro, 0⟩, ⟨5, 0, .ro, 15⟩]⟩,
  ⟨0x094, 0, 1, .single, [⟨31, 31, .ro, 0⟩, ⟨25, 16, .ro, 0⟩, ⟨6, 0, .ro, 0⟩]⟩,
  ⟨0x098, 0, 1, .single, [⟨25, 16, .rws, 30⟩, ⟨6, 0, .rws, 16⟩]⟩,
  ⟨0x09C, 0, 1, .single, [⟨31, 0, .rc, 0⟩]⟩]

/-- Registers of the GAFFER page (R432, 14_start_update.md). -/
def gafferTable : List RegDef := [
  ⟨0x080, 0, 1, .single, [⟨31, 28, .ro, 0⟩, ⟨25, 24, .ro, 0⟩, ⟨23, 23, .ro, 0⟩]⟩,
  ⟨0x084, 0, 1, .single, [⟨31, 0, .ro, 0⟩]⟩,
  ⟨0x088, 0x4, 3, .single, [⟨31, 28, .ro, 0⟩]⟩,
  ⟨0x098, 0x4, 3, .single, [⟨31, 0, .ro, 0⟩]⟩,
  ⟨0x0A4, 0, 1, .single, [⟨31, 28, .ro, 0⟩, ⟨27, 24, .ro, 0⟩, ⟨10, 0, .ro, 0⟩]⟩,
  ⟨0x0A8, 0, 1, .single, [⟨31, 28, .ro, 0⟩, ⟨26, 24, .ro, 0⟩, ⟨21, 20, .ro, 0⟩, ⟨16, 0, .ro, 0⟩]⟩,
  ⟨0x0AC, 0, 1, .single, [⟨31, 0, .ro, 0⟩]⟩,
  ⟨0x0B0, 0, 1, .single, [⟨31, 31, .rwi, 0⟩, ⟨30, 30, .rwi, 0⟩, ⟨15, 0, .rwi, 47401⟩]⟩,
  ⟨0x0B4, 0, 1, .single, [⟨0, 0, .wo, 0⟩]⟩,
  ⟨0x0B8, 0, 1, .single, [⟨31, 31, .ro, 0⟩, ⟨30, 30, .ro, 0⟩]⟩,
  ⟨0x0BC, 0, 1, .single, [⟨15, 8, .ro, 0⟩, ⟨7, 0, .ro, 0⟩]⟩,
  ⟨0x0C0, 0, 1, .single, [⟨11, 0, .ro, 0⟩]⟩,
  ⟨0x0C4, 0, 1, .single, [⟨31, 0, .rc, 0⟩]⟩,
  ⟨0x0C8, 0, 1, .single, [⟨31, 0, .rc, 0⟩]⟩,
  ⟨0x400, 0x4, 256, .single, [⟨31, 0, .rwi, 0⟩]⟩,
  ⟨0x800, 0x4, 256, .single, [⟨31, 0, .ro, 0⟩]⟩]

/-- Registers of the HOST page (R433, 14_start_update.md). -/
def hostBTable : List RegDef := [
  ⟨0x080, 0, 1, .lo, [⟨31, 16, .rwi, 0⟩]⟩,
  ⟨0x084, 0, 1, .hi, [⟨2, 0, .rwi, 0⟩]⟩,
  ⟨0x088, 0, 1, .single, [⟨31, 31, .ro, 0⟩, ⟨19, 16, .ro, 0⟩, ⟨2, 0, .ro, 0⟩]⟩,
  ⟨0x08C, 0, 1, .single, [⟨31, 0, .rc, 0⟩]⟩,
  ⟨0x090, 0, 1, .single, [⟨31, 0, .rc, 0⟩]⟩,
  ⟨0x094, 0, 1, .single, [⟨31, 0, .rc, 0⟩]⟩]

/-- Registers of the KEEP page (R434, 14_start_update.md). -/
def keepTable : List RegDef := [
  ⟨0x080, 0, 1, .lo, [⟨31, 0, .rwi, 0⟩]⟩,
  ⟨0x084, 0, 1, .hi, [⟨31, 0, .rwi, 0⟩]⟩,
  ⟨0x088, 0, 1, .single, [⟨31, 31, .ro, 1⟩, ⟨30, 30, .ro, 0⟩, ⟨6, 0, .ro, 0⟩]⟩,
  ⟨0x08C, 0, 1, .single, [⟨31, 31, .rwi, 1⟩, ⟨15, 0, .rwi, 1000⟩]⟩,
  ⟨0x090, 0, 1, .single, [⟨31, 31, .rc, 0⟩, ⟨27, 24, .rc, 0⟩]⟩,
  ⟨0x094, 0, 1, .single, [⟨31, 0, .ro, 0⟩]⟩,
  ⟨0x098, 0, 1, .single, [⟨31, 0, .ro, 0⟩]⟩,
  ⟨0x09C, 0, 1, .single, [⟨14, 0, .ro, 0⟩]⟩,
  ⟨0x0A0, 0, 1, .single, [⟨15, 0, .rc, 0⟩]⟩,
  ⟨0x100, 0x4, 64, .single, [⟨31, 0, .rwi, 0⟩]⟩]

/-- Registers of the GLORY page (R456, 15_selftest_debug.md). -/
def gloryTable : List RegDef := [
  ⟨0x080, 0, 1, .single, [⟨31, 31, .rw, 1⟩, ⟨9, 0, .rw, 150⟩]⟩,
  ⟨0x084, 0, 1, .single, [⟨31, 31, .ro, 0⟩, ⟨27, 16, .ro, 0⟩, ⟨7, 0, .ro, 0⟩]⟩,
  ⟨0x088, 0, 1, .single, [⟨27, 16, .ro, 0⟩, ⟨10, 8, .ro, 0⟩, ⟨7, 0, .ro, 0⟩]⟩,
  ⟨0x08C, 0, 1, .single, [⟨31, 16, .ro, 0⟩, ⟨15, 0, .ro, 0⟩]⟩,
  ⟨0x090, 0, 1, .lo, [⟨31, 0, .ro, 0⟩]⟩,
  ⟨0x094, 0, 1, .hi, [⟨31, 0, .ro, 0⟩]⟩,
  ⟨0x098, 0, 1, .single, [⟨31, 16, .ro, 0⟩, ⟨15, 8, .ro, 0⟩, ⟨7, 0, .ro, 0⟩]⟩,
  ⟨0x09C, 0, 1, .single, [⟨23, 0, .ro, 0⟩]⟩,
  ⟨0x0A0, 0, 1, .single, [⟨31, 28, .wo, 0⟩, ⟨27, 16, .wo, 0⟩, ⟨7, 0, .wo, 0⟩]⟩,
  ⟨0x0A4, 0, 1, .single, [⟨15, 0, .rw, 0⟩]⟩,
  ⟨0x0A8, 0, 1, .single, [⟨31, 28, .ro, 0⟩, ⟨7, 4, .ro, 0⟩, ⟨3, 0, .ro, 0⟩]⟩,
  ⟨0x0AC, 0, 1, .single, [⟨11, 0, .rwi, 0⟩]⟩,
  ⟨0x0B0, 0, 1, .single, [⟨21, 16, .ro, 0⟩, ⟨13, 8, .ro, 0⟩, ⟨5, 0, .ro, 0⟩]⟩,
  ⟨0x0B4, 0, 1, .single, [⟨31, 0, .rc, 0⟩]⟩,
  ⟨0x0B8, 0, 1, .single, [⟨11, 0, .ro, 0⟩]⟩,
  ⟨0x0BC, 0, 1, .single, [⟨31, 0, .rc, 0⟩]⟩,
  ⟨0x0C0, 0, 1, .single, [⟨31, 0, .rc, 0⟩]⟩,
  ⟨0x0C4, 0, 1, .single, [⟨31, 0, .rc, 0⟩]⟩,
  ⟨0x0C8, 0, 1, .single, [⟨31, 0, .rc, 0⟩]⟩]

/-- Registers of the LIFE page (R457, 15_selftest_debug.md). -/
def lifeTable : List RegDef := [
  ⟨0x080, 0, 1, .single, [⟨6, 4, .ro, 0⟩, ⟨2, 0, .ro, 0⟩]⟩,
  ⟨0x084, 0, 1, .single, [⟨7, 4, .ro, 0⟩, ⟨3, 0, .ro, 0⟩]⟩,
  ⟨0x088, 0, 1, .single, [⟨6, 0, .ro, 0⟩]⟩,
  ⟨0x08C, 0, 1, .single, [⟨31, 16, .wo, 0⟩, ⟨2, 0, .wo, 0⟩]⟩,
  ⟨0x090, 0, 1, .single, [⟨31, 16, .wo, 0⟩, ⟨1, 0, .wo, 0⟩]⟩,
  ⟨0x094, 0, 1, .single, [⟨31, 16, .wo, 0⟩]⟩,
  ⟨0x098, 0, 1, .single, [⟨31, 31, .ro, 0⟩, ⟨29, 28, .ro, 0⟩]⟩]

/-- Registers of the DEBUG page (R458, 15_selftest_debug.md). -/
def debugTable : List RegDef := [
  ⟨0x080, 0, 1, .single, [⟨31, 31, .rw, 0⟩]⟩,
  ⟨0x084, 0, 1, .single, [⟨31, 16, .wo, 0⟩, ⟨0, 0, .wo, 0⟩]⟩,
  ⟨0x088, 0, 1, .single, [⟨9, 0, .rw, 100⟩]⟩,
  ⟨0x08C, 0, 1, .single, [⟨31, 0, .rc, 0⟩]⟩,
  ⟨0x090, 0, 1, .single, [⟨20, 16, .ro, 0⟩, ⟨11, 0, .ro, 0⟩]⟩]

/-- The registers of a block above its header. -/
def Blk.table : Blk → List RegDef
  | .sys => sysTable
  | .clk => clkTable
  | .keep => keepTable
  | .hostB => hostBTable
  | .gaffer => gafferTable
  | .mem => memTable
  | .lease => leaseTable
  | .rasterB => rasterBTable
  | .maps => mapsTable
  | .sched => schedTable
  | .bench => benchTable
  | .ingest => ingestTable
  | .flow => flowTable
  | .sampler => samplerTable
  | .marver => marverTable
  | .solver => solverTable
  | .cloop => cloopTable
  | .scan => scanTable
  | .tuiper => tuiperTable
  | .sets => setsTable
  | .fl => portTable ++ flExtraTable
  | .sp => portTable
  | .pl => portTable
  | .mg => portTable
  | .dmx => dmxTable
  | .q => qTable
  | .time => timeTable
  | .ptp => ptpTable
  | .trig => trigTable
  | .sync => syncTable
  | .twin => twinTable
  | .lehr => lehrTable
  | .cal => calTable
  | .glory => gloryTable
  | .life => lifeTable
  | .debug => debugTable
  | .lane => laneTable

/-- The register of `l` at offset `off`, for instances of it `stride` bytes apart. -/
def findIn (l : List RegDef) (off : Nat) : Option RegDef :=
  l.find? fun r => decide (r.off ≤ off) &&
    (if r.cnt = 1 then decide (off = r.off) else decide ((off - r.off) % r.stride = 0 && (off - r.off) / r.stride < r.cnt))

/-- The register at an address (page × 0x1000 + offset); none where the page is unassigned or the offset reserved. The
registers LATCH_DELAY, LATCH_USED, ARRIVE_GUARD and PATH_MAX exist on the SCAN0 page only; LOCK of CTRL is reserved in the odd
engines (R249). -/
def findReg (a : Nat) : Option RegDef :=
  match blkOf (a / 0x1000) with
  | none => none
  | some b =>
    if a % 0x1000 < 0x80 then findIn headerTable (a % 0x1000)
    else
      let d := (findIn b.table (a % 0x1000)).or (if a / 0x1000 = 0xB0 then findIn scan0Table (a % 0x1000) else none)
      if a % 0x2000 = 0x1080 ∧ b = .scan then d.map fun d => { d with fields := d.fields.filter fun f => f.hi ≠ 27 } else d

/-- The default vector of each page (R60). -/
def defaultVector (p : Nat) : Nat :=
  match blkOf p with
  | none => 0
  | some b =>
    match b with
    | .sys | .clk | .keep => 0
    | .gaffer => 1
    | .hostB => 2
    | .mem | .lease => 3
    | .rasterB | .maps => 4
    | .sched => 5
    | .bench => 6
    | .ingest | .flow => 7
    | .sampler => 8
    | .marver => 9
    | .solver => 10
    | .cloop => 11
    | .scan => 12 + (p - 0xB0)
    | .tuiper => 20
    | .sets => 21
    | .fl => 22 + (p - 0x100) / 4
    | .sp => 38
    | .pl => 39
    | .mg => 40
    | .dmx => 41
    | .q => 42 + (p - 0x150)
    | .time | .ptp => 58
    | .trig | .sync => 59
    | .twin => 60
    | .lehr | .cal => 61
    | .glory | .life | .debug => 62
    | .lane => 63

/-- The word a register's fields hold at reset. -/
def RegDef.resetNat (r : RegDef) : Nat :=
  r.fields.foldl (fun n f => n + f.reset % 2 ^ (f.hi + 1 - f.lo) * 2 ^ f.lo) 0

/-- The reset value of the register at an address: that of its table, and for PAGE_ID, VEC_SEL and MAC_ADDR the value the
table gives per page (R32, R61, R329). DESIGN CHOICE (log entry 5): MAC base address B is 0. -/
def resetOf (a : Nat) : Word :=
  match findReg a with
  | none => 0
  | some r =>
    if a % 0x1000 = 0 then
      (match blkOf (a / 0x1000) with
      | some b => BitVec.ofNat 32 (b.code * 0x10000 + instOf (a / 0x1000) * 0x100)
      | none => 0)
    else if 0x800 ≤ a ∧ a < 0x1000 then
      (let p := (a - 0x800) / 4
       if (blkOf p).isSome then BitVec.ofNat 32 (0x80000000 + defaultVector p) else 0)
    else if a % 0x1000 = 0x088 ∧ 0x100 ≤ a / 0x1000 ∧ a / 0x1000 ≤ 0x146 then BitVec.ofNat 32 (a / 0x1000 - 0x100)
    else BitVec.ofNat 32 r.resetNat

namespace A
/-- Page `p`, offset `o`, as an address. -/
def at_ (p o : Nat) : Nat := p * 0x1000 + o
def CLK_PLL_STAT : Nat := 0x001080
def CLK_FREQ_SEL : Nat := 0x001084
def CLK_FREQ_HZ : Nat := 0x001088
def CLK_LOCK_LOST : Nat := 0x00108C
def CLK_REF_MOVES : Nat := 0x001090
def SYS_PART_ID : Nat := 0x000080
def SYS_PART_REV : Nat := 0x000084
def SYS_COMMIT : Nat := 0x000088
def SYS_COMMIT_STAT : Nat := 0x00008C
def SYS_EPOCH_APPLIED : Nat := 0x000090
def SYS_EPOCH_FRAME : Nat := 0x000094
def SYS_COMMIT_CUTOFF : Nat := 0x000098
def SYS_SHADOW_CTRL : Nat := 0x00009C
def SYS_SNAP : Nat := 0x0000A0
def SYS_SNAP_STAT : Nat := 0x0000A4
def SYS_FRAME_NUM : Nat := 0x0000A8
def SYS_FABRIC_TIMEOUT : Nat := 0x0000AC
def SYS_RESET : Nat := 0x0000B0
def SYS_RESET_CAUSE : Nat := 0x0000B4
def SYS_UNMAPPED : Nat := 0x0000B8
def SYS_SETTINGS_STAT : Nat := 0x0000BC
def SYS_INT_PEND (i : Nat) : Nat := 0x0000C0 + i * 0x4
def SYS_VEC_EOI : Nat := 0x000100
def SYS_VEC_SEL (i : Nat) : Nat := 0x000800 + i * 0x4
def MEM_MEM_SIZE : Nat := 0x010080
def MEM_POOL_BASE : Nat := 0x010084
def MEM_RD_BYTES_LO : Nat := 0x010088
def MEM_RD_BYTES_HI : Nat := 0x01008C
def MEM_WR_BYTES_LO : Nat := 0x010090
def MEM_WR_BYTES_HI : Nat := 0x010094
def MEM_ECC_CE_CNT : Nat := 0x010098
def MEM_ECC_UE_CNT : Nat := 0x01009C
def MEM_UE_ADDR_LO : Nat := 0x0100A0
def MEM_UE_ADDR_HI : Nat := 0x0100A4
def LEASE_BUF_SEL : Nat := 0x011080
def LEASE_BUF_BASE : Nat := 0x011084
def LEASE_BUF_SIZE : Nat := 0x011088
def LEASE_BUF_ATTR : Nat := 0x01108C
def LEASE_BUF_CMD : Nat := 0x011090
def LEASE_BUF_RESULT : Nat := 0x011094
def LEASE_BUF_WGEN : Nat := 0x011098
def LEASE_BUF_REFS : Nat := 0x01109C
def LEASE_FREE_DONE : Nat := 0x0110A0
def LEASE_FREE_LOST : Nat := 0x0110A4
def LEASE_VIOL_ADDR_LO : Nat := 0x0110A8
def LEASE_VIOL_ADDR_HI : Nat := 0x0110AC
def LEASE_VIOL_INFO : Nat := 0x0110B0
def LEASE_VIOL_CNT : Nat := 0x0110B4
def RASTER_LAYER_BUF (i : Nat) : Nat := 0x020080 + i * 0x4
def RASTER_LAYER_ORG (i : Nat) : Nat := 0x0200C0 + i * 0x4
def RASTER_LAYER_EXT (i : Nat) : Nat := 0x020100 + i * 0x4
def RASTER_LAYER_USED (i : Nat) : Nat := 0x020140 + i * 0x4
def RASTER_SUBST_CNT : Nat := 0x020180
def MAPS_MAP_SET : Nat := 0x021080
def MAPS_BUILD_CMD : Nat := 0x021084
def MAPS_BUILD_STAT : Nat := 0x021088
def MAPS_FAIL_FIX : Nat := 0x02108C
def MAPS_PRIOR_FIX : Nat := 0x021090
def MAPS_FAIL_CELL : Nat := 0x021094
def MAPS_CLIP_COUNT : Nat := 0x021098
def MAPS_CLIP_LAST : Nat := 0x02109C
def MAPS_OWNED : Nat := 0x0210A0
def MAPS_PROFILE_A (i : Nat) : Nat := 0x021800 + i * 0x4
def MAPS_PROFILE_B (i : Nat) : Nat := 0x021C00 + i * 0x4
def SCHED_CTRL : Nat := 0x030080
def SCHED_AFF_WINDOW : Nat := 0x030084
def SCHED_DESC_BUF : Nat := 0x030088
def SCHED_STATE_BUF : Nat := 0x03008C
def SCHED_TC_CTRL : Nat := 0x030090
def SCHED_TC_NOW : Nat := 0x030094
def SCHED_SLOT_CMD : Nat := 0x030098
def SCHED_SLOT_RESULT : Nat := 0x03009C
def SCHED_SLOT_FRAME : Nat := 0x0300A0
def SCHED_GFLAG_LO : Nat := 0x0300A8
def SCHED_GFLAG_HI : Nat := 0x0300AC
def SCHED_GSET_LO : Nat := 0x0300B0
def SCHED_GSET_HI : Nat := 0x0300B4
def SCHED_GCLR_LO : Nat := 0x0300B8
def SCHED_GCLR_HI : Nat := 0x0300BC
def SCHED_WATCH_LO : Nat := 0x0300C0
def SCHED_WATCH_HI : Nat := 0x0300C4
def SCHED_RISEN_LO : Nat := 0x0300C8
def SCHED_RISEN_HI : Nat := 0x0300CC
def SCHED_DISPATCHED : Nat := 0x0300D0
def SCHED_AFF_HIT : Nat := 0x0300D4
def SCHED_AFF_MISS : Nat := 0x0300D8
def SCHED_LATE_CNT : Nat := 0x0300DC
def SCHED_DEFERRED : Nat := 0x0300E0
def SCHED_INVALID_CNT : Nat := 0x0300E4
def SCHED_CANCEL_RACE : Nat := 0x0300E8
def SCHED_OCC : Nat := 0x0300EC
def SCHED_TABLE_CHK : Nat := 0x0300F0
def SCHED_LAYER_STAT (i : Nat) : Nat := 0x030100 + i * 0x4
def SCHED_TC_VAL (i : Nat) : Nat := 0x030800 + i * 0x8
def SCHED_TC_ACT (i : Nat) : Nat := 0x030804 + i * 0x8
def BENCH_STAT (p : Nat) : Nat := 0x040080 + p * 0x1000
def BENCH_CUR_FRAME (p : Nat) : Nat := 0x040084 + p * 0x1000
def BENCH_LAST_USED (p : Nat) : Nat := 0x040088 + p * 0x1000
def BENCH_CELLS (p : Nat) : Nat := 0x04008C + p * 0x1000
def BENCH_BUSY_CYC_LO (p : Nat) : Nat := 0x040090 + p * 0x1000
def BENCH_BUSY_CYC_HI (p : Nat) : Nat := 0x040094 + p * 0x1000
def BENCH_JOBS (p : Nat) : Nat := 0x040098 + p * 0x1000
def BENCH_STATE_HIT (p : Nat) : Nat := 0x04009C + p * 0x1000
def BENCH_STATE_MISS (p : Nat) : Nat := 0x0400A0 + p * 0x1000
def BENCH_SRC_OOR (p : Nat) : Nat := 0x0400A4 + p * 0x1000
def BENCH_LS_CE_CNT (p : Nat) : Nat := 0x0400A8 + p * 0x1000
def BENCH_LS_UE_ADDR (p : Nat) : Nat := 0x0400AC + p * 0x1000
def INGEST_CTRL : Nat := 0x050080
def INGEST_UMAP_BUF : Nat := 0x050084
def INGEST_UVAL_BUF : Nat := 0x050088
def INGEST_TC_FLOW : Nat := 0x05008C
def INGEST_VIDEO_FLOWS : Nat := 0x050090
def INGEST_VID_MBPS : Nat := 0x050094
def INGEST_UNMATCHED : Nat := 0x050098
def INGEST_SRC_OVER : Nat := 0x05009C
def INGEST_SRC_OVER_IDX : Nat := 0x0500A0
def INGEST_UMAP_BAD : Nat := 0x0500A4
def FLOW_GUARD_FLOW (p : Nat) : Nat := 0x060080 + p * 0x1000
def FLOW_TIMED_OUT (p : Nat) : Nat := 0x060084 + p * 0x1000
def FLOW_CFG (f : Nat) : Nat := 0x060800 + f / 16 * 0x1000 + f % 16 * 0x80
def FLOW_DST_IP (f : Nat) : Nat := 0x060804 + f / 16 * 0x1000 + f % 16 * 0x80
def FLOW_DST_IP2 (f : Nat) : Nat := 0x060808 + f / 16 * 0x1000 + f % 16 * 0x80
def FLOW_SRC_IP (f : Nat) : Nat := 0x06080C + f / 16 * 0x1000 + f % 16 * 0x80
def FLOW_PORT (f : Nat) : Nat := 0x060810 + f / 16 * 0x1000 + f % 16 * 0x80
def FLOW_TIMEOUT (f : Nat) : Nat := 0x060814 + f / 16 * 0x1000 + f % 16 * 0x80
def FLOW_SAFE_LO (f : Nat) : Nat := 0x060818 + f / 16 * 0x1000 + f % 16 * 0x80
def FLOW_SAFE_HI (f : Nat) : Nat := 0x06081C + f / 16 * 0x1000 + f % 16 * 0x80
def FLOW_VSIZE (f : Nat) : Nat := 0x060820 + f / 16 * 0x1000 + f % 16 * 0x80
def FLOW_VFMT (f : Nat) : Nat := 0x060824 + f / 16 * 0x1000 + f % 16 * 0x80
def FLOW_GAIN (f : Nat) : Nat := 0x060828 + f / 16 * 0x1000 + f % 16 * 0x80
def FLOW_BUF (f : Nat) : Nat := 0x06082C + f / 16 * 0x1000 + f % 16 * 0x80
def FLOW_HOST_BUF0 (f : Nat) : Nat := 0x060830 + f / 16 * 0x1000 + f % 16 * 0x80
def FLOW_HOST_BUF1 (f : Nat) : Nat := 0x060834 + f / 16 * 0x1000 + f % 16 * 0x80
def FLOW_HOST_BUF2 (f : Nat) : Nat := 0x060838 + f / 16 * 0x1000 + f % 16 * 0x80
def FLOW_HOST_BUF3 (f : Nat) : Nat := 0x06083C + f / 16 * 0x1000 + f % 16 * 0x80
def FLOW_HOST_POST (f : Nat) : Nat := 0x060840 + f / 16 * 0x1000 + f % 16 * 0x80
def FLOW_STAT (f : Nat) : Nat := 0x060844 + f / 16 * 0x1000 + f % 16 * 0x80
def FLOW_UNITS (f : Nat) : Nat := 0x060848 + f / 16 * 0x1000 + f % 16 * 0x80
def FLOW_LOST (f : Nat) : Nat := 0x06084C + f / 16 * 0x1000 + f % 16 * 0x80
def FLOW_DAMAGED (f : Nat) : Nat := 0x060850 + f / 16 * 0x1000 + f % 16 * 0x80
def FLOW_DISCARD (f : Nat) : Nat := 0x060854 + f / 16 * 0x1000 + f % 16 * 0x80
def FLOW_LAST_FRAME (f : Nat) : Nat := 0x060858 + f / 16 * 0x1000 + f % 16 * 0x80
def FLOW_SLOTS_USED (f : Nat) : Nat := 0x06085C + f / 16 * 0x1000 + f % 16 * 0x80
def SAMPLER_SRC_FLOW (i : Nat) : Nat := 0x080080 + i * 0x4
def SAMPLER_MSRC_SIZE (i : Nat) : Nat := 0x080100 + i * 0x10
def SAMPLER_MSRC_FMT (i : Nat) : Nat := 0x080104 + i * 0x10
def SAMPLER_MSRC_GAIN (i : Nat) : Nat := 0x080108 + i * 0x10
def SAMPLER_TAPS_LO : Nat := 0x080200
def SAMPLER_TAPS_HI : Nat := 0x080204
def SAMPLER_CELLS : Nat := 0x080208
def SAMPLER_NO_FRAME : Nat := 0x08020C
def SAMPLER_OUTSIDE : Nat := 0x080210
def SAMPLER_SKIPPED : Nat := 0x080214
def SAMPLER_GRANT_WAIT_LO : Nat := 0x080218
def SAMPLER_GRANT_WAIT_HI : Nat := 0x08021C
def MARVER_CTRL : Nat := 0x090080
def MARVER_BASE_RAW_LO : Nat := 0x090088
def MARVER_BASE_RAW_HI : Nat := 0x09008C
def MARVER_STAT : Nat := 0x090090
def MARVER_SHED : Nat := 0x090094
def MARVER_LOAD : Nat := 0x090098
def MARVER_CAP : Nat := 0x09009C
def MARVER_DONE_US : Nat := 0x0900A0
def MARVER_STOP_CELL : Nat := 0x0900A4
def MARVER_STACK_LO : Nat := 0x0900A8
def MARVER_STACK_HI : Nat := 0x0900AC
def MARVER_OPS_LO : Nat := 0x0900B0
def MARVER_OPS_HI : Nat := 0x0900B4
def MARVER_CUT_CNT : Nat := 0x0900B8
def MARVER_SHED_CNT : Nat := 0x0900BC
def MARVER_CLAMP_CNT : Nat := 0x0900C0
def MARVER_LCFG (i : Nat) : Nat := 0x090100 + i * 0x10
def MARVER_OPACITY (i : Nat) : Nat := 0x090104 + i * 0x10
def MARVER_LSTAT (i : Nat) : Nat := 0x090108 + i * 0x10
def SOLVER_CTRL : Nat := 0x0A0080
def SOLVER_ETAB_BUF : Nat := 0x0A0084
def SOLVER_DRV_BUF (i : Nat) : Nat := 0x0A0088 + i * 0x4
def SOLVER_CUR_BUF (i : Nat) : Nat := 0x0A0094 + i * 0x4
def SOLVER_STAT : Nat := 0x0A00A0
def SOLVER_FRAME : Nat := 0x0A00A4
def SOLVER_SERVED : Nat := 0x0A00A8
def SOLVER_CAP : Nat := 0x0A00AC
def SOLVER_SHED_CELLS : Nat := 0x0A00B0
def SOLVER_FRONTIER : Nat := 0x0A00B4
def SOLVER_STOP_CELL : Nat := 0x0A00B8
def SOLVER_DONE_US : Nat := 0x0A00BC
def SOLVER_CELLS_LO : Nat := 0x0A00C0
def SOLVER_CELLS_HI : Nat := 0x0A00C4
def SOLVER_GAMUT_CHROMA : Nat := 0x0A00C8
def SOLVER_GAMUT_LUM : Nat := 0x0A00CC
def SOLVER_FALLBACK : Nat := 0x0A00D0
def SOLVER_BAD_TABLE : Nat := 0x0A00D4
def SOLVER_NOCOMP : Nat := 0x0A00D8
def SOLVER_DUTY_LOW : Nat := 0x0A00DC
def SOLVER_DROOP_CLAMP : Nat := 0x0A00E0
def SOLVER_SHED_CNT : Nat := 0x0A00E4
def SOLVER_CUT_CNT : Nat := 0x0A00E8
def SOLVER_SKIP_CNT : Nat := 0x0A00EC
def SOLVER_BAD_LAST : Nat := 0x0A00F0
def SOLVER_NOCOMP_FIX : Nat := 0x0A00F4
def CLOOP_CTRL : Nat := 0x0A1080
def CLOOP_GAIN_BUF : Nat := 0x0A1084
def CLOOP_CMD : Nat := 0x0A1088
def CLOOP_STAT : Nat := 0x0A108C
def CLOOP_ACCEPTED : Nat := 0x0A1090
def CLOOP_STALE : Nat := 0x0A1094
def CLOOP_HELD : Nat := 0x0A1098
def CLOOP_REJECTED : Nat := 0x0A109C
def CLOOP_DROPPED : Nat := 0x0A10A0
def CLOOP_LIMIT_CNT : Nat := 0x0A10A4
def CLOOP_LIMIT_EMIT : Nat := 0x0A10A8
def CLOOP_REJ_LAST : Nat := 0x0A10AC
def SCAN_CTRL (p : Nat) : Nat := 0x0B0080 + p * 0x1000
def SCAN_LMAP_BUF (p : Nat) : Nat := 0x0B0084 + p * 0x1000
def SCAN_PERIOD (p : Nat) : Nat := 0x0B0088 + p * 0x1000
def SCAN_PHASE (p : Nat) : Nat := 0x0B008C + p * 0x1000
def SCAN_LAMP_LATCH (p : Nat) : Nat := 0x0B0090 + p * 0x1000
def SCAN_LATCH_USED (p : Nat) : Nat := 0x0B0094 + p * 0x1000
def SCAN_DIRECT_BASE (p : Nat) : Nat := 0x0B0098 + p * 0x1000
def SCAN_BASE_TAKEN (p : Nat) : Nat := 0x0B009C + p * 0x1000
def SCAN_BASE_NOW (p : Nat) : Nat := 0x0B00A0 + p * 0x1000
def SCAN_STAT (p : Nat) : Nat := 0x0B00A4 + p * 0x1000
def SCAN_SRC_FRAME (p : Nat) : Nat := 0x0B00A8 + p * 0x1000
def SCAN_ENG_FRAME (p : Nat) : Nat := 0x0B00AC + p * 0x1000
def SCAN_PT_SEC_LO (p : Nat) : Nat := 0x0B00B0 + p * 0x1000
def SCAN_PT_SEC_HI (p : Nat) : Nat := 0x0B00B4 + p * 0x1000
def SCAN_PT_NS (p : Nat) : Nat := 0x0B00B8 + p * 0x1000
def SCAN_CELLS_LO (p : Nat) : Nat := 0x0B00C0 + p * 0x1000
def SCAN_CELLS_HI (p : Nat) : Nat := 0x0B00C4 + p * 0x1000
def SCAN_UNDERRUN (p : Nat) : Nat := 0x0B00C8 + p * 0x1000
def SCAN_HOLD_FIX (p : Nat) : Nat := 0x0B00CC + p * 0x1000
def SCAN_LOSS_CNT (p : Nat) : Nat := 0x0B00D0 + p * 0x1000
def SCAN_LATE_CNT (p : Nat) : Nat := 0x0B00D4 + p * 0x1000
def SCAN_REPEAT_CNT (p : Nat) : Nat := 0x0B00D8 + p * 0x1000
def SCAN_SKIP_ENTRY (p : Nat) : Nat := 0x0B00DC + p * 0x1000
def SCAN_BASE_DROP (p : Nat) : Nat := 0x0B00E0 + p * 0x1000
def SCAN_LMAP_LEN (p : Nat) (i : Nat) : Nat := 0x0B0200 + p * 0x1000 + i * 0x20
def SCAN_LINK_TRIM (p : Nat) (i : Nat) : Nat := 0x0B0204 + p * 0x1000 + i * 0x20
def SCAN_LMAP_USED (p : Nat) (i : Nat) : Nat := 0x0B0208 + p * 0x1000 + i * 0x20
def SCAN_PATH_DLY (p : Nat) (i : Nat) : Nat := 0x0B020C + p * 0x1000 + i * 0x20
def SCAN_LAST_TX (p : Nat) (i : Nat) : Nat := 0x0B0210 + p * 0x1000 + i * 0x20
def SCAN_SENT_FIX (p : Nat) (i : Nat) : Nat := 0x0B0214 + p * 0x1000 + i * 0x20
def SCAN_LATE_FIX (p : Nat) (i : Nat) : Nat := 0x0B0218 + p * 0x1000 + i * 0x20
def SCAN_GAP_CNT (p : Nat) (i : Nat) : Nat := 0x0B021C + p * 0x1000 + i * 0x20
def SCAN0_LATCH_DELAY : Nat := 0x0B0800
def SCAN0_LATCH_USED : Nat := 0x0B0804
def SCAN0_ARRIVE_GUARD : Nat := 0x0B0808
def SCAN0_PATH_MAX : Nat := 0x0B080C
def TUIPER_CTRL : Nat := 0x0C0080
def TUIPER_DA_HI : Nat := 0x0C0084
def TUIPER_DA_LO : Nat := 0x0C0088
def TUIPER_UDP_GROUP : Nat := 0x0C008C
def TUIPER_UDP_CFG : Nat := 0x0C0090
def TUIPER_TX_PAYLOAD : Nat := 0x0C0094
def TUIPER_FLUSH_NS : Nat := 0x0C0098
def TUIPER_CUR_CFG : Nat := 0x0C009C
def TUIPER_TEL_TIMEOUT : Nat := 0x0C00A0
def TUIPER_SUP_BUF : Nat := 0x0C00A4
def TUIPER_QSEL : Nat := 0x0C00A8
def TUIPER_SESSION : Nat := 0x0C00AC
def TUIPER_TX_CMD : Nat := 0x0C00B0
def TUIPER_TX_STAT : Nat := 0x0C00B4
def TUIPER_FAULT_Q : Nat := 0x0C00B8
def TUIPER_FAULT_LOST : Nat := 0x0C00BC
def TUIPER_TEL_RX : Nat := 0x0C00C0
def TUIPER_UP_BAD : Nat := 0x0C00C4
def TUIPER_TEL_OLD : Nat := 0x0C00C8
def TUIPER_TX_FRAMES_LO : Nat := 0x0C00CC
def TUIPER_TX_FRAMES_HI : Nat := 0x0C00D0
def TUIPER_STRIKE_CNT : Nat := 0x0C00D4
def TUIPER_CUR_CNT : Nat := 0x0C00D8
def TUIPER_SPLIT_CUT : Nat := 0x0C00DC
def TUIPER_FAULTS : Nat := 0x0C00E0
def TUIPER_TIME_NEG : Nat := 0x0C00E4
def TUIPER_TX_DATA (i : Nat) : Nat := 0x0C0400 + i * 0x4
def SETS_CTRL : Nat := 0x0C1080
def SETS_SET_BUF : Nat := 0x0C1084
def SETS_MEMB_BUF : Nat := 0x0C1088
def SETS_CHK : Nat := 0x0C108C
def SETS_CMD : Nat := 0x0C1090
def SETS_RESULT : Nat := 0x0C1094
def SETS_LAST_FAULT : Nat := 0x0C1098
def SETS_IN_FALLBACK : Nat := 0x0C109C
def SETS_TRANS_Q : Nat := 0x0C10A0
def SETS_TRANS_LOST : Nat := 0x0C10A4
def SETS_ENTER_CNT : Nat := 0x0C10A8
def PORT_MAC_CTRL (p : Nat) : Nat := 0x100080 + p * 0x1000
def PORT_PHY_CFG (p : Nat) : Nat := 0x100084 + p * 0x1000
def PORT_MAC_ADDR_LO (p : Nat) : Nat := 0x100088 + p * 0x1000
def PORT_MAC_ADDR_HI (p : Nat) : Nat := 0x10008C + p * 0x1000
def PORT_UC_LO (p : Nat) (i : Nat) : Nat := 0x100090 + p * 0x1000 + i * 0x8
def PORT_UC_HI (p : Nat) (i : Nat) : Nat := 0x100094 + p * 0x1000 + i * 0x8
def PORT_GHASH (p : Nat) (i : Nat) : Nat := 0x100110 + p * 0x1000 + i * 0x4
def PORT_PAUSE_CFG (p : Nat) : Nat := 0x100150 + p * 0x1000
def PORT_STAT (p : Nat) : Nat := 0x100154 + p * 0x1000
def PORT_IPV4 (p : Nat) : Nat := 0x100158 + p * 0x1000
def PORT_IPV4_CFG (p : Nat) : Nat := 0x10015C + p * 0x1000
def PORT_GW (p : Nat) : Nat := 0x100160 + p * 0x1000
def PORT_RX_FRAMES_LO (p : Nat) : Nat := 0x100180 + p * 0x1000
def PORT_RX_FRAMES_HI (p : Nat) : Nat := 0x100184 + p * 0x1000
def PORT_RX_BYTES_LO (p : Nat) : Nat := 0x100188 + p * 0x1000
def PORT_RX_BYTES_HI (p : Nat) : Nat := 0x10018C + p * 0x1000
def PORT_TX_FRAMES_LO (p : Nat) : Nat := 0x100190 + p * 0x1000
def PORT_TX_FRAMES_HI (p : Nat) : Nat := 0x100194 + p * 0x1000
def PORT_TX_BYTES_LO (p : Nat) : Nat := 0x100198 + p * 0x1000
def PORT_TX_BYTES_HI (p : Nat) : Nat := 0x10019C + p * 0x1000
def PORT_RX_FCS_ERR_LO (p : Nat) : Nat := 0x1001A0 + p * 0x1000
def PORT_RX_FCS_ERR_HI (p : Nat) : Nat := 0x1001A4 + p * 0x1000
def PORT_RX_ALIGN_ERR_LO (p : Nat) : Nat := 0x1001A8 + p * 0x1000
def PORT_RX_ALIGN_ERR_HI (p : Nat) : Nat := 0x1001AC + p * 0x1000
def PORT_RX_LEN_ERR_LO (p : Nat) : Nat := 0x1001B0 + p * 0x1000
def PORT_RX_LEN_ERR_HI (p : Nat) : Nat := 0x1001B4 + p * 0x1000
def PORT_RX_RUNT_LO (p : Nat) : Nat := 0x1001B8 + p * 0x1000
def PORT_RX_RUNT_HI (p : Nat) : Nat := 0x1001BC + p * 0x1000
def PORT_RX_TRUNC_LO (p : Nat) : Nat := 0x1001C0 + p * 0x1000
def PORT_RX_TRUNC_HI (p : Nat) : Nat := 0x1001C4 + p * 0x1000
def PORT_TX_TRUNC_LO (p : Nat) : Nat := 0x1001C8 + p * 0x1000
def PORT_TX_TRUNC_HI (p : Nat) : Nat := 0x1001CC + p * 0x1000
def PORT_RX_FILTERED_LO (p : Nat) : Nat := 0x1001D0 + p * 0x1000
def PORT_RX_FILTERED_HI (p : Nat) : Nat := 0x1001D4 + p * 0x1000
def PORT_RX_UNCLAIMED_LO (p : Nat) : Nat := 0x1001D8 + p * 0x1000
def PORT_RX_UNCLAIMED_HI (p : Nat) : Nat := 0x1001DC + p * 0x1000
def PORT_RX_OVF_LO (p : Nat) : Nat := 0x1001E0 + p * 0x1000
def PORT_RX_OVF_HI (p : Nat) : Nat := 0x1001E4 + p * 0x1000
def PORT_PAUSE_RX_LO (p : Nat) : Nat := 0x1001E8 + p * 0x1000
def PORT_PAUSE_RX_HI (p : Nat) : Nat := 0x1001EC + p * 0x1000
def PORT_PAUSE_TX_LO (p : Nat) : Nat := 0x1001F0 + p * 0x1000
def PORT_PAUSE_TX_HI (p : Nat) : Nat := 0x1001F4 + p * 0x1000
def PORT_TX_DOWN_LO (p : Nat) : Nat := 0x1001F8 + p * 0x1000
def PORT_TX_DOWN_HI (p : Nat) : Nat := 0x1001FC + p * 0x1000
def PORT_TS_DROP_LO (p : Nat) : Nat := 0x100200 + p * 0x1000
def PORT_TS_DROP_HI (p : Nat) : Nat := 0x100204 + p * 0x1000
def PORT_PREEMPT_CFG (p : Nat) : Nat := 0x100280 + p * 0x1000
def PORT_PREEMPT_STAT (p : Nat) : Nat := 0x100284 + p * 0x1000
def PORT_TX_FRAGS_LO (p : Nat) : Nat := 0x100288 + p * 0x1000
def PORT_TX_FRAGS_HI (p : Nat) : Nat := 0x10028C + p * 0x1000
def PORT_RX_ASM_ERR_LO (p : Nat) : Nat := 0x100290 + p * 0x1000
def PORT_RX_ASM_ERR_HI (p : Nat) : Nat := 0x100294 + p * 0x1000
def PORT_RATE_CFG (p : Nat) : Nat := 0x100298 + p * 0x1000
def PORT_RATE_STAT (p : Nat) : Nat := 0x10029C + p * 0x1000
def PORT_LOAD (p : Nat) : Nat := 0x1002A0 + p * 0x1000
def PORT_STEP_DOWN (p : Nat) : Nat := 0x1002A4 + p * 0x1000
def PORT_STEP_UP (p : Nat) : Nat := 0x1002A8 + p * 0x1000
def PORT_RENEG_FAIL (p : Nat) : Nat := 0x1002AC + p * 0x1000
def Q_CTRL (p : Nat) : Nat := 0x150080 + p * 0x1000
def Q_SPILL_BUF (p : Nat) : Nat := 0x150084 + p * 0x1000
def Q_HIGH_WM (p : Nat) : Nat := 0x150088 + p * 0x1000
def Q_LOW_WM (p : Nat) : Nat := 0x15008C + p * 0x1000
def Q_OCC (p : Nat) : Nat := 0x150090 + p * 0x1000
def Q_PKTS (p : Nat) : Nat := 0x150094 + p * 0x1000
def Q_DATA_LO (p : Nat) : Nat := 0x150098 + p * 0x1000
def Q_DATA_HI (p : Nat) : Nat := 0x15009C + p * 0x1000
def Q_TAG (p : Nat) : Nat := 0x1500A0 + p * 0x1000
def Q_CMD (p : Nat) : Nat := 0x1500A4 + p * 0x1000
def Q_CMD_RESULT (p : Nat) : Nat := 0x1500A8 + p * 0x1000
def Q_PKT_IN (p : Nat) : Nat := 0x1500AC + p * 0x1000
def Q_OVF_DROP (p : Nat) : Nat := 0x1500B0 + p * 0x1000
def Q_POISON_CNT (p : Nat) : Nat := 0x1500B4 + p * 0x1000
def DMX_RDM_CMD : Nat := 0x148084
def DMX_RDM_STAT : Nat := 0x148088
def DMX_RDM_DATA (i : Nat) : Nat := 0x148800 + i * 0x4
def DMX_CFG (i : Nat) : Nat := 0x148100 + i * 0x40
def DMX_SRC_IDX (i : Nat) : Nat := 0x148104 + i * 0x40
def DMX_TIMING (i : Nat) : Nat := 0x148108 + i * 0x40
def DMX_IN_CFG (i : Nat) : Nat := 0x14810C + i * 0x40
def DMX_TIMEOUT (i : Nat) : Nat := 0x148110 + i * 0x40
def DMX_SAFE (i : Nat) : Nat := 0x148114 + i * 0x40
def DMX_STAT (i : Nat) : Nat := 0x148118 + i * 0x40
def DMX_PKTS (i : Nat) : Nat := 0x14811C + i * 0x40
def DMX_ERR (i : Nat) : Nat := 0x148120 + i * 0x40
def DMX_ALT_SC (i : Nat) : Nat := 0x148124 + i * 0x40
def DMX_LAST_FRAME (i : Nat) : Nat := 0x148128 + i * 0x40
def TIME_CTRL : Nat := 0x160080
def TIME_GAIN : Nat := 0x160084
def TIME_MAX_SLEW : Nat := 0x160088
def TIME_LOCK : Nat := 0x16008C
def TIME_STAT : Nat := 0x160090
def TIME_ADJ : Nat := 0x160094
def TIME_ERR : Nat := 0x160098
def TIME_INCR_LO : Nat := 0x1600A0
def TIME_INCR_HI : Nat := 0x1600A4
def TIME_CAPTURE : Nat := 0x1600A8
def TIME_NOW_SEC_LO : Nat := 0x1600B0
def TIME_NOW_SEC_HI : Nat := 0x1600B4
def TIME_NOW_NS : Nat := 0x1600B8
def TIME_NOW_FRAC : Nat := 0x1600BC
def TIME_BND_SEC_LO : Nat := 0x1600C0
def TIME_BND_SEC_HI : Nat := 0x1600C4
def TIME_BND_NS : Nat := 0x1600C8
def TIME_BND_FRAME : Nat := 0x1600CC
def TIME_STEP_CNT : Nat := 0x1600D0
def TIME_FM_CFG : Nat := 0x160100
def TIME_MPD_SPREAD : Nat := 0x160104
def TIME_PATH_BUF : Nat := 0x160108
def TIME_DREQ_RX : Nat := 0x16010C
def TIME_DREQ_DROP : Nat := 0x160110
def TIME_MPD_DISCARD : Nat := 0x160114
def TIME_LINK_CLEAR : Nat := 0x160118
def TIME_TSQ_SEL : Nat := 0x160180
def TIME_TSQ_STAT : Nat := 0x160184
def TIME_TSQ_POP : Nat := 0x160188
def TIME_TSQ_SEC : Nat := 0x16018C
def TIME_TSQ_NS : Nat := 0x160190
def PTP_CTRL : Nat := 0x161080
def PTP_GOV_STAT : Nat := 0x161084
def PTP_SWITCH_CNT : Nat := 0x161088
def PTP_D_REM : Nat := 0x16108C
def PTP_CFG (i : Nat) : Nat := 0x161100 + i * 0x80
def PTP_STAT (i : Nat) : Nat := 0x161104 + i * 0x80
def PTP_PARENT_LO (i : Nat) : Nat := 0x161108 + i * 0x80
def PTP_PARENT_HI (i : Nat) : Nat := 0x16110C + i * 0x80
def PTP_GM_LO (i : Nat) : Nat := 0x161110 + i * 0x80
def PTP_GM_HI (i : Nat) : Nat := 0x161114 + i * 0x80
def PTP_OFS_LO (i : Nat) : Nat := 0x161118 + i * 0x80
def PTP_OFS_HI (i : Nat) : Nat := 0x16111C + i * 0x80
def PTP_MPD (i : Nat) : Nat := 0x161120 + i * 0x80
def PTP_RATE (i : Nat) : Nat := 0x161124 + i * 0x80
def PTP_SYNC_RX (i : Nat) : Nat := 0x161128 + i * 0x80
def PTP_DREQ_TX (i : Nat) : Nat := 0x16112C + i * 0x80
def PTP_NOSTAMP (i : Nat) : Nat := 0x161130 + i * 0x80
def PTP_ANN_RX (i : Nat) : Nat := 0x161134 + i * 0x80
def TRIG_TCFG (i : Nat) : Nat := 0x162100 + i * 0x20
def TRIG_START_SEC_LO (i : Nat) : Nat := 0x162104 + i * 0x20
def TRIG_START_SEC_HI (i : Nat) : Nat := 0x162108 + i * 0x20
def TRIG_START_NS (i : Nat) : Nat := 0x16210C + i * 0x20
def TRIG_PERIOD_NS (i : Nat) : Nat := 0x162110 + i * 0x20
def TRIG_PERIOD_FRAC (i : Nat) : Nat := 0x162114 + i * 0x20
def TRIG_WIDTH (i : Nat) : Nat := 0x162118 + i * 0x20
def TRIG_OFFSET (i : Nat) : Nat := 0x16211C + i * 0x20
def TRIG_CCFG (i : Nat) : Nat := 0x162400 + i * 0x20
def TRIG_POP (i : Nat) : Nat := 0x162404 + i * 0x20
def TRIG_CSEC_LO (i : Nat) : Nat := 0x162408 + i * 0x20
def TRIG_CSEC_HI (i : Nat) : Nat := 0x16240C + i * 0x20
def TRIG_CNS (i : Nat) : Nat := 0x162410 + i * 0x20
def TRIG_LOST (i : Nat) : Nat := 0x162414 + i * 0x20
def SYNC_CTRL : Nat := 0x163080
def SYNC_RATE : Nat := 0x163084
def SYNC_PHASE : Nat := 0x163088
def SYNC_PULL_NS : Nat := 0x16308C
def SYNC_BND_STAT : Nat := 0x163090
def SYNC_PERIOD_NOW : Nat := 0x163094
def SYNC_ALIGN_K_LO : Nat := 0x163098
def SYNC_ALIGN_K_HI : Nat := 0x16309C
def SYNC_PHASE_ERR : Nat := 0x1630A0
def SYNC_GL_CFG : Nat := 0x1630C0
def SYNC_GL_OFFSET : Nat := 0x1630C4
def SYNC_GL_TIMEOUT : Nat := 0x1630C8
def SYNC_GL_STAT : Nat := 0x1630CC
def SYNC_GL_MISS : Nat := 0x1630D0
def SYNC_GL_SPUR : Nat := 0x1630D4
def SYNC_LTC_CFG : Nat := 0x163100
def SYNC_LTC_TIMEOUT : Nat := 0x163104
def SYNC_LTC_VAL : Nat := 0x163108
def SYNC_LTC_USER : Nat := 0x16310C
def SYNC_LTC_STAT : Nat := 0x163110
def SYNC_LTC_UNITS : Nat := 0x163114
def SYNC_LTC_ERR : Nat := 0x163118
def SYNC_LTC_RATE_ERR : Nat := 0x16311C
def SYNC_LTC_REVERSE : Nat := 0x163120
def TWIN_CTRL : Nat := 0x170080
def TWIN_REVERT : Nat := 0x170084
def TWIN_WAIT : Nat := 0x170088
def TWIN_FAIL : Nat := 0x17008C
def TWIN_PUNTY : Nat := 0x170090
def TWIN_CMD : Nat := 0x170094
def TWIN_STAT : Nat := 0x170098
def TWIN_PAIR_FRAME : Nat := 0x17009C
def TWIN_FRAME_OFS : Nat := 0x1700A0
def TWIN_BND_DIFF : Nat := 0x1700A4
def TWIN_REC_SIZE : Nat := 0x1700A8
def TWIN_REC_US : Nat := 0x1700AC
def TWIN_CFG_DIGEST_LO : Nat := 0x1700B0
def TWIN_CFG_DIGEST_HI : Nat := 0x1700B4
def TWIN_IN_DIGEST_LO : Nat := 0x1700B8
def TWIN_IN_DIGEST_HI : Nat := 0x1700BC
def TWIN_HEAD_MISS : Nat := 0x1700C0
def TWIN_REC_MISS : Nat := 0x1700C4
def TWIN_REC_OVER : Nat := 0x1700C8
def TWIN_DIVERGE_CNT : Nat := 0x1700CC
def TWIN_TAKEOVER_CNT : Nat := 0x1700D0
def TWIN_TAKEBACK_CNT : Nat := 0x1700D4
def TWIN_MUTE_UR : Nat := 0x1700D8
def TWIN_PUNTY_BAD : Nat := 0x1700DC
def LEHR_CTRL : Nat := 0x180080
def LEHR_LEVELS : Nat := 0x180084
def LEHR_RISE : Nat := 0x180088
def LEHR_STAT : Nat := 0x18008C
def LEHR_FREQ : Nat := 0x180090
def LEHR_CMD : Nat := 0x180094
def LEHR_FAILED : Nat := 0x180098
def LEHR_HOTTEST : Nat := 0x18009C
def LEHR_DER_BUF : Nat := 0x1800A0
def LEHR_THR_MS_LO : Nat := 0x1800A8
def LEHR_THR_MS_HI : Nat := 0x1800AC
def LEHR_DERATED : Nat := 0x1800B0
def LEHR_CL_TEMP (i : Nat) : Nat := 0x180100 + i * 0x10
def LEHR_CL_CFG (i : Nat) : Nat := 0x180104 + i * 0x10
def LEHR_CL_STAT (i : Nat) : Nat := 0x180108 + i * 0x10
def LEHR_SENSOR (i : Nat) : Nat := 0x180200 + i * 0x4
def LEHR_PROF_A (i : Nat) : Nat := 0x180300 + i * 0x8
def LEHR_PROF_B (i : Nat) : Nat := 0x180304 + i * 0x8
def CAL_CMD : Nat := 0x181080
def CAL_STAT : Nat := 0x181084
def CAL_REF_CFG : Nat := 0x181088
def CAL_REF_PPB : Nat := 0x18108C
def CAL_REF_STAT : Nat := 0x181090
def CAL_TB_PPB : Nat := 0x181094
def CAL_TRIM_PPB : Nat := 0x181098
def CAL_EXTREF_UV : Nat := 0x18109C
def CAL_RES_LIMIT : Nat := 0x1810A0
def CAL_CAL_FRAME : Nat := 0x1810A4
def CAL_SENS_RES (i : Nat) : Nat := 0x181100 + i * 0x4
def LANE_CTRL (p : Nat) : Nat := 0x1A0080 + p * 0x1000
def LANE_STAT (p : Nat) : Nat := 0x1A0084 + p * 0x1000
def LANE_SLICE_USE (p : Nat) : Nat := 0x1A0088 + p * 0x1000
def LANE_SLICE_BAD (p : Nat) : Nat := 0x1A008C + p * 0x1000
def LANE_DLINE (p : Nat) : Nat := 0x1A0090 + p * 0x1000
def LANE_EYE (p : Nat) : Nat := 0x1A0094 + p * 0x1000
def LANE_EYE_MIN (p : Nat) : Nat := 0x1A0098 + p * 0x1000
def LANE_CAL_CNT (p : Nat) : Nat := 0x1A009C + p * 0x1000
def GAFFER_BOOT_STAT : Nat := 0x008080
def GAFFER_FW_VER : Nat := 0x008084
def GAFFER_SLOT_STAT (i : Nat) : Nat := 0x008088 + i * 0x4
def GAFFER_SLOT_VER (i : Nat) : Nat := 0x008098 + i * 0x4
def GAFFER_UPD_STAT : Nat := 0x0080A4
def GAFFER_SET_STAT : Nat := 0x0080A8
def GAFFER_SET_GEN : Nat := 0x0080AC
def GAFFER_MBX_CFG : Nat := 0x0080B0
def GAFFER_MBX_DOORBELL : Nat := 0x0080B4
def GAFFER_MBX_STAT : Nat := 0x0080B8
def GAFFER_JACK_STAT : Nat := 0x0080BC
def GAFFER_WD_LAST : Nat := 0x0080C0
def GAFFER_WDOG_CNT : Nat := 0x0080C4
def GAFFER_MG_DROP : Nat := 0x0080C8
def GAFFER_MBX_REQ (i : Nat) : Nat := 0x008400 + i * 0x4
def GAFFER_MBX_RSP (i : Nat) : Nat := 0x008800 + i * 0x4
def HOST_BAR2_BASE_LO : Nat := 0x004080
def HOST_BAR2_BASE_HI : Nat := 0x004084
def HOST_LINK_STAT : Nat := 0x004088
def HOST_CE_CNT : Nat := 0x00408C
def HOST_UE_CNT : Nat := 0x004090
def HOST_FLR_CNT : Nat := 0x004094
def KEEP_SEC_LO : Nat := 0x002080
def KEEP_SEC_HI : Nat := 0x002084
def KEEP_STAT : Nat := 0x002088
def KEEP_TAMPER_CFG : Nat := 0x00208C
def KEEP_LOG0 : Nat := 0x002090
def KEEP_LOG1 : Nat := 0x002094
def KEEP_LOG2 : Nat := 0x002098
def KEEP_LOG3 : Nat := 0x00209C
def KEEP_LOG_LOST : Nat := 0x0020A0
def KEEP_RETAIN (i : Nat) : Nat := 0x002100 + i * 0x4
def GLORY_CTRL : Nat := 0x190080
def GLORY_STAT : Nat := 0x190084
def GLORY_LAST : Nat := 0x190088
def GLORY_LAST_PATTERNS : Nat := 0x19008C
def GLORY_MISR_LO : Nat := 0x190090
def GLORY_MISR_HI : Nat := 0x190094
def GLORY_FAIL_MEM : Nat := 0x190098
def GLORY_FAIL_ADDR : Nat := 0x19009C
def GLORY_REPAIR : Nat := 0x1900A0
def GLORY_REPAIR_IDX : Nat := 0x1900A4
def GLORY_REPAIR_STAT : Nat := 0x1900A8
def GLORY_INFO_SEL : Nat := 0x1900AC
def GLORY_INFO : Nat := 0x1900B0
def GLORY_REFUSED : Nat := 0x1900B4
def GLORY_REF_PAGE : Nat := 0x1900B8
def GLORY_SLICE_CNT : Nat := 0x1900BC
def GLORY_FAIL_CNT : Nat := 0x1900C0
def GLORY_ABORT_CNT : Nat := 0x1900C4
def GLORY_INCOMPLETE_CNT : Nat := 0x1900C8
def LIFE_STATE : Nat := 0x191080
def LIFE_KEYS : Nat := 0x191084
def LIFE_MIN_SEC_VER : Nat := 0x191088
def LIFE_ADVANCE : Nat := 0x19108C
def LIFE_REVOKE : Nat := 0x191090
def LIFE_SEC_BUMP : Nat := 0x191094
def LIFE_FUSE_STAT : Nat := 0x191098
def DEBUG_INJ_CTRL : Nat := 0x192080
def DEBUG_FREEZE : Nat := 0x192084
def DEBUG_FRZ_CFG : Nat := 0x192088
def DEBUG_INJ_TAKEN : Nat := 0x19208C
def DEBUG_INJ_LAST : Nat := 0x192090
def DMX_TIMED_OUT : Nat := 0x148080
def TRIG_TRIG_STAT : Nat := 0x162080
def TRIG_MISSED : Nat := 0x162084
end A

namespace F
def CLK_PLL_STAT_LOCKED : Fld := ⟨6, 0⟩
def CLK_FREQ_SEL_PORT : Fld := ⟨22, 16⟩
def CLK_FREQ_SEL_DOMAIN : Fld := ⟨3, 0⟩
def CLK_FREQ_HZ_HZ : Fld := ⟨31, 0⟩
def CLK_LOCK_LOST_COUNT : Fld := ⟨31, 0⟩
def CLK_REF_MOVES_COUNT : Fld := ⟨31, 0⟩
def SYS_PART_ID_PART : Fld := ⟨31, 0⟩
def SYS_PART_REV_STEP_MAJOR : Fld := ⟨31, 24⟩
def SYS_PART_REV_STEP_MINOR : Fld := ⟨23, 16⟩
def SYS_PART_REV_IF_GEN : Fld := ⟨15, 8⟩
def SYS_COMMIT_EPOCH : Fld := ⟨31, 0⟩
def SYS_COMMIT_STAT_SCHED_FRAME : Fld := ⟨31, 0⟩
def SYS_EPOCH_APPLIED_EPOCH : Fld := ⟨31, 0⟩
def SYS_EPOCH_FRAME_FRAME : Fld := ⟨31, 0⟩
def SYS_COMMIT_CUTOFF_CUTOFF_US : Fld := ⟨10, 0⟩
def SYS_SHADOW_CTRL_STAT_SEL : Fld := ⟨1, 1⟩
def SYS_SHADOW_CTRL_REVERT : Fld := ⟨0, 0⟩
def SYS_SNAP_HOLD : Fld := ⟨1, 1⟩
def SYS_SNAP_REQ : Fld := ⟨0, 0⟩
def SYS_SNAP_STAT_SEQ : Fld := ⟨31, 24⟩
def SYS_SNAP_STAT_STALE : Fld := ⟨23, 16⟩
def SYS_SNAP_STAT_FRAME : Fld := ⟨15, 0⟩
def SYS_FRAME_NUM_FRAME : Fld := ⟨31, 0⟩
def SYS_FABRIC_TIMEOUT_TIMEOUT_US : Fld := ⟨10, 0⟩
def SYS_RESET_KEY : Fld := ⟨31, 16⟩
def SYS_RESET_WARM : Fld := ⟨0, 0⟩
def SYS_RESET_CAUSE_FREEZE : Fld := ⟨4, 4⟩
def SYS_RESET_CAUSE_WATCHDOG : Fld := ⟨3, 3⟩
def SYS_RESET_CAUSE_WARM : Fld := ⟨2, 2⟩
def SYS_RESET_CAUSE_PIN : Fld := ⟨1, 1⟩
def SYS_RESET_CAUSE_POR : Fld := ⟨0, 0⟩
def SYS_UNMAPPED_COUNT : Fld := ⟨31, 16⟩
def SYS_UNMAPPED_PAGE : Fld := ⟨11, 0⟩
def SYS_SETTINGS_STAT_SETTINGS_CONFLICT : Fld := ⟨0, 0⟩
def SYS_INT_PEND_PEND : Fld := ⟨31, 0⟩
def SYS_VEC_EOI_VECTOR : Fld := ⟨5, 0⟩
def SYS_VEC_SEL_EN : Fld := ⟨31, 31⟩
def SYS_VEC_SEL_VECTOR : Fld := ⟨5, 0⟩
def MEM_MEM_SIZE_GIB : Fld := ⟨15, 0⟩
def MEM_POOL_BASE_GRANULE : Fld := ⟨18, 0⟩
def MEM_RD_BYTES_LO_BYTES : Fld := ⟨31, 0⟩
def MEM_RD_BYTES_HI_BYTES : Fld := ⟨31, 0⟩
def MEM_WR_BYTES_LO_BYTES : Fld := ⟨31, 0⟩
def MEM_WR_BYTES_HI_BYTES : Fld := ⟨31, 0⟩
def MEM_ECC_CE_CNT_COUNT : Fld := ⟨31, 0⟩
def MEM_ECC_UE_CNT_COUNT : Fld := ⟨31, 0⟩
def MEM_UE_ADDR_LO_ADDR : Fld := ⟨31, 0⟩
def MEM_UE_ADDR_HI_ADDR : Fld := ⟨2, 0⟩
def LEASE_BUF_SEL_BUF : Fld := ⟨11, 0⟩
def LEASE_BUF_BASE_GRANULE : Fld := ⟨18, 0⟩
def LEASE_BUF_SIZE_GRANULES : Fld := ⟨18, 0⟩
def LEASE_BUF_ATTR_HOSTFILL : Fld := ⟨0, 0⟩
def LEASE_BUF_CMD_OP : Fld := ⟨2, 0⟩
def LEASE_BUF_RESULT_RESULT : Fld := ⟨31, 28⟩
def LEASE_BUF_RESULT_OTHER : Fld := ⟨23, 12⟩
def LEASE_BUF_RESULT_STATE : Fld := ⟨2, 0⟩
def LEASE_BUF_WGEN_WGEN : Fld := ⟨31, 0⟩
def LEASE_BUF_REFS_REFS : Fld := ⟨15, 0⟩
def LEASE_FREE_DONE_VALID : Fld := ⟨31, 31⟩
def LEASE_FREE_DONE_BUF : Fld := ⟨11, 0⟩
def LEASE_FREE_LOST_COUNT : Fld := ⟨15, 0⟩
def LEASE_VIOL_ADDR_LO_ADDR : Fld := ⟨31, 0⟩
def LEASE_VIOL_ADDR_HI_ADDR : Fld := ⟨2, 0⟩
def LEASE_VIOL_INFO_WRITE : Fld := ⟨31, 31⟩
def LEASE_VIOL_INFO_REGION : Fld := ⟨30, 28⟩
def LEASE_VIOL_INFO_GAFFER : Fld := ⟨12, 12⟩
def LEASE_VIOL_INFO_BUF : Fld := ⟨11, 0⟩
def LEASE_VIOL_CNT_COUNT : Fld := ⟨31, 0⟩
def RASTER_LAYER_BUF_BUF : Fld := ⟨11, 0⟩
def RASTER_LAYER_ORG_Y0 : Fld := ⟨27, 16⟩
def RASTER_LAYER_ORG_X0 : Fld := ⟨11, 0⟩
def RASTER_LAYER_EXT_H : Fld := ⟨28, 16⟩
def RASTER_LAYER_EXT_W : Fld := ⟨12, 0⟩
def RASTER_LAYER_USED_H_USED : Fld := ⟨28, 16⟩
def RASTER_LAYER_USED_W_USED : Fld := ⟨12, 0⟩
def RASTER_SUBST_CNT_COUNT : Fld := ⟨31, 0⟩
def MAPS_MAP_SET_FIX_BUF : Fld := ⟨27, 16⟩
def MAPS_MAP_SET_CELL_BUF : Fld := ⟨11, 0⟩
def MAPS_BUILD_CMD_GO : Fld := ⟨31, 31⟩
def MAPS_BUILD_CMD_FIX : Fld := ⟨27, 16⟩
def MAPS_BUILD_CMD_CELL : Fld := ⟨11, 0⟩
def MAPS_BUILD_STAT_STATE : Fld := ⟨31, 30⟩
def MAPS_BUILD_STAT_REASON : Fld := ⟨27, 24⟩
def MAPS_BUILD_STAT_PROGRESS : Fld := ⟨18, 0⟩
def MAPS_FAIL_FIX_FIX : Fld := ⟨17, 0⟩
def MAPS_PRIOR_FIX_FIX : Fld := ⟨17, 0⟩
def MAPS_FAIL_CELL_CELL : Fld := ⟨23, 0⟩
def MAPS_CLIP_COUNT_COUNT : Fld := ⟨18, 0⟩
def MAPS_CLIP_LAST_USED : Fld := ⟨28, 18⟩
def MAPS_CLIP_LAST_FIX : Fld := ⟨17, 0⟩
def MAPS_OWNED_CELLS : Fld := ⟨24, 0⟩
def MAPS_PROFILE_A_CODES : Fld := ⟨31, 0⟩
def MAPS_PROFILE_B_PERIOD : Fld := ⟨3, 0⟩
def SCHED_CTRL_EN : Fld := ⟨31, 31⟩
def SCHED_CTRL_CLOSE_AT : Fld := ⟨7, 0⟩
def SCHED_AFF_WINDOW_NS : Fld := ⟨15, 0⟩
def SCHED_DESC_BUF_BUF : Fld := ⟨11, 0⟩
def SCHED_STATE_BUF_BUF : Fld := ⟨11, 0⟩
def SCHED_TC_CTRL_SRC : Fld := ⟨31, 30⟩
def SCHED_TC_CTRL_RATE : Fld := ⟨29, 28⟩
def SCHED_TC_CTRL_JUMP : Fld := ⟨7, 0⟩
def SCHED_TC_NOW_TC : Fld := ⟨31, 0⟩
def SCHED_SLOT_CMD_OP : Fld := ⟨31, 28⟩
def SCHED_SLOT_CMD_PFLAGS : Fld := ⟨23, 16⟩
def SCHED_SLOT_CMD_SLOT : Fld := ⟨11, 0⟩
def SCHED_SLOT_RESULT_RESULT : Fld := ⟨31, 28⟩
def SCHED_SLOT_RESULT_STATE : Fld := ⟨27, 24⟩
def SCHED_SLOT_RESULT_LB_VALID : Fld := ⟨23, 23⟩
def SCHED_SLOT_RESULT_LAST_BENCH : Fld := ⟨22, 19⟩
def SCHED_SLOT_RESULT_STATUS : Fld := ⟨18, 16⟩
def SCHED_SLOT_RESULT_PFLAGS : Fld := ⟨15, 8⟩
def SCHED_SLOT_FRAME_FRAME : Fld := ⟨31, 0⟩
def SCHED_GFLAG_LO_FLAGS : Fld := ⟨31, 0⟩
def SCHED_GFLAG_HI_FLAGS : Fld := ⟨31, 0⟩
def SCHED_GSET_LO_SET : Fld := ⟨31, 0⟩
def SCHED_GSET_HI_SET : Fld := ⟨31, 0⟩
def SCHED_GCLR_LO_CLR : Fld := ⟨31, 0⟩
def SCHED_GCLR_HI_CLR : Fld := ⟨31, 0⟩
def SCHED_WATCH_LO_WATCH : Fld := ⟨31, 0⟩
def SCHED_WATCH_HI_WATCH : Fld := ⟨31, 0⟩
def SCHED_RISEN_LO_RISEN : Fld := ⟨31, 0⟩
def SCHED_RISEN_HI_RISEN : Fld := ⟨31, 0⟩
def SCHED_DISPATCHED_COUNT : Fld := ⟨31, 0⟩
def SCHED_AFF_HIT_COUNT : Fld := ⟨31, 0⟩
def SCHED_AFF_MISS_COUNT : Fld := ⟨31, 0⟩
def SCHED_LATE_CNT_COUNT : Fld := ⟨31, 0⟩
def SCHED_DEFERRED_COUNT : Fld := ⟨31, 0⟩
def SCHED_INVALID_CNT_COUNT : Fld := ⟨31, 0⟩
def SCHED_CANCEL_RACE_COUNT : Fld := ⟨31, 0⟩
def SCHED_OCC_READY : Fld := ⟨28, 16⟩
def SCHED_OCC_DELAYED : Fld := ⟨12, 0⟩
def SCHED_TABLE_CHK_BAD : Fld := ⟨31, 31⟩
def SCHED_TABLE_CHK_COUNT : Fld := ⟨28, 16⟩
def SCHED_TABLE_CHK_FIRST : Fld := ⟨11, 0⟩
def SCHED_LAYER_STAT_OPEN : Fld := ⟨31, 31⟩
def SCHED_LAYER_STAT_LATE : Fld := ⟨30, 30⟩
def SCHED_LAYER_STAT_CLOSE_US : Fld := ⟨15, 0⟩
def SCHED_TC_VAL_TC : Fld := ⟨31, 0⟩
def SCHED_TC_ACT_EN : Fld := ⟨31, 31⟩
def SCHED_TC_ACT_ACT : Fld := ⟨30, 30⟩
def SCHED_TC_ACT_FLAG : Fld := ⟨17, 12⟩
def SCHED_TC_ACT_SLOT : Fld := ⟨11, 0⟩
def BENCH_STAT_BUSY : Fld := ⟨31, 31⟩
def BENCH_STAT_HIT : Fld := ⟨30, 30⟩
def BENCH_STAT_SLOT : Fld := ⟨11, 0⟩
def BENCH_CUR_FRAME_FRAME : Fld := ⟨31, 0⟩
def BENCH_LAST_USED_POSITIONS : Fld := ⟨23, 0⟩
def BENCH_CELLS_COUNT : Fld := ⟨31, 0⟩
def BENCH_BUSY_CYC_LO_CYCLES : Fld := ⟨31, 0⟩
def BENCH_BUSY_CYC_HI_CYCLES : Fld := ⟨31, 0⟩
def BENCH_JOBS_COUNT : Fld := ⟨31, 0⟩
def BENCH_STATE_HIT_COUNT : Fld := ⟨31, 0⟩
def BENCH_STATE_MISS_COUNT : Fld := ⟨31, 0⟩
def BENCH_SRC_OOR_COUNT : Fld := ⟨31, 0⟩
def BENCH_LS_CE_CNT_COUNT : Fld := ⟨31, 0⟩
def BENCH_LS_UE_ADDR_WORD : Fld := ⟨14, 0⟩
def INGEST_CTRL_EN : Fld := ⟨31, 31⟩
def INGEST_CTRL_DEFAULT_Q : Fld := ⟨19, 16⟩
def INGEST_CTRL_DQ_EN : Fld := ⟨8, 8⟩
def INGEST_UMAP_BUF_BUF : Fld := ⟨11, 0⟩
def INGEST_UVAL_BUF_BUF : Fld := ⟨11, 0⟩
def INGEST_TC_FLOW_FLOW : Fld := ⟨7, 0⟩
def INGEST_VIDEO_FLOWS_EXCESS : Fld := ⟨31, 31⟩
def INGEST_VIDEO_FLOWS_COUNT : Fld := ⟨8, 0⟩
def INGEST_VID_MBPS_MBPS : Fld := ⟨16, 0⟩
def INGEST_UNMATCHED_COUNT : Fld := ⟨31, 0⟩
def INGEST_SRC_OVER_COUNT : Fld := ⟨31, 0⟩
def INGEST_SRC_OVER_IDX_INDEX : Fld := ⟨15, 0⟩
def INGEST_UMAP_BAD_INDEX : Fld := ⟨15, 0⟩
def FLOW_GUARD_FLOW_FLOW : Fld := ⟨3, 0⟩
def FLOW_TIMED_OUT_FLOWS : Fld := ⟨15, 0⟩
def FLOW_CFG_TYPE : Fld := ⟨31, 29⟩
def FLOW_CFG_POLICY : Fld := ⟨28, 27⟩
def FLOW_CFG_FLAGS_EN : Fld := ⟨26, 26⟩
def FLOW_CFG_PATCH : Fld := ⟨25, 25⟩
def FLOW_CFG_PORTS : Fld := ⟨23, 20⟩
def FLOW_CFG_MG : Fld := ⟨19, 19⟩
def FLOW_CFG_QUEUE : Fld := ⟨15, 12⟩
def FLOW_CFG_VLAN : Fld := ⟨11, 0⟩
def FLOW_DST_IP_ADDR : Fld := ⟨31, 0⟩
def FLOW_DST_IP2_ADDR : Fld := ⟨31, 0⟩
def FLOW_SRC_IP_ADDR : Fld := ⟨31, 0⟩
def FLOW_PORT_DST_PORT : Fld := ⟨15, 0⟩
def FLOW_TIMEOUT_FADE_FRAMES : Fld := ⟨31, 16⟩
def FLOW_TIMEOUT_TIMEOUT_MS : Fld := ⟨15, 0⟩
def FLOW_SAFE_LO_Y : Fld := ⟨31, 16⟩
def FLOW_SAFE_LO_X : Fld := ⟨15, 0⟩
def FLOW_SAFE_HI_SLOT : Fld := ⟨31, 24⟩
def FLOW_SAFE_HI_Z : Fld := ⟨15, 0⟩
def FLOW_VSIZE_H : Fld := ⟨28, 16⟩
def FLOW_VSIZE_W : Fld := ⟨12, 0⟩
def FLOW_VFMT_SAMPLING : Fld := ⟨31, 30⟩
def FLOW_VFMT_DEPTH : Fld := ⟨29, 29⟩
def FLOW_VFMT_STORE420 : Fld := ⟨28, 28⟩
def FLOW_VFMT_FULL : Fld := ⟨27, 27⟩
def FLOW_VFMT_TRANSFER : Fld := ⟨26, 25⟩
def FLOW_VFMT_MATRIX : Fld := ⟨24, 24⟩
def FLOW_VFMT_REF_WHITE : Fld := ⟨13, 0⟩
def FLOW_GAIN_GAIN : Fld := ⟨31, 0⟩
def FLOW_BUF_NSLOT : Fld := ⟨19, 16⟩
def FLOW_BUF_BUF : Fld := ⟨11, 0⟩
def FLOW_HOST_BUF0_BUF : Fld := ⟨11, 0⟩
def FLOW_HOST_BUF1_BUF : Fld := ⟨11, 0⟩
def FLOW_HOST_BUF2_BUF : Fld := ⟨11, 0⟩
def FLOW_HOST_BUF3_BUF : Fld := ⟨11, 0⟩
def FLOW_HOST_POST_TAG : Fld := ⟨31, 16⟩
def FLOW_HOST_POST_SLOT : Fld := ⟨1, 0⟩
def FLOW_STAT_VALID : Fld := ⟨31, 31⟩
def FLOW_STAT_TIMED_OUT : Fld := ⟨30, 30⟩
def FLOW_STAT_FADING : Fld := ⟨29, 29⟩
def FLOW_STAT_HOST_FREE : Fld := ⟨27, 24⟩
def FLOW_STAT_BOUND : Fld := ⟨21, 20⟩
def FLOW_STAT_NEWEST : Fld := ⟨17, 16⟩
def FLOW_UNITS_COUNT : Fld := ⟨31, 0⟩
def FLOW_LOST_COUNT : Fld := ⟨31, 0⟩
def FLOW_DAMAGED_COUNT : Fld := ⟨31, 0⟩
def FLOW_DISCARD_COUNT : Fld := ⟨31, 0⟩
def FLOW_LAST_FRAME_FRAME : Fld := ⟨31, 0⟩
def FLOW_SLOTS_USED_SLOTS : Fld := ⟨2, 0⟩
def SAMPLER_SRC_FLOW_EN : Fld := ⟨31, 31⟩
def SAMPLER_SRC_FLOW_FLOW : Fld := ⟨7, 0⟩
def SAMPLER_MSRC_SIZE_H : Fld := ⟨28, 16⟩
def SAMPLER_MSRC_SIZE_W : Fld := ⟨12, 0⟩
def SAMPLER_MSRC_FMT_FMT : Fld := ⟨31, 0⟩
def SAMPLER_MSRC_GAIN_GAIN : Fld := ⟨31, 0⟩
def SAMPLER_TAPS_LO_TAPS : Fld := ⟨31, 0⟩
def SAMPLER_TAPS_HI_TAPS : Fld := ⟨31, 0⟩
def SAMPLER_CELLS_COUNT : Fld := ⟨31, 0⟩
def SAMPLER_NO_FRAME_COUNT : Fld := ⟨31, 0⟩
def SAMPLER_OUTSIDE_COUNT : Fld := ⟨31, 0⟩
def SAMPLER_SKIPPED_COUNT : Fld := ⟨31, 0⟩
def SAMPLER_GRANT_WAIT_LO_CYCLES : Fld := ⟨31, 0⟩
def SAMPLER_GRANT_WAIT_HI_CYCLES : Fld := ⟨31, 0⟩
def MARVER_CTRL_EN : Fld := ⟨31, 31⟩
def MARVER_CTRL_PLAN_LIMIT : Fld := ⟨8, 0⟩
def MARVER_BASE_RAW_LO_CELL : Fld := ⟨31, 0⟩
def MARVER_BASE_RAW_HI_CELL : Fld := ⟨31, 0⟩
def MARVER_STAT_BUSY : Fld := ⟨31, 31⟩
def MARVER_STAT_CUT : Fld := ⟨30, 30⟩
def MARVER_STAT_PASSES : Fld := ⟨28, 24⟩
def MARVER_STAT_STACK_N : Fld := ⟨20, 16⟩
def MARVER_STAT_APPLIED : Fld := ⟨15, 0⟩
def MARVER_SHED_SHED_MASK : Fld := ⟨31, 16⟩
def MARVER_SHED_CUT_MASK : Fld := ⟨15, 0⟩
def MARVER_LOAD_OPS : Fld := ⟨31, 0⟩
def MARVER_CAP_OPS : Fld := ⟨31, 0⟩
def MARVER_DONE_US_US : Fld := ⟨15, 0⟩
def MARVER_STOP_CELL_CELL : Fld := ⟨23, 0⟩
def MARVER_STACK_LO_ORDER : Fld := ⟨31, 0⟩
def MARVER_STACK_HI_ORDER : Fld := ⟨31, 0⟩
def MARVER_OPS_LO_OPS : Fld := ⟨31, 0⟩
def MARVER_OPS_HI_OPS : Fld := ⟨31, 0⟩
def MARVER_CUT_CNT_COUNT : Fld := ⟨31, 0⟩
def MARVER_SHED_CNT_COUNT : Fld := ⟨31, 0⟩
def MARVER_CLAMP_CNT_COUNT : Fld := ⟨31, 0⟩
def MARVER_LCFG_EN : Fld := ⟨31, 31⟩
def MARVER_LCFG_MASK_ONLY : Fld := ⟨30, 30⟩
def MARVER_LCFG_SHED_EN : Fld := ⟨29, 29⟩
def MARVER_LCFG_PRIO : Fld := ⟨27, 24⟩
def MARVER_LCFG_MODE : Fld := ⟨22, 20⟩
def MARVER_LCFG_MASK_EN : Fld := ⟨19, 19⟩
def MARVER_LCFG_MASK_SRC : Fld := ⟨18, 18⟩
def MARVER_LCFG_MASK_INV : Fld := ⟨17, 17⟩
def MARVER_LCFG_MASK_OUT : Fld := ⟨16, 16⟩
def MARVER_LCFG_MASK_LAYER : Fld := ⟨15, 12⟩
def MARVER_LCFG_RAW3 : Fld := ⟨7, 6⟩
def MARVER_LCFG_RAW2 : Fld := ⟨5, 4⟩
def MARVER_LCFG_RAW1 : Fld := ⟨3, 2⟩
def MARVER_LCFG_RAW0 : Fld := ⟨1, 0⟩
def MARVER_OPACITY_O : Fld := ⟨15, 0⟩
def MARVER_LSTAT_APPLIED : Fld := ⟨31, 31⟩
def MARVER_LSTAT_SHED : Fld := ⟨30, 30⟩
def MARVER_LSTAT_CUT : Fld := ⟨29, 29⟩
def MARVER_LSTAT_PASS : Fld := ⟨28, 25⟩
def MARVER_LSTAT_OPS : Fld := ⟨24, 0⟩
def SOLVER_CTRL_EN : Fld := ⟨31, 31⟩
def SOLVER_CTRL_SOLVE_LIMIT : Fld := ⟨8, 0⟩
def SOLVER_ETAB_BUF_BUF : Fld := ⟨11, 0⟩
def SOLVER_DRV_BUF_BUF : Fld := ⟨11, 0⟩
def SOLVER_CUR_BUF_BUF : Fld := ⟨11, 0⟩
def SOLVER_STAT_BUSY : Fld := ⟨31, 31⟩
def SOLVER_STAT_CUT : Fld := ⟨30, 30⟩
def SOLVER_STAT_SKIPPED : Fld := ⟨29, 29⟩
def SOLVER_STAT_BUF : Fld := ⟨25, 24⟩
def SOLVER_FRAME_FRAME : Fld := ⟨31, 0⟩
def SOLVER_SERVED_CELLS : Fld := ⟨24, 0⟩
def SOLVER_CAP_CELLS : Fld := ⟨31, 0⟩
def SOLVER_SHED_CELLS_CELLS : Fld := ⟨24, 0⟩
def SOLVER_FRONTIER_CELL : Fld := ⟨24, 0⟩
def SOLVER_STOP_CELL_CELL : Fld := ⟨23, 0⟩
def SOLVER_DONE_US_US : Fld := ⟨15, 0⟩
def SOLVER_CELLS_LO_CELLS : Fld := ⟨31, 0⟩
def SOLVER_CELLS_HI_CELLS : Fld := ⟨31, 0⟩
def SOLVER_GAMUT_CHROMA_COUNT : Fld := ⟨31, 0⟩
def SOLVER_GAMUT_LUM_COUNT : Fld := ⟨31, 0⟩
def SOLVER_FALLBACK_COUNT : Fld := ⟨31, 0⟩
def SOLVER_BAD_TABLE_COUNT : Fld := ⟨31, 0⟩
def SOLVER_NOCOMP_COUNT : Fld := ⟨31, 0⟩
def SOLVER_DUTY_LOW_COUNT : Fld := ⟨31, 0⟩
def SOLVER_DROOP_CLAMP_COUNT : Fld := ⟨31, 0⟩
def SOLVER_SHED_CNT_COUNT : Fld := ⟨31, 0⟩
def SOLVER_CUT_CNT_COUNT : Fld := ⟨31, 0⟩
def SOLVER_SKIP_CNT_COUNT : Fld := ⟨31, 0⟩
def SOLVER_BAD_LAST_REASON : Fld := ⟨31, 28⟩
def SOLVER_BAD_LAST_TABLE : Fld := ⟨15, 0⟩
def SOLVER_NOCOMP_FIX_FIX : Fld := ⟨17, 0⟩
def CLOOP_CTRL_EN : Fld := ⟨31, 31⟩
def CLOOP_CTRL_TAU_S : Fld := ⟨21, 16⟩
def CLOOP_CTRL_MIN_Y : Fld := ⟨15, 0⟩
def CLOOP_GAIN_BUF_BUF : Fld := ⟨11, 0⟩
def CLOOP_CMD_OP : Fld := ⟨31, 28⟩
def CLOOP_CMD_FIX : Fld := ⟨17, 0⟩
def CLOOP_STAT_BUSY : Fld := ⟨31, 31⟩
def CLOOP_STAT_PENDING : Fld := ⟨16, 0⟩
def CLOOP_ACCEPTED_COUNT : Fld := ⟨31, 0⟩
def CLOOP_STALE_COUNT : Fld := ⟨31, 0⟩
def CLOOP_HELD_COUNT : Fld := ⟨31, 0⟩
def CLOOP_REJECTED_COUNT : Fld := ⟨31, 0⟩
def CLOOP_DROPPED_COUNT : Fld := ⟨31, 0⟩
def CLOOP_LIMIT_CNT_COUNT : Fld := ⟨31, 0⟩
def CLOOP_LIMIT_EMIT_EMIT : Fld := ⟨20, 0⟩
def CLOOP_REJ_LAST_REASON : Fld := ⟨31, 28⟩
def CLOOP_REJ_LAST_FIX : Fld := ⟨17, 0⟩
def SCAN_CTRL_EN : Fld := ⟨31, 31⟩
def SCAN_CTRL_CLASS : Fld := ⟨30, 30⟩
def SCAN_CTRL_SYNC : Fld := ⟨29, 29⟩
def SCAN_CTRL_SRC : Fld := ⟨28, 28⟩
def SCAN_CTRL_LOCK : Fld := ⟨27, 27⟩
def SCAN_CTRL_UR_AT : Fld := ⟨15, 8⟩
def SCAN_CTRL_ACTIVE : Fld := ⟨7, 0⟩
def SCAN_LMAP_BUF_BUF : Fld := ⟨11, 0⟩
def SCAN_PERIOD_NS : Fld := ⟨31, 0⟩
def SCAN_PHASE_NS : Fld := ⟨31, 0⟩
def SCAN_LAMP_LATCH_NS : Fld := ⟨31, 0⟩
def SCAN_LATCH_USED_NS : Fld := ⟨31, 0⟩
def SCAN_DIRECT_BASE_CUR : Fld := ⟨27, 16⟩
def SCAN_DIRECT_BASE_DRV : Fld := ⟨11, 0⟩
def SCAN_BASE_TAKEN_FRAME : Fld := ⟨31, 0⟩
def SCAN_BASE_NOW_CUR : Fld := ⟨27, 16⟩
def SCAN_BASE_NOW_DRV : Fld := ⟨11, 0⟩
def SCAN_STAT_RUNNING : Fld := ⟨31, 31⟩
def SCAN_STAT_LOCKED : Fld := ⟨30, 30⟩
def SCAN_STAT_LOCK_BAD : Fld := ⟨29, 29⟩
def SCAN_STAT_LOSS : Fld := ⟨28, 28⟩
def SCAN_STAT_BUF : Fld := ⟨25, 24⟩
def SCAN_SRC_FRAME_FRAME : Fld := ⟨31, 0⟩
def SCAN_ENG_FRAME_FRAME : Fld := ⟨31, 0⟩
def SCAN_PT_SEC_LO_SEC : Fld := ⟨31, 0⟩
def SCAN_PT_SEC_HI_SEC : Fld := ⟨31, 0⟩
def SCAN_PT_NS_NS : Fld := ⟨29, 0⟩
def SCAN_CELLS_LO_CELLS : Fld := ⟨31, 0⟩
def SCAN_CELLS_HI_CELLS : Fld := ⟨31, 0⟩
def SCAN_UNDERRUN_COUNT : Fld := ⟨31, 0⟩
def SCAN_HOLD_FIX_COUNT : Fld := ⟨31, 0⟩
def SCAN_LOSS_CNT_COUNT : Fld := ⟨31, 0⟩
def SCAN_LATE_CNT_COUNT : Fld := ⟨31, 0⟩
def SCAN_REPEAT_CNT_COUNT : Fld := ⟨31, 0⟩
def SCAN_SKIP_ENTRY_COUNT : Fld := ⟨31, 0⟩
def SCAN_BASE_DROP_COUNT : Fld := ⟨31, 0⟩
def SCAN_LMAP_LEN_LEN : Fld := ⟨12, 0⟩
def SCAN_LINK_TRIM_NS : Fld := ⟨15, 0⟩
def SCAN_LMAP_USED_LEN : Fld := ⟨12, 0⟩
def SCAN_PATH_DLY_VALID : Fld := ⟨31, 31⟩
def SCAN_PATH_DLY_NS : Fld := ⟨23, 0⟩
def SCAN_LAST_TX_US : Fld := ⟨15, 0⟩
def SCAN_SENT_FIX_COUNT : Fld := ⟨31, 0⟩
def SCAN_LATE_FIX_COUNT : Fld := ⟨31, 0⟩
def SCAN_GAP_CNT_COUNT : Fld := ⟨31, 0⟩
def SCAN0_LATCH_DELAY_NS : Fld := ⟨31, 0⟩
def SCAN0_LATCH_USED_NS : Fld := ⟨31, 0⟩
def SCAN0_ARRIVE_GUARD_US : Fld := ⟨13, 0⟩
def SCAN0_PATH_MAX_LINK : Fld := ⟨29, 24⟩
def SCAN0_PATH_MAX_NS : Fld := ⟨23, 0⟩
def TUIPER_CTRL_EN : Fld := ⟨31, 31⟩
def TUIPER_CTRL_UDP : Fld := ⟨30, 30⟩
def TUIPER_CTRL_VLAN_EN : Fld := ⟨29, 29⟩
def TUIPER_CTRL_VLAN : Fld := ⟨27, 16⟩
def TUIPER_CTRL_ETYPE : Fld := ⟨15, 0⟩
def TUIPER_DA_HI_OCT01 : Fld := ⟨15, 0⟩
def TUIPER_DA_LO_OCT234 : Fld := ⟨23, 0⟩
def TUIPER_UDP_GROUP_ADDR : Fld := ⟨31, 0⟩
def TUIPER_UDP_CFG_TTL : Fld := ⟨23, 16⟩
def TUIPER_UDP_CFG_PORT : Fld := ⟨15, 0⟩
def TUIPER_TX_PAYLOAD_BYTES : Fld := ⟨13, 0⟩
def TUIPER_FLUSH_NS_NS : Fld := ⟨15, 0⟩
def TUIPER_CUR_CFG_REFRESH : Fld := ⟨31, 16⟩
def TUIPER_CUR_CFG_REPEAT : Fld := ⟨3, 0⟩
def TUIPER_TEL_TIMEOUT_MS : Fld := ⟨15, 0⟩
def TUIPER_SUP_BUF_BUF : Fld := ⟨11, 0⟩
def TUIPER_QSEL_TEL_EN : Fld := ⟨31, 31⟩
def TUIPER_QSEL_TEL_Q : Fld := ⟨27, 24⟩
def TUIPER_QSEL_HK_Q : Fld := ⟨3, 0⟩
def TUIPER_SESSION_SESSION : Fld := ⟨15, 0⟩
def TUIPER_TX_CMD_TYPE : Fld := ⟨31, 28⟩
def TUIPER_TX_CMD_LINK : Fld := ⟨21, 16⟩
def TUIPER_TX_CMD_WORDS : Fld := ⟨8, 0⟩
def TUIPER_TX_STAT_BUSY : Fld := ⟨31, 31⟩
def TUIPER_TX_STAT_RESULT : Fld := ⟨30, 28⟩
def TUIPER_FAULT_Q_VALID : Fld := ⟨31, 31⟩
def TUIPER_FAULT_Q_KIND : Fld := ⟨26, 24⟩
def TUIPER_FAULT_Q_EMIT : Fld := ⟨23, 21⟩
def TUIPER_FAULT_Q_FIX : Fld := ⟨17, 0⟩
def TUIPER_FAULT_LOST_COUNT : Fld := ⟨15, 0⟩
def TUIPER_TEL_RX_COUNT : Fld := ⟨31, 0⟩
def TUIPER_UP_BAD_COUNT : Fld := ⟨31, 0⟩
def TUIPER_TEL_OLD_COUNT : Fld := ⟨31, 0⟩
def TUIPER_TX_FRAMES_LO_FRAMES : Fld := ⟨31, 0⟩
def TUIPER_TX_FRAMES_HI_FRAMES : Fld := ⟨31, 0⟩
def TUIPER_STRIKE_CNT_COUNT : Fld := ⟨31, 0⟩
def TUIPER_CUR_CNT_COUNT : Fld := ⟨31, 0⟩
def TUIPER_SPLIT_CUT_COUNT : Fld := ⟨31, 0⟩
def TUIPER_FAULTS_FIXTURES : Fld := ⟨18, 0⟩
def TUIPER_TIME_NEG_COUNT : Fld := ⟨31, 0⟩
def TUIPER_TX_DATA_WORD : Fld := ⟨31, 0⟩
def SETS_CTRL_EN : Fld := ⟨31, 31⟩
def SETS_SET_BUF_BUF : Fld := ⟨11, 0⟩
def SETS_MEMB_BUF_BUF : Fld := ⟨11, 0⟩
def SETS_CHK_BAD : Fld := ⟨31, 31⟩
def SETS_CHK_DUP : Fld := ⟨30, 12⟩
def SETS_CHK_FIRST : Fld := ⟨11, 0⟩
def SETS_CMD_OP : Fld := ⟨31, 28⟩
def SETS_CMD_SET : Fld := ⟨11, 0⟩
def SETS_RESULT_RESULT : Fld := ⟨31, 28⟩
def SETS_RESULT_STATE : Fld := ⟨26, 24⟩
def SETS_RESULT_CAUSE : Fld := ⟨23, 20⟩
def SETS_RESULT_HOLD_CNT : Fld := ⟨15, 0⟩
def SETS_LAST_FAULT_FIX : Fld := ⟨17, 0⟩
def SETS_IN_FALLBACK_SETS : Fld := ⟨12, 0⟩
def SETS_TRANS_Q_VALID : Fld := ⟨31, 31⟩
def SETS_TRANS_Q_STATE : Fld := ⟨30, 28⟩
def SETS_TRANS_Q_FRAME : Fld := ⟨27, 12⟩
def SETS_TRANS_Q_SET : Fld := ⟨11, 0⟩
def SETS_TRANS_LOST_COUNT : Fld := ⟨15, 0⟩
def SETS_ENTER_CNT_COUNT : Fld := ⟨31, 0⟩
def PORT_MAC_CTRL_EN : Fld := ⟨31, 31⟩
def PORT_MAC_CTRL_KEEP_BAD : Fld := ⟨30, 30⟩
def PORT_MAC_CTRL_PROMISC : Fld := ⟨29, 29⟩
def PORT_MAC_CTRL_BCAST_EN : Fld := ⟨28, 28⟩
def PORT_MAC_CTRL_RX_PAUSE_EN : Fld := ⟨27, 27⟩
def PORT_MAC_CTRL_TX_PAUSE_EN : Fld := ⟨26, 26⟩
def PORT_MAC_CTRL_BAD_Q : Fld := ⟨23, 20⟩
def PORT_MAC_CTRL_MAX_FRAME : Fld := ⟨13, 0⟩
def PORT_PHY_CFG_MODE : Fld := ⟨31, 30⟩
def PORT_PHY_CFG_ADV : Fld := ⟨27, 24⟩
def PORT_MAC_ADDR_LO_ADDR : Fld := ⟨31, 0⟩
def PORT_MAC_ADDR_HI_ADDR : Fld := ⟨15, 0⟩
def PORT_UC_LO_ADDR_LO : Fld := ⟨31, 0⟩
def PORT_UC_HI_VALID : Fld := ⟨31, 31⟩
def PORT_UC_HI_ADDR_HI : Fld := ⟨15, 0⟩
def PORT_GHASH_BINS : Fld := ⟨31, 0⟩
def PORT_PAUSE_CFG_QUANTA : Fld := ⟨31, 16⟩
def PORT_PAUSE_CFG_PAUSE_Q : Fld := ⟨15, 0⟩
def PORT_STAT_LINK_UP : Fld := ⟨31, 31⟩
def PORT_STAT_XOFF : Fld := ⟨30, 30⟩
def PORT_STAT_HELD : Fld := ⟨29, 29⟩
def PORT_STAT_RATE : Fld := ⟨27, 24⟩
def PORT_IPV4_ADDR : Fld := ⟨31, 0⟩
def PORT_IPV4_CFG_PREFIX : Fld := ⟨5, 0⟩
def PORT_GW_ADDR : Fld := ⟨31, 0⟩
def PORT_RX_FRAMES_LO_COUNT : Fld := ⟨31, 0⟩
def PORT_RX_FRAMES_HI_COUNT : Fld := ⟨31, 0⟩
def PORT_RX_BYTES_LO_COUNT : Fld := ⟨31, 0⟩
def PORT_RX_BYTES_HI_COUNT : Fld := ⟨31, 0⟩
def PORT_TX_FRAMES_LO_COUNT : Fld := ⟨31, 0⟩
def PORT_TX_FRAMES_HI_COUNT : Fld := ⟨31, 0⟩
def PORT_TX_BYTES_LO_COUNT : Fld := ⟨31, 0⟩
def PORT_TX_BYTES_HI_COUNT : Fld := ⟨31, 0⟩
def PORT_RX_FCS_ERR_LO_COUNT : Fld := ⟨31, 0⟩
def PORT_RX_FCS_ERR_HI_COUNT : Fld := ⟨31, 0⟩
def PORT_RX_ALIGN_ERR_LO_COUNT : Fld := ⟨31, 0⟩
def PORT_RX_ALIGN_ERR_HI_COUNT : Fld := ⟨31, 0⟩
def PORT_RX_LEN_ERR_LO_COUNT : Fld := ⟨31, 0⟩
def PORT_RX_LEN_ERR_HI_COUNT : Fld := ⟨31, 0⟩
def PORT_RX_RUNT_LO_COUNT : Fld := ⟨31, 0⟩
def PORT_RX_RUNT_HI_COUNT : Fld := ⟨31, 0⟩
def PORT_RX_TRUNC_LO_COUNT : Fld := ⟨31, 0⟩
def PORT_RX_TRUNC_HI_COUNT : Fld := ⟨31, 0⟩
def PORT_TX_TRUNC_LO_COUNT : Fld := ⟨31, 0⟩
def PORT_TX_TRUNC_HI_COUNT : Fld := ⟨31, 0⟩
def PORT_RX_FILTERED_LO_COUNT : Fld := ⟨31, 0⟩
def PORT_RX_FILTERED_HI_COUNT : Fld := ⟨31, 0⟩
def PORT_RX_UNCLAIMED_LO_COUNT : Fld := ⟨31, 0⟩
def PORT_RX_UNCLAIMED_HI_COUNT : Fld := ⟨31, 0⟩
def PORT_RX_OVF_LO_COUNT : Fld := ⟨31, 0⟩
def PORT_RX_OVF_HI_COUNT : Fld := ⟨31, 0⟩
def PORT_PAUSE_RX_LO_COUNT : Fld := ⟨31, 0⟩
def PORT_PAUSE_RX_HI_COUNT : Fld := ⟨31, 0⟩
def PORT_PAUSE_TX_LO_COUNT : Fld := ⟨31, 0⟩
def PORT_PAUSE_TX_HI_COUNT : Fld := ⟨31, 0⟩
def PORT_TX_DOWN_LO_COUNT : Fld := ⟨31, 0⟩
def PORT_TX_DOWN_HI_COUNT : Fld := ⟨31, 0⟩
def PORT_TS_DROP_LO_COUNT : Fld := ⟨31, 0⟩
def PORT_TS_DROP_HI_COUNT : Fld := ⟨31, 0⟩
def PORT_PREEMPT_CFG_EN : Fld := ⟨31, 31⟩
def PORT_PREEMPT_CFG_VERIFY_DIS : Fld := ⟨30, 30⟩
def PORT_PREEMPT_CFG_ADD_FRAG : Fld := ⟨25, 24⟩
def PORT_PREEMPT_CFG_VERIFY_MS : Fld := ⟨7, 0⟩
def PORT_PREEMPT_STAT_ACTIVE : Fld := ⟨31, 31⟩
def PORT_PREEMPT_STAT_VERIFY : Fld := ⟨2, 0⟩
def PORT_TX_FRAGS_LO_COUNT : Fld := ⟨31, 0⟩
def PORT_TX_FRAGS_HI_COUNT : Fld := ⟨31, 0⟩
def PORT_RX_ASM_ERR_LO_COUNT : Fld := ⟨31, 0⟩
def PORT_RX_ASM_ERR_HI_COUNT : Fld := ⟨31, 0⟩
def PORT_RATE_CFG_STEP_EN : Fld := ⟨31, 31⟩
def PORT_RATE_CFG_RATE_MIN : Fld := ⟨27, 24⟩
def PORT_RATE_CFG_REST_WINDOW : Fld := ⟨15, 0⟩
def PORT_RATE_STAT_REST_CNT : Fld := ⟨31, 16⟩
def PORT_RATE_STAT_STATE : Fld := ⟨13, 12⟩
def PORT_RATE_STAT_UP_WANT : Fld := ⟨11, 11⟩
def PORT_RATE_STAT_RATE_MAX : Fld := ⟨7, 4⟩
def PORT_LOAD_MBPS : Fld := ⟨20, 0⟩
def PORT_STEP_DOWN_COUNT : Fld := ⟨31, 0⟩
def PORT_STEP_UP_COUNT : Fld := ⟨31, 0⟩
def PORT_RENEG_FAIL_COUNT : Fld := ⟨31, 0⟩
def Q_CTRL_EN : Fld := ⟨31, 31⟩
def Q_CTRL_OWNER : Fld := ⟨30, 30⟩
def Q_SPILL_BUF_BUF : Fld := ⟨11, 0⟩
def Q_HIGH_WM_WORDS : Fld := ⟨25, 0⟩
def Q_LOW_WM_WORDS : Fld := ⟨25, 0⟩
def Q_OCC_WORDS : Fld := ⟨25, 0⟩
def Q_PKTS_COUNT : Fld := ⟨24, 0⟩
def Q_DATA_LO_WORD : Fld := ⟨31, 0⟩
def Q_DATA_HI_WORD : Fld := ⟨31, 0⟩
def Q_TAG_VALID : Fld := ⟨31, 31⟩
def Q_TAG_SOP : Fld := ⟨30, 30⟩
def Q_TAG_EOP : Fld := ⟨29, 29⟩
def Q_TAG_POISON : Fld := ⟨28, 28⟩
def Q_TAG_PKT_POISON : Fld := ⟨27, 27⟩
def Q_CMD_OP : Fld := ⟨3, 0⟩
def Q_CMD_RESULT_RESULT : Fld := ⟨31, 28⟩
def Q_CMD_RESULT_WORDS : Fld := ⟨25, 0⟩
def Q_PKT_IN_COUNT : Fld := ⟨31, 0⟩
def Q_OVF_DROP_COUNT : Fld := ⟨31, 0⟩
def Q_POISON_CNT_COUNT : Fld := ⟨31, 0⟩
def DMX_RDM_CMD_OP : Fld := ⟨31, 28⟩
def DMX_RDM_CMD_PORT : Fld := ⟨19, 16⟩
def DMX_RDM_CMD_BYTES : Fld := ⟨8, 0⟩
def DMX_RDM_STAT_BUSY : Fld := ⟨31, 31⟩
def DMX_RDM_STAT_RESULT : Fld := ⟨30, 28⟩
def DMX_RDM_DATA_BYTES : Fld := ⟨31, 0⟩
def DMX_CFG_EN : Fld := ⟨31, 31⟩
def DMX_CFG_DIR : Fld := ⟨30, 29⟩
def DMX_CFG_SRC : Fld := ⟨28, 28⟩
def DMX_CFG_WIDE : Fld := ⟨27, 27⟩
def DMX_CFG_SPC : Fld := ⟨26, 24⟩
def DMX_CFG_RDM_EN : Fld := ⟨23, 23⟩
def DMX_CFG_RDM_Q : Fld := ⟨19, 16⟩
def DMX_CFG_SLOTS : Fld := ⟨9, 0⟩
def DMX_SRC_IDX_IDX : Fld := ⟨23, 0⟩
def DMX_TIMING_REFRESH_US : Fld := ⟨31, 16⟩
def DMX_TIMING_BREAK_US : Fld := ⟨15, 8⟩
def DMX_TIMING_MAB_US : Fld := ⟨7, 0⟩
def DMX_IN_CFG_IDLE_END_US : Fld := ⟨31, 16⟩
def DMX_IN_CFG_GLITCH_NS : Fld := ⟨9, 0⟩
def DMX_TIMEOUT_FADE_FRAMES : Fld := ⟨31, 16⟩
def DMX_TIMEOUT_TIMEOUT_MS : Fld := ⟨15, 0⟩
def DMX_SAFE_POLICY : Fld := ⟨17, 16⟩
def DMX_SAFE_SLOT : Fld := ⟨7, 0⟩
def DMX_STAT_VALID : Fld := ⟨31, 31⟩
def DMX_STAT_TIMED_OUT : Fld := ⟨30, 30⟩
def DMX_STAT_FADING : Fld := ⟨29, 29⟩
def DMX_STAT_LAST_SLOTS : Fld := ⟨9, 0⟩
def DMX_PKTS_COUNT : Fld := ⟨31, 0⟩
def DMX_ERR_COUNT : Fld := ⟨31, 0⟩
def DMX_ALT_SC_COUNT : Fld := ⟨31, 0⟩
def DMX_LAST_FRAME_FRAME : Fld := ⟨31, 0⟩
def TIME_CTRL_EN : Fld := ⟨31, 31⟩
def TIME_CTRL_MODE : Fld := ⟨30, 30⟩
def TIME_GAIN_KI : Fld := ⟨31, 16⟩
def TIME_GAIN_KP : Fld := ⟨15, 0⟩
def TIME_MAX_SLEW_PPB : Fld := ⟨17, 0⟩
def TIME_LOCK_STEP_US : Fld := ⟨31, 16⟩
def TIME_LOCK_LOCK_NS : Fld := ⟨15, 0⟩
def TIME_STAT_STATE : Fld := ⟨31, 29⟩
def TIME_STAT_EVER_LOCKED : Fld := ⟨28, 28⟩
def TIME_STAT_QUIET : Fld := ⟨27, 27⟩
def TIME_ADJ_PPB : Fld := ⟨31, 0⟩
def TIME_ERR_NS : Fld := ⟨31, 0⟩
def TIME_INCR_LO_INCR : Fld := ⟨31, 0⟩
def TIME_INCR_HI_INCR : Fld := ⟨3, 0⟩
def TIME_CAPTURE_REQ : Fld := ⟨0, 0⟩
def TIME_NOW_SEC_LO_SEC : Fld := ⟨31, 0⟩
def TIME_NOW_SEC_HI_SEC : Fld := ⟨31, 0⟩
def TIME_NOW_NS_NS : Fld := ⟨29, 0⟩
def TIME_NOW_FRAC_FRAC : Fld := ⟨31, 0⟩
def TIME_BND_SEC_LO_SEC : Fld := ⟨31, 0⟩
def TIME_BND_SEC_HI_SEC : Fld := ⟨31, 0⟩
def TIME_BND_NS_NS : Fld := ⟨29, 0⟩
def TIME_BND_FRAME_FRAME : Fld := ⟨31, 0⟩
def TIME_STEP_CNT_COUNT : Fld := ⟨31, 0⟩
def TIME_FM_CFG_SYNC_LOG : Fld := ⟨31, 28⟩
def TIME_FM_CFG_PRIO : Fld := ⟨23, 16⟩
def TIME_FM_CFG_MPD_AGE_S : Fld := ⟨7, 0⟩
def TIME_MPD_SPREAD_NS : Fld := ⟨15, 0⟩
def TIME_PATH_BUF_BUF : Fld := ⟨11, 0⟩
def TIME_DREQ_RX_COUNT : Fld := ⟨31, 0⟩
def TIME_DREQ_DROP_COUNT : Fld := ⟨31, 0⟩
def TIME_MPD_DISCARD_COUNT : Fld := ⟨31, 0⟩
def TIME_LINK_CLEAR_COUNT : Fld := ⟨31, 0⟩
def TIME_TSQ_SEL_PORT : Fld := ⟨6, 0⟩
def TIME_TSQ_STAT_OCC : Fld := ⟨6, 0⟩
def TIME_TSQ_POP_VALID : Fld := ⟨31, 31⟩
def TIME_TSQ_POP_TAG : Fld := ⟨15, 0⟩
def TIME_TSQ_SEC_SEC : Fld := ⟨31, 0⟩
def TIME_TSQ_NS_NS : Fld := ⟨29, 0⟩
def PTP_CTRL_GOV : Fld := ⟨29, 28⟩
def PTP_CTRL_REVERT_S : Fld := ⟨15, 0⟩
def PTP_GOV_STAT_NONE : Fld := ⟨31, 31⟩
def PTP_GOV_STAT_DOMAIN : Fld := ⟨30, 30⟩
def PTP_SWITCH_CNT_COUNT : Fld := ⟨31, 0⟩
def PTP_D_REM_NS : Fld := ⟨31, 0⟩
def PTP_CFG_EN : Fld := ⟨31, 31⟩
def PTP_CFG_TRANSPORT : Fld := ⟨30, 29⟩
def PTP_CFG_DREQ_UNI : Fld := ⟨28, 28⟩
def PTP_CFG_PORTS : Fld := ⟨22, 16⟩
def PTP_CFG_ANN_TO : Fld := ⟨15, 8⟩
def PTP_CFG_DOMAIN : Fld := ⟨7, 0⟩
def PTP_STAT_STATE : Fld := ⟨31, 29⟩
def PTP_STAT_PORT : Fld := ⟨22, 16⟩
def PTP_PARENT_LO_ID : Fld := ⟨31, 0⟩
def PTP_PARENT_HI_ID : Fld := ⟨31, 0⟩
def PTP_GM_LO_ID : Fld := ⟨31, 0⟩
def PTP_GM_HI_ID : Fld := ⟨31, 0⟩
def PTP_OFS_LO_OFS : Fld := ⟨31, 0⟩
def PTP_OFS_HI_OFS : Fld := ⟨31, 0⟩
def PTP_MPD_NS : Fld := ⟨31, 0⟩
def PTP_RATE_PPB : Fld := ⟨31, 0⟩
def PTP_SYNC_RX_COUNT : Fld := ⟨31, 0⟩
def PTP_DREQ_TX_COUNT : Fld := ⟨31, 0⟩
def PTP_NOSTAMP_COUNT : Fld := ⟨31, 0⟩
def PTP_ANN_RX_COUNT : Fld := ⟨31, 0⟩
def TRIG_TCFG_MODE : Fld := ⟨31, 29⟩
def TRIG_TCFG_POL : Fld := ⟨28, 28⟩
def TRIG_START_SEC_LO_SEC : Fld := ⟨31, 0⟩
def TRIG_START_SEC_HI_SEC : Fld := ⟨31, 0⟩
def TRIG_START_NS_NS : Fld := ⟨29, 0⟩
def TRIG_PERIOD_NS_NS : Fld := ⟨31, 0⟩
def TRIG_PERIOD_FRAC_FRAC : Fld := ⟨31, 0⟩
def TRIG_WIDTH_NS : Fld := ⟨29, 0⟩
def TRIG_OFFSET_NS : Fld := ⟨31, 0⟩
def TRIG_CCFG_EN : Fld := ⟨31, 31⟩
def TRIG_CCFG_EDGE : Fld := ⟨29, 28⟩
def TRIG_CCFG_GLITCH_NS : Fld := ⟨9, 0⟩
def TRIG_POP_VALID : Fld := ⟨31, 31⟩
def TRIG_POP_RISE : Fld := ⟨30, 30⟩
def TRIG_CSEC_LO_SEC : Fld := ⟨31, 0⟩
def TRIG_CSEC_HI_SEC : Fld := ⟨31, 0⟩
def TRIG_CNS_NS : Fld := ⟨29, 0⟩
def TRIG_LOST_COUNT : Fld := ⟨31, 0⟩
def SYNC_CTRL_SRC : Fld := ⟨31, 30⟩
def SYNC_RATE_NUM : Fld := ⟨31, 12⟩
def SYNC_RATE_DEN : Fld := ⟨11, 0⟩
def SYNC_PHASE_NS : Fld := ⟨31, 0⟩
def SYNC_PULL_NS_NS : Fld := ⟨19, 0⟩
def SYNC_BND_STAT_PULLING : Fld := ⟨31, 31⟩
def SYNC_BND_STAT_SRC_OK : Fld := ⟨30, 30⟩
def SYNC_BND_STAT_SRC_USED : Fld := ⟨29, 28⟩
def SYNC_BND_STAT_FLYWHEEL : Fld := ⟨27, 27⟩
def SYNC_PERIOD_NOW_NS : Fld := ⟨29, 0⟩
def SYNC_ALIGN_K_LO_K : Fld := ⟨31, 0⟩
def SYNC_ALIGN_K_HI_K : Fld := ⟨31, 0⟩
def SYNC_PHASE_ERR_NS : Fld := ⟨31, 0⟩
def SYNC_GL_CFG_EDGE : Fld := ⟨31, 31⟩
def SYNC_GL_CFG_GL_GLITCH_NS : Fld := ⟨25, 16⟩
def SYNC_GL_CFG_TOL_NS : Fld := ⟨15, 0⟩
def SYNC_GL_OFFSET_NS : Fld := ⟨29, 0⟩
def SYNC_GL_TIMEOUT_POLICY : Fld := ⟨17, 16⟩
def SYNC_GL_TIMEOUT_GL_TIMEOUT_MS : Fld := ⟨15, 0⟩
def SYNC_GL_STAT_LOCKED : Fld := ⟨31, 31⟩
def SYNC_GL_STAT_TIMED_OUT : Fld := ⟨30, 30⟩
def SYNC_GL_STAT_P_AVG : Fld := ⟨29, 0⟩
def SYNC_GL_MISS_COUNT : Fld := ⟨31, 0⟩
def SYNC_GL_SPUR_COUNT : Fld := ⟨31, 0⟩
def SYNC_LTC_CFG_EN : Fld := ⟨31, 31⟩
def SYNC_LTC_CFG_ADVANCE : Fld := ⟨30, 30⟩
def SYNC_LTC_CFG_LTC_FLY : Fld := ⟨27, 24⟩
def SYNC_LTC_CFG_LTC_GLITCH_NS : Fld := ⟨13, 0⟩
def SYNC_LTC_TIMEOUT_POLICY : Fld := ⟨17, 16⟩
def SYNC_LTC_TIMEOUT_LTC_TIMEOUT_MS : Fld := ⟨15, 0⟩
def SYNC_LTC_VAL_TC : Fld := ⟨31, 0⟩
def SYNC_LTC_USER_BITS : Fld := ⟨31, 0⟩
def SYNC_LTC_STAT_VALID : Fld := ⟨31, 31⟩
def SYNC_LTC_STAT_TIMED_OUT : Fld := ⟨30, 30⟩
def SYNC_LTC_STAT_FLYWHEEL : Fld := ⟨29, 29⟩
def SYNC_LTC_STAT_DF : Fld := ⟨28, 28⟩
def SYNC_LTC_STAT_RATE : Fld := ⟨25, 24⟩
def SYNC_LTC_UNITS_COUNT : Fld := ⟨31, 0⟩
def SYNC_LTC_ERR_COUNT : Fld := ⟨31, 0⟩
def SYNC_LTC_RATE_ERR_COUNT : Fld := ⟨31, 0⟩
def SYNC_LTC_REVERSE_COUNT : Fld := ⟨31, 0⟩
def TWIN_CTRL_EN : Fld := ⟨31, 31⟩
def TWIN_CTRL_SIDE : Fld := ⟨30, 30⟩
def TWIN_CTRL_PAIR_ID : Fld := ⟨15, 0⟩
def TWIN_REVERT_REVERT_HOLD : Fld := ⟨15, 0⟩
def TWIN_WAIT_SEEK_MS : Fld := ⟨31, 16⟩
def TWIN_WAIT_HEAD_WAIT_US : Fld := ⟨7, 0⟩
def TWIN_FAIL_FAIL_MISS : Fld := ⟨19, 16⟩
def TWIN_FAIL_BND_TOL_NS : Fld := ⟨15, 0⟩
def TWIN_PUNTY_LINKS : Fld := ⟨17, 16⟩
def TWIN_PUNTY_ETYPE : Fld := ⟨15, 0⟩
def TWIN_CMD_OP : Fld := ⟨31, 28⟩
def TWIN_STAT_ROLE : Fld := ⟨31, 31⟩
def TWIN_STAT_STATE : Fld := ⟨30, 28⟩
def TWIN_STAT_FAILOVER : Fld := ⟨27, 27⟩
def TWIN_STAT_PEER_SEEN : Fld := ⟨26, 26⟩
def TWIN_STAT_LINKS_UP : Fld := ⟨25, 24⟩
def TWIN_STAT_REASON : Fld := ⟨23, 20⟩
def TWIN_STAT_CLEAN_CNT : Fld := ⟨15, 0⟩
def TWIN_PAIR_FRAME_FRAME : Fld := ⟨31, 0⟩
def TWIN_FRAME_OFS_OFS : Fld := ⟨31, 0⟩
def TWIN_BND_DIFF_NS : Fld := ⟨31, 0⟩
def TWIN_REC_SIZE_BYTES : Fld := ⟨24, 0⟩
def TWIN_REC_US_US : Fld := ⟨15, 0⟩
def TWIN_CFG_DIGEST_LO_CRC : Fld := ⟨31, 0⟩
def TWIN_CFG_DIGEST_HI_CRC : Fld := ⟨31, 0⟩
def TWIN_IN_DIGEST_LO_CRC : Fld := ⟨31, 0⟩
def TWIN_IN_DIGEST_HI_CRC : Fld := ⟨31, 0⟩
def TWIN_HEAD_MISS_COUNT : Fld := ⟨31, 0⟩
def TWIN_REC_MISS_COUNT : Fld := ⟨31, 0⟩
def TWIN_REC_OVER_COUNT : Fld := ⟨31, 0⟩
def TWIN_DIVERGE_CNT_COUNT : Fld := ⟨31, 0⟩
def TWIN_TAKEOVER_CNT_COUNT : Fld := ⟨31, 0⟩
def TWIN_TAKEBACK_CNT_COUNT : Fld := ⟨31, 0⟩
def TWIN_MUTE_UR_COUNT : Fld := ⟨31, 0⟩
def TWIN_PUNTY_BAD_COUNT : Fld := ⟨31, 0⟩
def LEHR_CTRL_EN : Fld := ⟨31, 31⟩
def LEHR_CTRL_MODE : Fld := ⟨30, 30⟩
def LEHR_CTRL_D_MAX : Fld := ⟨29, 24⟩
def LEHR_CTRL_D_MIN : Fld := ⟨21, 16⟩
def LEHR_CTRL_SLOPE : Fld := ⟨13, 8⟩
def LEHR_CTRL_RSLOPE : Fld := ⟨5, 0⟩
def LEHR_LEVELS_WARN : Fld := ⟨31, 24⟩
def LEHR_LEVELS_THROTTLE : Fld := ⟨23, 16⟩
def LEHR_LEVELS_SHUTDOWN : Fld := ⟨15, 8⟩
def LEHR_LEVELS_HYST : Fld := ⟨3, 0⟩
def LEHR_RISE_RISE_HOLD_MS : Fld := ⟨31, 16⟩
def LEHR_RISE_RISE_LIMIT : Fld := ⟨11, 0⟩
def LEHR_STAT_THROTTLING : Fld := ⟨31, 31⟩
def LEHR_STAT_WARN : Fld := ⟨30, 30⟩
def LEHR_STAT_FROZEN : Fld := ⟨29, 29⟩
def LEHR_STAT_BLIND : Fld := ⟨27, 24⟩
def LEHR_STAT_HOT : Fld := ⟨22, 20⟩
def LEHR_STAT_FLOOR : Fld := ⟨13, 8⟩
def LEHR_STAT_D : Fld := ⟨5, 0⟩
def LEHR_FREQ_BENCH : Fld := ⟨31, 16⟩
def LEHR_FREQ_SOLVE : Fld := ⟨15, 0⟩
def LEHR_CMD_OP : Fld := ⟨31, 28⟩
def LEHR_CMD_SENSOR : Fld := ⟨4, 0⟩
def LEHR_FAILED_SENSORS : Fld := ⟨23, 0⟩
def LEHR_HOTTEST_SENSOR : Fld := ⟨20, 16⟩
def LEHR_HOTTEST_TEMP : Fld := ⟨15, 0⟩
def LEHR_DER_BUF_BUF : Fld := ⟨11, 0⟩
def LEHR_THR_MS_LO_MS : Fld := ⟨31, 0⟩
def LEHR_THR_MS_HI_MS : Fld := ⟨31, 0⟩
def LEHR_DERATED_FIXTURES : Fld := ⟨18, 0⟩
def LEHR_CL_TEMP_RATE : Fld := ⟨31, 16⟩
def LEHR_CL_TEMP_TEMP : Fld := ⟨15, 0⟩
def LEHR_CL_CFG_FAIL_MARGIN : Fld := ⟨4, 0⟩
def LEHR_CL_STAT_STATE : Fld := ⟨10, 8⟩
def LEHR_CL_STAT_DEMAND : Fld := ⟨5, 0⟩
def LEHR_SENSOR_FAILED : Fld := ⟨31, 31⟩
def LEHR_SENSOR_REASON : Fld := ⟨26, 24⟩
def LEHR_SENSOR_CALIBRATING : Fld := ⟨23, 23⟩
def LEHR_SENSOR_READ : Fld := ⟨15, 0⟩
def LEHR_PROF_A_EN : Fld := ⟨31, 31⟩
def LEHR_PROF_A_FD_LIMIT : Fld := ⟨23, 16⟩
def LEHR_PROF_A_FD_HYST : Fld := ⟨3, 0⟩
def LEHR_PROF_B_FD_FLOOR : Fld := ⟨31, 16⟩
def LEHR_PROF_B_FD_SLOPE : Fld := ⟨15, 0⟩
def CAL_CMD_OP : Fld := ⟨31, 28⟩
def CAL_CMD_LANE : Fld := ⟨6, 0⟩
def CAL_STAT_BUSY : Fld := ⟨31, 31⟩
def CAL_STAT_PENDING : Fld := ⟨30, 30⟩
def CAL_STAT_RESULT : Fld := ⟨27, 24⟩
def CAL_REF_CFG_REF25 : Fld := ⟨31, 31⟩
def CAL_REF_PPB_PPB : Fld := ⟨31, 0⟩
def CAL_REF_STAT_PRESENT : Fld := ⟨31, 31⟩
def CAL_REF_STAT_IN_USE : Fld := ⟨30, 30⟩
def CAL_TB_PPB_PPB : Fld := ⟨31, 0⟩
def CAL_TRIM_PPB_PPB : Fld := ⟨31, 0⟩
def CAL_EXTREF_UV_UV : Fld := ⟨21, 0⟩
def CAL_RES_LIMIT_MC : Fld := ⟨12, 0⟩
def CAL_CAL_FRAME_FRAME : Fld := ⟨31, 0⟩
def CAL_SENS_RES_PENDING : Fld := ⟨31, 16⟩
def CAL_SENS_RES_IN_FORCE : Fld := ⟨15, 0⟩
def LANE_CTRL_ADAPT : Fld := ⟨31, 31⟩
def LANE_CTRL_EYE_EN : Fld := ⟨30, 30⟩
def LANE_STAT_LOCKED : Fld := ⟨31, 31⟩
def LANE_STAT_NO_SPARE : Fld := ⟨30, 30⟩
def LANE_STAT_PENDING : Fld := ⟨29, 29⟩
def LANE_STAT_SPARE_SLICES : Fld := ⟨26, 24⟩
def LANE_STAT_SPARE_DLINES : Fld := ⟨17, 16⟩
def LANE_SLICE_USE_USE : Fld := ⟨19, 0⟩
def LANE_SLICE_BAD_BAD : Fld := ⟨19, 0⟩
def LANE_DLINE_BAD : Fld := ⟨13, 8⟩
def LANE_DLINE_USE : Fld := ⟨5, 0⟩
def LANE_EYE_VALID : Fld := ⟨31, 31⟩
def LANE_EYE_HEIGHT_MV : Fld := ⟨25, 16⟩
def LANE_EYE_WIDTH : Fld := ⟨6, 0⟩
def LANE_EYE_MIN_H_MV : Fld := ⟨25, 16⟩
def LANE_EYE_MIN_W : Fld := ⟨6, 0⟩
def LANE_CAL_CNT_COUNT : Fld := ⟨31, 0⟩
def GAFFER_BOOT_STAT_STAGE : Fld := ⟨31, 28⟩
def GAFFER_BOOT_STAT_SLOT : Fld := ⟨25, 24⟩
def GAFFER_BOOT_STAT_BANK : Fld := ⟨23, 23⟩
def GAFFER_FW_VER_VERSION : Fld := ⟨31, 0⟩
def GAFFER_SLOT_STAT_STATE : Fld := ⟨31, 28⟩
def GAFFER_SLOT_VER_VERSION : Fld := ⟨31, 0⟩
def GAFFER_UPD_STAT_PHASE : Fld := ⟨31, 28⟩
def GAFFER_UPD_STAT_LAST_ABORT : Fld := ⟨27, 24⟩
def GAFFER_UPD_STAT_PROB_LEFT : Fld := ⟨10, 0⟩
def GAFFER_SET_STAT_RESULT : Fld := ⟨31, 28⟩
def GAFFER_SET_STAT_INTACT : Fld := ⟨26, 24⟩
def GAFFER_SET_STAT_USED : Fld := ⟨21, 20⟩
def GAFFER_SET_STAT_SKIPPED : Fld := ⟨16, 0⟩
def GAFFER_SET_GEN_GENERATION : Fld := ⟨31, 0⟩
def GAFFER_MBX_CFG_MG_EN : Fld := ⟨31, 31⟩
def GAFFER_MBX_CFG_MG_WRITE : Fld := ⟨30, 30⟩
def GAFFER_MBX_CFG_PORT : Fld := ⟨15, 0⟩
def GAFFER_MBX_DOORBELL_RING : Fld := ⟨0, 0⟩
def GAFFER_MBX_STAT_BUSY : Fld := ⟨31, 31⟩
def GAFFER_MBX_STAT_RSP_VALID : Fld := ⟨30, 30⟩
def GAFFER_JACK_STAT_RELOADING : Fld := ⟨15, 8⟩
def GAFFER_JACK_STAT_RUNNING : Fld := ⟨7, 0⟩
def GAFFER_WD_LAST_PAGE : Fld := ⟨11, 0⟩
def GAFFER_WDOG_CNT_COUNT : Fld := ⟨31, 0⟩
def GAFFER_MG_DROP_COUNT : Fld := ⟨31, 0⟩
def GAFFER_MBX_REQ_WORD : Fld := ⟨31, 0⟩
def GAFFER_MBX_RSP_WORD : Fld := ⟨31, 0⟩
def HOST_BAR2_BASE_LO_BASE : Fld := ⟨31, 16⟩
def HOST_BAR2_BASE_HI_BASE : Fld := ⟨2, 0⟩
def HOST_LINK_STAT_UP : Fld := ⟨31, 31⟩
def HOST_LINK_STAT_SPEED : Fld := ⟨19, 16⟩
def HOST_LINK_STAT_WIDTH : Fld := ⟨2, 0⟩
def HOST_CE_CNT_COUNT : Fld := ⟨31, 0⟩
def HOST_UE_CNT_COUNT : Fld := ⟨31, 0⟩
def HOST_FLR_CNT_COUNT : Fld := ⟨31, 0⟩
def KEEP_SEC_LO_SEC : Fld := ⟨31, 0⟩
def KEEP_SEC_HI_SEC : Fld := ⟨31, 0⟩
def KEEP_STAT_LOST : Fld := ⟨31, 31⟩
def KEEP_STAT_TAMPER : Fld := ⟨30, 30⟩
def KEEP_STAT_OCC : Fld := ⟨6, 0⟩
def KEEP_TAMPER_CFG_EN : Fld := ⟨31, 31⟩
def KEEP_TAMPER_CFG_GLITCH_US : Fld := ⟨15, 0⟩
def KEEP_LOG0_VALID : Fld := ⟨31, 31⟩
def KEEP_LOG0_KIND : Fld := ⟨27, 24⟩
def KEEP_LOG1_SEC : Fld := ⟨31, 0⟩
def KEEP_LOG2_SEC : Fld := ⟨31, 0⟩
def KEEP_LOG3_SUB : Fld := ⟨14, 0⟩
def KEEP_LOG_LOST_COUNT : Fld := ⟨15, 0⟩
def KEEP_RETAIN_WORD : Fld := ⟨31, 0⟩
def GLORY_CTRL_EN : Fld := ⟨31, 31⟩
def GLORY_CTRL_BUDGET_US : Fld := ⟨9, 0⟩
def GLORY_STAT_BUSY : Fld := ⟨31, 31⟩
def GLORY_STAT_PAGE : Fld := ⟨27, 16⟩
def GLORY_STAT_TEST : Fld := ⟨7, 0⟩
def GLORY_LAST_PAGE : Fld := ⟨27, 16⟩
def GLORY_LAST_RESULT : Fld := ⟨10, 8⟩
def GLORY_LAST_TEST : Fld := ⟨7, 0⟩
def GLORY_LAST_PATTERNS_TOTAL : Fld := ⟨31, 16⟩
def GLORY_LAST_PATTERNS_DONE : Fld := ⟨15, 0⟩
def GLORY_MISR_LO_SIG : Fld := ⟨31, 0⟩
def GLORY_MISR_HI_SIG : Fld := ⟨31, 0⟩
def GLORY_FAIL_MEM_COUNT : Fld := ⟨31, 16⟩
def GLORY_FAIL_MEM_MEM : Fld := ⟨15, 8⟩
def GLORY_FAIL_MEM_BIT : Fld := ⟨7, 0⟩
def GLORY_FAIL_ADDR_ADDR : Fld := ⟨23, 0⟩
def GLORY_REPAIR_OP : Fld := ⟨31, 28⟩
def GLORY_REPAIR_PAGE : Fld := ⟨27, 16⟩
def GLORY_REPAIR_MEM : Fld := ⟨7, 0⟩
def GLORY_REPAIR_IDX_IDX : Fld := ⟨15, 0⟩
def GLORY_REPAIR_STAT_RESULT : Fld := ⟨31, 28⟩
def GLORY_REPAIR_STAT_ROWS : Fld := ⟨7, 4⟩
def GLORY_REPAIR_STAT_COLS : Fld := ⟨3, 0⟩
def GLORY_INFO_SEL_PAGE : Fld := ⟨11, 0⟩
def GLORY_INFO_MEMS : Fld := ⟨21, 16⟩
def GLORY_INFO_LOGIC : Fld := ⟨13, 8⟩
def GLORY_INFO_MARCH : Fld := ⟨5, 0⟩
def GLORY_REFUSED_COUNT : Fld := ⟨31, 0⟩
def GLORY_REF_PAGE_PAGE : Fld := ⟨11, 0⟩
def GLORY_SLICE_CNT_COUNT : Fld := ⟨31, 0⟩
def GLORY_FAIL_CNT_COUNT : Fld := ⟨31, 0⟩
def GLORY_ABORT_CNT_COUNT : Fld := ⟨31, 0⟩
def GLORY_INCOMPLETE_CNT_COUNT : Fld := ⟨31, 0⟩
def LIFE_STATE_NEXT : Fld := ⟨6, 4⟩
def LIFE_STATE_STATE : Fld := ⟨2, 0⟩
def LIFE_KEYS_REVOKED : Fld := ⟨7, 4⟩
def LIFE_KEYS_PROGRAMMED : Fld := ⟨3, 0⟩
def LIFE_MIN_SEC_VER_MIN : Fld := ⟨6, 0⟩
def LIFE_ADVANCE_KEY : Fld := ⟨31, 16⟩
def LIFE_ADVANCE_TARGET : Fld := ⟨2, 0⟩
def LIFE_REVOKE_KEY : Fld := ⟨31, 16⟩
def LIFE_REVOKE_SLOT : Fld := ⟨1, 0⟩
def LIFE_SEC_BUMP_KEY : Fld := ⟨31, 16⟩
def LIFE_FUSE_STAT_BUSY : Fld := ⟨31, 31⟩
def LIFE_FUSE_STAT_RESULT : Fld := ⟨29, 28⟩
def DEBUG_INJ_CTRL_EN : Fld := ⟨31, 31⟩
def DEBUG_FREEZE_KEY : Fld := ⟨31, 16⟩
def DEBUG_FREEZE_GO : Fld := ⟨0, 0⟩
def DEBUG_FRZ_CFG_GLITCH_NS : Fld := ⟨9, 0⟩
def DEBUG_INJ_TAKEN_COUNT : Fld := ⟨31, 0⟩
def DEBUG_INJ_LAST_BIT : Fld := ⟨20, 16⟩
def DEBUG_INJ_LAST_PAGE : Fld := ⟨11, 0⟩
def DMX_TIMED_OUT_PORTS : Fld := ⟨15, 0⟩
def TRIG_TRIG_STAT_ARMED : Fld := ⟨15, 0⟩
def TRIG_MISSED_COUNT : Fld := ⟨31, 0⟩
end F

end Sys2Proof.Machine
end

