-- ==== Sys2Proof/Machine/State.lean ====
section
/-!
DEFINITION. The state of the Krafohel as plain data, its reset value, and the reasons a step can stop.
Registers live in sparse maps (unlisted: the reset value of the register map); everything else the manual gives a block
stands in that block's structure.
-/
namespace Sys2Proof.Machine

/-- What an access returned to its requester (R56, R57). -/
inductive Completion where
  | none
  | done
  | data (w : Word)
  | data64 (w : Cell)
  | bytes (b : List Byte)
  | abort
  | busError
deriving DecidableEq, Repr

/-- A register access waiting at a page's crossing (R56, R57). -/
structure Access where
  r : Req
  page : Nat
  off : Nat
  isWrite : Bool
  val : Word
deriving DecidableEq, Repr

/-- The register space (R29 to R34): `live` holds every register that is not shadowed, `shadow`, `pend` and `active` the three
sets of RWS registers, `force` the set of the epoch in force, which a page that missed it loads on its return (R39), `prev` the active
set that governs the frame before the one in progress (R14), `snap` the SNAP view,
`bank` what is kept per requester, keyed address × 4 + kind × 2 + requester (kind 0 the register, and at a page's
offset 1 its read hold; kind 1 there its write hold, R48). -/
structure RegFile where
  live : AMap Word
  shadow : AMap Word
  pend : AMap Word
  active : AMap Word
  force : AMap Word
  prev : AMap Word
  snap : AMap Word
  bank : AMap Word
  hostReply : Completion
  gafferReply : Completion
deriving DecidableEq, Repr

/-- The commit and snapshot machinery (R35 to R43, R57). `acksLeft`: pages that have not yet acknowledged the seal; `sealing`: from
an accepted COMMIT to its completion; `waitFrame`: from then to its boundary, that boundary; `pendEpoch`: the number sealed;
`prevEpoch`: the epoch of `prev`; `returning`: pages that return at the next boundary, `returnDue` those whose boundary has come; `snapDue`: the
snapshot of the newest boundary is still to be captured; `withdrawing`: pages whose withdrawal has not yet taken effect; `stopped`: pages whose clock is stopped; `waiting`: accesses, and seals (R36), that wait at crossings, oldest
first; `stalled`: pages at whose crossing an injected CLKSTOP holds the access at the head (R455). -/
structure Commit where
  acksLeft : List Nat
  sealing : Bool
  waitFrame : Option Nat
  pendEpoch : Nat
  prevEpoch : Nat
  returning : List Nat
  returnDue : List Nat
  snapDue : Bool
  withdrawing : List Nat
  stopped : List Nat
  stalled : List Nat
  waiting : List Access
deriving DecidableEq, Repr

/-- MSI-X (R59): the masks of the host's table, messages held, the level of each vector's OR, and messages sent, newest
first. -/
structure Msix where
  mask : Cell
  held : Cell
  level : Cell
  sent : List Nat
deriving DecidableEq, Repr

/-- Whether the device runs. -/
inductive PowerMode where
  | held
  | run
  | frozen
  | tripped
deriving DecidableEq, Repr

/-- Supplies, reset pins and cause (R409, R451, R465 to R469). `por`: the internal power-on reset is active; `rstLow`: RST_N
is low; `cause`: the RESET_CAUSE bit of the next release; `refExt`: REFCLK_IN is in use; `thermtrip`: THERMTRIP_N is driven
low; `rstWait`: RST_N fell while a fuse word was being burnt (R472); `pllOnce`: every PLL
has locked since reset (R7). -/
structure Power where
  mode : PowerMode
  por : Bool
  rstLow : Bool
  rstWait : Bool
  cause : Nat
  refExt : Bool
  thermtrip : Bool
  keeperLost : Bool
  pllOnce : Bool
deriving DecidableEq, Repr

/-- A mailbox request (R420): the command code, TAG and payload bytes. -/
structure MbxReq where
  src : MbxSrc
  cmd : Nat
  tag : Nat
  payload : List Byte
deriving DecidableEq, Repr

/-- A mailbox response (R420): `words` from the reason code on, `len` their bytes. -/
structure MbxRsp where
  src : MbxSrc
  status : Nat
  tag : Nat
  words : List Word
  len : Nat
deriving DecidableEq, Repr

/-- A flash slot as the directory shows it (R410, R411). -/
structure Slot where
  state : Nat
  version : Word
deriving DecidableEq, Repr

/-- What the running image's header says (R412). -/
structure ImageInfo where
  ifGen : Nat
  recVer : Nat
  setVer : Nat
  keySlot : Nat
  version : Word
  secVer : Nat
deriving DecidableEq, Repr

/-- The Gaffer: flash, directory, mailbox, update and settings (R409 to R426). `image` is the running image, `oldImage` the one before an
update; `mbxQ` the requests waiting, the first of them in service when `mbxBusy`; `mgLast` the last response by
source, `mgOut` the responses sent on MG0, newest first; `staged` counts the bytes IMAGE_BEGIN named; `saving` is the settings copy being written, `migrated` the one converted for an
update; `reversal`: the boundaries counted when a reversal fell due; `handoverAt`: when a handover may begin (ns); `jackNew`: Jack cores still
to be reloaded, in order. -/
structure Gaffer where
  flash : AMap Byte
  slots : List Slot
  image : ImageInfo
  oldImage : ImageInfo
  mbxQ : List MbxReq
  mbxBusy : Bool
  mgLast : List MbxRsp
  mgOut : List MbxRsp
  staged : Nat
  saving : Option (List Byte)
  migrated : Option (List Byte)
  settings : List (Nat × Word)
  reversal : Option Nat
  handoverAt : Option Nat
  jackNew : List Nat
  started : Bool
deriving DecidableEq, Repr

/-- An entry of the keeper's event log (R430). -/
structure LogEntry where
  kind : Nat
  sec : Cell
  sub : Nat
deriving DecidableEq, Repr

/-- A repair of a memory instance (R444). -/
structure Repair where
  page : Nat
  mem : Nat
  column : Bool
  idx : Nat
  fused : Bool
  inForce : Bool
deriving DecidableEq, Repr

/-- A slice in progress (R438): on a window block, and against an inverted golden signature (R455). -/
structure Slice where
  due : Nat
  page : Nat
  test : Nat
  window : Bool
  inv : Bool
deriving DecidableEq, Repr

/-- A fuse operation in progress (R445, R447). -/
inductive FuseOp where
  | advance (target : Nat)
  | revoke (slot : Nat)
  | secBump
deriving DecidableEq, Repr

/-- Glory, the fuses, freeze and the test access port (R435 to R453). -/
structure Debug where
  slice : Option Slice
  repairs : List Repair
  fuse : Option FuseOp
  freezeSrc : Nat
  forced : Nat
  forcedLnk : Cell
  forcedShow : Nat
  stoppedDomains : List (Nat × Nat)
  tapChain : Nat
  tapOut : List Word
  boundary : List Nat
  pinsDriven : Option (List Nat)
deriving DecidableEq, Repr

/-- A defined buffer (R81): first granule, size in granules, HOSTFILL, and whether a FREE is pending. -/
structure BufDef where
  id : Nat
  base : Nat
  size : Nat
  hostfill : Bool
  freePending : Bool
deriving DecidableEq, Repr

/-- What holds a buffer besides set fields and frames (R83 condition 3): a map build, RESET_ALL of the gain store, a host
frame from its post on, a direct base taken or waiting, a settings save or image load from a buffer, a scheduler table and
what its descriptors name. -/
inductive HoldTag where
  | build
  | resetAll
  | post (flow slot : Nat)
  | direct (e : Nat)
  | base (e : Nat)
  | mailbox
  | desc (next : Bool)
  | clip (slot : Nat)
deriving DecidableEq, Repr

/-- The buffers a frame reads until its step 8 (R83 condition 2). -/
structure FrameLease where
  frame : Nat
  bufs : List Nat
deriving DecidableEq, Repr

/-- The stamp a successful build leaves on its target (R76), with the cells it gave an owner. -/
structure MapStamp where
  cell : Nat
  fix : Nat
  gen : Word
  owned : Nat
deriving DecidableEq, Repr

/-- Why a build fails: REASON, FAIL_FIX, PRIOR_FIX and FAIL_CELL (R75, R95). -/
structure BuildFail where
  reason : Nat
  fix : Option Nat
  prior : Nat
  cell : Option Nat
deriving DecidableEq, Repr

/-- A map build in progress (R74): fixture-map buffer, target, write generation at its start; and what it has done so far: cells given an
owner, fixtures that lost positions with the last of them, entries read, and why it has come to a stop. -/
structure MapBuild where
  fix : Nat
  cell : Nat
  gen : Word
  owned : Nat
  clips : Nat
  clipLast : Word
  progress : Nat
  fail : Option BuildFail
deriving DecidableEq, Repr

/-- Buffers and leases (R81 to R86). `ended`: the buffers whose pending free the last command completed; `meets`: a CANCEL arrives in the
cycle of that command (R86). -/
structure Lease where
  bufs : List BufDef
  wgen : AMap Word
  stamps : List MapStamp
  frames : List FrameLease
  holds : List (HoldTag × Nat)
  done : List Nat
  build : Option MapBuild
  substFrame : Bool
  ended : List Nat
  meets : Bool
deriving DecidableEq, Repr

/-- A video frame being received (R141): its slot (none while it is discarded for want of one), RTP timestamp, the extended
sequence numbers seen, whether it is damaged, pixels received per line, and chroma rows kept for 4:2:0 storage; whether its marker has
arrived, the latest number of each leg, and when its last packet arrived (ns). -/
structure Fill where
  slot : Option Nat
  ts : Word
  seen : List Nat
  damaged : Bool
  cover : AMap Nat
  chroma : AMap Nat
  marker : Bool
  legs : Option Nat × Option Nat
  lastAt : Nat
deriving DecidableEq, Repr

/-- An E1.31 data unit (R149): its sequence number, priority, whether it ended its stream, and its slots from slot 1. -/
structure SacnUnit where
  seq : Nat
  prio : Nat
  slots : List Byte
  syncAddr : Nat
  terminated : Bool
deriving DecidableEq, Repr

/-- A source of an sACN universe on a flow (R150, R151, R153). `stamp` orders the last units by arrival, and `lastAt` is
when the last was accepted (ns). -/
structure SacnSrc where
  cid : Nat
  univ : Nat
  seq : Nat
  last : Option SacnUnit
  held : Option SacnUnit
  live : Bool
  stamp : Nat
  lastAt : Nat
deriving DecidableEq, Repr

/-- The state of a flow (R141 to R156). `complete` lists slots holding complete frames, oldest first; `polK` is the count of
frames since the timeout that governs the frame in progress; `newUnit`: a unit completed since the last boundary; `slotTs`: the RTP
timestamp of the frame each slot holds; `prevSeen`: the sequence numbers of the frame received before; `tc`: the last timecode unit of a
console flow. -/
structure FlowSt where
  fill : Option Fill
  lastSeq : Option Nat
  complete : List Nat
  bound : Option Nat
  hostPost : Option (Nat × Nat)
  hostBound : Option (Nat × Nat)
  timedOut : Bool
  polK : Option Nat
  lastUnit : Nat
  newUnit : Bool
  sources : List SacnSrc
  conLast : Option (Word × Word)
  slotTs : AMap Nat
  prevSeen : List Nat
  tc : Option Word
deriving DecidableEq, Repr

/-- A flow that has received nothing. -/
def FlowSt.none : FlowSt := ⟨.none, .none, [], .none, .none, .none, false, .none, 0, false, [], .none, [], [], .none⟩

/-- Ingest: flows, the slot values behind the universe map (keyed index × 512 + slot − 1: the last valid ones and those of the
frame in progress), frames since an index lost its last source, console slot values (keyed (flow × 65,536 + universe) × 512 +
slot − 1), console flags waiting for the boundary and those due at it, the bytes of video since the last boundary, the multicast groups joined
(port, group, source), the universe map as it was last read, with the buffer it was read from, and the arrivals (ns) of console USER
datagrams matched to a flow and not yet taken, oldest first. -/
structure Ingest where
  flows : AMap FlowSt
  uHeld : AMap Nat
  uNow : AMap Nat
  idxK : AMap Nat
  conVals : AMap Nat
  conFlags : List (Cell × Cell)
  conDue : List (Cell × Cell)
  stamp : Nat
  videoBytes : Nat
  groups : List (Nat × Word × Word)
  map : AMap Nat
  mapBuf : Nat
  userAt : List (Nat × Nat)
deriving DecidableEq, Repr

/-- Slot states (R116); an EMPTY slot is an IDLE one whose descriptor has KIND 0. -/
inductive SlotSt where
  | idle
  | delay
  | wait
  | ready
  | affinity
  | run
  | spent
  | done
deriving DecidableEq, Repr

/-- A slot (R116 to R121). `status` and the frame last rendered are as SLOT_RESULT and SLOT_FRAME report them; `fresh` marks
the first run after an ARM; `resume` is a late job's dispatch-time descriptor and next position (R124). -/
structure JobSlot where
  st : SlotSt
  pflags : Nat
  lastBench : Option Nat
  status : Nat
  frameLast : Nat
  fresh : Bool
  resume : Option (List Nat × Nat)
deriving DecidableEq, Repr

/-- An entry of the delay list (R121): ticks of 100 µs where `tick`, frame boundaries otherwise. -/
structure DelayEntry where
  slot : Nat
  left : Nat
  tick : Bool
deriving DecidableEq, Repr

/-- A job in AFFINITY (R126): its last bench, when it was selected (ns), and whether its window has ended. -/
structure AffEntry where
  slot : Nat
  bench : Nat
  since : Nat
  ended : Bool
deriving DecidableEq, Repr

/-- A job running on a bench (R98): its slot, dispatch-time descriptor, frame and the presentation time of that frame (ns), first
position, and the memory video sources presented when it was dispatched (R114). -/
structure RunJob where
  slot : Nat
  desc : List Nat
  frame : Nat
  pt : Nat
  pos : Nat
  clips : List (Nat × Nat × Nat)
deriving DecidableEq, Repr

/-- A bench (R131): the job it runs and the slots whose state blocks it has cached, least recently used first. -/
structure Bench where
  job : Option RunJob
  cache : List Nat
deriving DecidableEq, Repr

/-- A layer (R122, R123): open, or closed for the frame in progress; `released`: Marver has read it for the frame before. -/
structure LayerSt where
  isOpen : Bool
  closed : Bool
  released : Bool
  opened : Bool
deriving DecidableEq, Repr

/-- A write of SLOT_CMD, GSET or GCLR held during the boundary steps (R128). -/
structure HeldWrite where
  r : Req
  addr : Nat
  val : Cell
deriving DecidableEq, Repr

/-- A checked descriptor table (R97): its buffer, its invalid slots and the buffers its valid descriptors name. -/
structure TableChk where
  buf : Nat
  bad : List Nat
  bufs : List Nat
deriving DecidableEq, Repr

/-- The scheduler and the benches (R96 to R133). `clips` are the memory video sources presented for the frame in progress:
source, buffer and clip frame. `holding`: the boundary steps are still to be taken, and `held` waits for them; `applying`: the held
writes are being applied, before dispatch begins. `tickAt`: the 100 µs tick up to which tick delays have been counted; `tcSrc`: the
source of `tcNow`; `tcFired`: the timecode entries that fired at the newest boundary, a bit for every four. -/
structure Sched where
  slots : AMap JobSlot
  delays : List DelayEntry
  ready : List Nat
  affinity : List AffEntry
  benches : List Bench
  layers : List LayerSt
  table : TableChk
  nextTable : Option TableChk
  holding : Bool
  applying : Bool
  held : List HeldWrite
  clips : List (Nat × Nat × Nat)
  frame : Nat
  tcPrev : Option Word
  tcNow : Option Word
  tcSrc : Nat
  tcFired : Nat
  tickAt : Nat
deriving DecidableEq, Repr

/-- A Marver pass in progress (R178): its layers, and when it started (ns). -/
structure Pass where
  layers : List Nat
  start : Nat
deriving DecidableEq, Repr

/-- Marver (R167 to R185). `order` is the stacking order of frame `frame`, `shed` its shed layers, `applied` the layers applied
so far with the pass of each, `passes` the passes begun; `begun`: step 1 of R177 has been taken for the frame in progress;
`limited`: a component was limited in the frame; `start` is the frame's boundary, and `doneAt` when the last of its work so far ended
(ns). -/
structure MarverSt where
  frame : Nat
  begun : Bool
  busy : Bool
  order : List Nat
  shed : List Nat
  applied : List (Nat × Nat)
  passes : Nat
  baseDone : Bool
  pass : Option Pass
  limited : Bool
  start : Nat
  doneAt : Nat
deriving DecidableEq, Repr

/-- A frame the solver began and did not skip (R187, R202): its index and buffers, the first cell not yet written
(`frontier`), and how it stands: 0 in progress, 1 done, 2 cut. -/
structure SolvedFrame where
  frame : Nat
  k : Nat
  drv : Nat
  cur : Nat
  frontier : Nat
  fin : Nat
deriving DecidableEq, Repr

/-- The solver (R186 to R206). `frames` lists the last frames it began and did not skip, newest first, the head being in progress
while `busy`; `pos` is the cell up to which LIGHT and RAW cells have been taken; `old` the buffers of the frame before (R204);
`temps` the emitter temperatures reported, keyed fixture × 8 + emitter (65,536: none), `latT` and `latD` the temperatures and
derating factors latched at step 1. Four flags note what was recorded once in the frame; `droopFix` are the fixtures whose droop factors
it has formed (R191); `last` are the buffers of the last frame since reset that was not skipped (R204). -/
structure SolverSt where
  busy : Bool
  k : Nat
  start : Nat
  frames : List SolvedFrame
  old : Option (Nat × Nat)
  pos : Nat
  shed : List Nat
  temps : AMap Nat
  latT : AMap Nat
  latD : AMap Nat
  badSeen : Bool
  nocompSeen : Bool
  droopSeen : Bool
  gainSeen : Bool
  droopFix : List Nat
  last : Option (Nat × Nat)
deriving DecidableEq, Repr

/-- A light report as the colour loop takes it (R209): fixture, measured frame, whether XYZ, its three words, arrival (ns). -/
structure LoopReport where
  fix : Nat
  frame : Nat
  xyz : Bool
  vals : List Nat
  arrived : Nat
deriving DecidableEq, Repr

/-- The colour loop (R207 to R213): reports waiting; the gain store that RESET_ALL rewrites; the epoch of the last frame begun
and whether its change-over is due (R211), with the frame at whose step 1 it fell due; the entry that RESET_ALL reaches next (R212). -/
structure LoopSt where
  queue : List LoopReport
  resetting : Option Nat
  epoch : Word
  due : Bool
  dueFrame : Nat
  resetAt : Nat
deriving DecidableEq, Repr

/-- A word of a cullet queue (R318 to R322): its 64 bits, whether it begins or ends a packet, and whether its parity is wrong. -/
structure QWord where
  w : Cell
  sop : Bool
  eop : Bool
  bad : Bool
deriving DecidableEq, Repr

/-- A cullet queue (R318 to R324): its words, oldest first; whether the oldest packet is partly popped, and a word of it has
failed parity; whether OCC has reached HIGH_WM since it last fell below LOW_WM. -/
structure QueueSt where
  words : List QWord
  popped : Bool
  poisoned : Bool
  high : Bool
deriving DecidableEq, Repr

/-- The current entry of a fixture as the link last carried it (R263): the eight codes sent (none: no entry counts as sent), the
generation, the engine frames in which the change is still repeated, and the engine frame of the last CURRENT record. -/
structure CurSt where
  codes : Option (List Nat)
  gen : Nat
  left : Nat
  last : Nat
deriving DecidableEq, Repr

/-- What a Tuiper frame of an engine frame does when it is begun (R238, R256, R263, R267): the engine, local link and engine
frame; the fixtures whose first record it holds and those it continues; how many of them are sent LEVEL records here first; its
cells; the current entries it carries; its STRIKE and CURRENT records; whether it is the PRESENT frame; whether it holds a HOLD
or STRIKE record; and what it adds to the CRC of R314. -/
structure EngTx where
  e : Nat
  j : Nat
  num : Nat
  starts : List Nat
  conts : List Nat
  level : Nat
  cells : Nat
  curs : List (Nat × CurSt)
  strikes : Nat
  currents : Nat
  present : Bool
  change : Bool
  crc : List Nat
deriving DecidableEq, Repr

/-- What a frame handed to a port carries: bytes from the destination address on, a Tuiper message (link, words) whose SEQ is
filled in when it begins, an IGMPv3 report that joins or leaves a group of a source (0 for any), a PTP Delay_Req of a domainNumber and
sequence, in IEEE 802.3 or UDP and to the parent alone or to the group (R336), or another message of an outside standard that this model
does not lay out (log entry 21). -/
inductive TxBody where
  | bytes (data : List Byte)
  | tuiper (link : Nat) (words : List Word)
  | igmp (join : Bool) (group source : Word)
  | delayReq (domain seq : Nat) (ether unicast : Bool)
  | standard
deriving DecidableEq, Repr

/-- A frame waiting at a port or being sent: its class, what it carries, its place in an engine frame, whether it is a PAUSE, the follower instance and sequence of a Delay_Req, which asks for a transmit stamp (R344), and whether it is the ENUM or SET request of
R282. -/
structure TxFrame where
  express : Bool
  body : TxBody
  eng : Option EngTx
  pause : Bool
  ptp : Option (Nat × Nat)
  req : Bool
deriving DecidableEq, Repr

/-- A port (R298 to R317). `rx`: the frames its receive buffer holds, by length and arrival (2⁻³² ns), oldest first. Waiting: `pauses`, `express` and
`pre` (preemptable), oldest first; `cur` the frame being sent, `susp` a preemptable frame that `cur` interrupts. `hold`: a PAUSE
hold to begin after the frame in progress, in quanta. `partner`: what the link partner advertises; `upAt`: when the link came
up at its rate (ns); `target`: the rate a renegotiation aims at; `tries`: verify mPackets sent; `responds`: respond mPackets sent; `noStep`: engine frames at
RATE_MAX still to pass before a step-down (R317); `upTrig`: a change or load that asks for a step-up since the link came up;
`crc` and `lastCrc`: the CRC-64 of the engine frame in progress and of the last in which the link sent; `bytes`: bytes sent in
the engine frame in progress; `loads`: bytes of the last engine frames, newest first; `moved`: the link changed in the engine frame in
progress; `last`: the last frame that left; `tsq`: transmit stamps of the Gaffer's frames (tag, seconds, nanoseconds). -/
structure PortSt where
  rx : List (Nat × Nat)
  pauses : List TxFrame
  express : List TxFrame
  pre : List TxFrame
  cur : Option TxFrame
  susp : Option TxFrame
  hold : Option Nat
  partner : Nat
  upAt : Nat
  target : Option Nat
  tries : Nat
  responds : Nat
  noStep : Option Nat
  upTrig : Bool
  crc : Cell
  lastCrc : Option Cell
  bytes : Nat
  loads : List Nat
  moved : Bool
  last : List Byte
  tsq : List (Nat × Nat × Nat)
deriving DecidableEq, Repr

/-- A DMX port (R325 to R327). OUTPUT: `shown` the slots of frames formed and not yet past, with their presentation times (ns), newest
first; `sending`: a packet is in progress. INPUT: `slots` of the last unit, `polK` the frames since the timeout, `lastUnit` when it
arrived (ns), `newUnit`: a unit since the last boundary. -/
structure DmxPort where
  shown : List (Nat × Nat × List Nat)
  sending : Bool
  slots : List Nat
  polK : Option Nat
  lastUnit : Nat
  newUnit : Bool
  timedOut : Bool
deriving DecidableEq, Repr

/-- An RDM transaction (R328): its port and request; `phase` 0 waits for the packet in progress, 1 is being sent, 2 waits for a
response. -/
structure RdmSt where
  port : Nat
  data : List Byte
  phase : Nat
deriving DecidableEq, Repr

/-- Ports, cullet queues and DMX ports. -/
structure Net where
  ports : AMap PortSt
  queues : AMap QueueSt
  dmx : AMap DmxPort
  rdm : Option RdmSt
deriving DecidableEq, Repr

/-- A record being gathered by a link's walk: its fixture, the cells taken so far (order, format, value), and the cells still to
take (order, cell, format). -/
structure WalkFix where
  fix : Nat
  got : List (Nat × Nat × Nat)
  rest : List (Nat × Nat × Nat)
deriving DecidableEq, Repr

/-- An open frame of a link: its records' words, oldest first, and what it does when begun. -/
structure OpenFrame where
  body : List Word
  count : Nat
  tx : EngTx
deriving DecidableEq, Repr

/-- The walk of one link map in an engine frame (R221, R226, R264 to R267): fixtures still to take, the fixture being gathered, the
open CURRENT, LEVEL and HOLD frames; the cell it waits at; fixtures begun on the link; the SEQ of the first frame and the
number of frames begun; when the last one began (ns); `ended`: the send end has passed; `muted`: no further frame is begun in a
pair (R370); `closed`: the walk has ended and PRESENT has been handed over; `gap`: the link renegotiates its rate (R239). -/
structure LinkWalk where
  j : Nat
  todo : List Nat
  fixture : Option WalkFix
  curF : Option OpenFrame
  levF : Option OpenFrame
  holdF : Option OpenFrame
  waiting : Option Nat
  begun : List Nat
  firstSeq : Option Nat
  frames : Nat
  lastTx : Option Nat
  ended : Bool
  muted : Bool
  closed : Bool
  gap : Bool
deriving DecidableEq, Repr

/-- An engine frame (R222 to R245): number, start and presentation time (ns), period, latch and underrun points (offsets);
the FRAME its frames carry; frame-level loss; a repeat; the solver frame it sends (none: DIRECT or lost); its drive and current buffers; LAMP; where it
stands. `wait`: a partner waits for its HEAD; `mute`: a partner sends nothing; `partner`: frames carry PARTNER = 1. -/
structure EngFrame where
  num : Nat
  start : Nat
  pt : Nat
  period : Nat
  latch : Nat
  ur : Nat
  fld : Nat
  loss : Bool
  again : Bool
  src : Option Nat
  direct : Bool
  drv : Nat
  cur : Nat
  lamp : Bool
  carried : Bool
  latched : Bool
  urDone : Bool
  urRaised : Bool
  clipped : Bool
  injUr : Bool
  wait : Bool
  mute : Bool
  partner : Bool
  links : List LinkWalk
deriving DecidableEq, Repr

/-- A scan engine. `base` is the DIRECT base in use, `next` the one waiting; `olds` replaced bases and the engine frames still
reading them (base, engine, engine frame). Own rate: `fixed` is the solver frame fixed at the last latch point, `lastSent` the one sent last, `set` the
active set taken at the latch point, `latchUsed` the offset in use, `ep` the epoch of that set. -/
structure EngSt where
  cur : Option EngFrame
  base : Nat × Nat
  next : Option (Nat × Nat)
  olds : List ((Nat × Nat) × Nat × Nat)
  fixed : Option SolvedFrame
  lastSent : Option Nat
  set : AMap Word
  latchUsed : Option Nat
  ep : Nat
deriving DecidableEq, Repr

/-- The scan engines: engines 0 to 7; which engines still carry which frame (R240); the clip of LATCH_USED in force; presentation
times of the last frames (frame, ns). -/
structure Scan where
  engines : List EngSt
  carry : List (Nat × Nat)
  pts : List (Nat × Nat)
  latchUsed : Option Nat
  latchClip : Bool
deriving DecidableEq, Repr

/-- A set of the set table in force (R290, R291): its entry's words and its members after the check. -/
structure SetDef where
  id : Nat
  words : List Nat
  members : List Nat
deriving DecidableEq, Repr

/-- The state of a set (R292): 0 NORMAL, 1 FALLBACK, 2 HOLDING, 3 READY; cause, HOLD_CNT, the member whose fault last put it in
fallback, and the frame of its last step. -/
structure SetSt where
  state : Nat
  cause : Nat
  hold : Nat
  fix : Nat
  stepped : Option Nat
deriving DecidableEq, Repr

/-- Tuiper and supervision (R250 to R297): SEQ counters by link; current entries by fixture; the request waiting (type, link, body)
with its position; TSEQ by link, and the SYNCs sent (link, TSEQ, t1 in ns), newest first; STATE words of fixtures without a
supervision entry; the fault queue; the set tables, their states, faults detected (set, cause, fixture, frame) and re-arms (set,
frame) not yet taken, the transition queue; a checked table waiting for its epoch; and the sets whose fallback applies. -/
structure TuiperSt where
  seq : AMap Nat
  curs : AMap CurSt
  req : Option (Nat × Nat × List Word)
  tseq : AMap Nat
  syncs : List (Nat × Nat × Nat)
  sup : AMap Nat
  faultQ : List Word
  sets : List SetDef
  nextSets : Option (List SetDef × Word)
  setSt : AMap SetSt
  detected : List (Nat × Nat × Nat × Nat)
  rearms : List (Nat × Nat)
  transQ : List Word
  downs : List Nat
deriving DecidableEq, Repr

/-- What a fixture holds for one presentation time (R268 to R270): LEVEL cells by order with their CGENs, the order after its last
cell, a CURRENT record's generation and codes, a STRIKE record's codes and cells, and whether a HOLD covers it. -/
structure FixPend where
  pt : Nat
  cells : List (Nat × Cell)
  cgens : List Nat
  last : Option Nat
  cur : Option (Nat × List Nat)
  strike : Option (List Nat × List (Nat × Cell) × Option Nat)
  hold : Bool
  frame : Word
deriving DecidableEq, Repr

/-- A fixture, as the rules of 09_tuiper_link.md bind it (log entry 17): what it is, its kept parameters, whether it is muted, its
session and sequence history, its generation, pending values and values in force, its clock (ns), the masters heard (address,
PRIO, SYNCs of others since), the last SYNC (TSEQ, t1, t2) and path delay, the REPLYs due (link and source of the request), its report
counter, the source of the last frame accepted with PARTNER = 0, that of the last with PARTNER = 1 and when it came (its clock), and the
messages it has sent with the address each goes to, oldest first. `fmts`: the formats of its cells; `lastRx`: when it last accepted a LEVEL,
STRIKE, HOLD or PRESENT frame; `dreqs`: the DELAY_REQs sent in a second; `telAt`: when its last report went (its clock). -/
structure Fixture where
  uid : Cell
  model : Nat
  fw : Word
  nEmit : Nat
  sensor : Bool
  sensXyz : Bool
  preempt : Bool
  curStep : Nat
  ncells : Nat
  pendMax : Nat
  rxMax : Nat
  assigned : Bool
  fixId : Nat
  telPeriod : Nat
  lossDark : Nat
  identify : Nat
  sensorEn : Bool
  muted : Bool
  session : Option Nat
  high : Nat
  seen : List Nat
  gen : Option Nat
  pend : List FixPend
  lastPt : Option Nat
  cells : List Cell
  codes : List Nat
  frame : Word
  overflow : Bool
  clock : Nat
  heard : List (Nat × Nat × Nat)
  sync : Option (Nat × Nat × Nat)
  mpd : Option Nat
  replies : List (Nat × Nat)
  telSeq : Nat
  home : Option Nat
  partner : Option (Nat × Nat)
  fmts : List Nat
  lastRx : Nat
  dreqs : Nat × Nat
  telAt : Option Nat
  out : List (Nat × List Word)
deriving DecidableEq, Repr

/-- A PTP domain (R336, R337). Times are in 2⁻¹⁶ ns. `pending`: a two-step Sync that waits for its Follow_Up (sequence, arrival,
correction); `times`: master time, tick count of the last Syncs, newest first; `last`: origin and arrival of the last Sync;
`delays`: the last valid delay exchanges, newest first; `dreq`: the Delay_Req that waits for its response (sequence, when it
left); `validSince`: since when the domain has been VALID (ns); `dseq`: the sequence of the next Delay_Req; `ofs`: OFS; `annAt` and
`syncAt`: when the parent's last Announce and Sync arrived (ns), with the interval each gives (ns); `dreqAt`: when the last Delay_Req was
sent (ns), and the interval of the last Delay_Resp (ns). -/
structure PtpDom where
  parent : Option PtpAnnounce
  syncs : Nat
  pending : Option (Nat × Int × Int)
  times : List (Int × Nat)
  last : Option (Int × Int)
  delays : List Int
  dreq : Option (Nat × Option Int)
  validSince : Option Nat
  dseq : Nat
  ofs : Int
  annAt : Nat × Nat
  syncAt : Option (Nat × Nat)
  dreqAt : Option Nat
  dreqInt : Nat
deriving DecidableEq, Repr

/-- The genlock input (R350, R351), times in 2⁻³² ns: the last edge or predicted edge, the last periods (newest first), periods in
a row that meet the lock condition, flywheel boundaries in a row, and when an edge was last accepted (ns);
`fly`: the next boundary is a flywheel boundary; `ever`: the input has locked. -/
structure GenlockSt where
  edge : Option Nat
  periods : List Nat
  row : Nat
  misses : Nat
  lastAt : Nat
  fly : Bool
  ever : Bool
deriving DecidableEq, Repr

/-- The LTC decoder (R353, R354): when the last unit completed (ns), and units synthesised in a row. -/
structure LtcSt where
  lastAt : Nat
  fly : Nat
deriving DecidableEq, Repr

/-- A trigger (R355, R356), times in 2⁻³² ns: whether it is armed, pulses due (soonest first), the START and count of the next
periodic pulse, and when the pulse in progress began. -/
structure TrigSt where
  armed : Bool
  due : List Nat
  next : Option (Nat × Nat)
  active : Option Nat
deriving DecidableEq, Repr

/-- The time unit (R333 to R357). Krafohel time `t` counts 2⁻³² ns; `incr` is the increment in use in the same unit; `ticks` counts
TIMECLK ticks. `frame` is the number of the newest boundary; `boundary` and `prevBoundary` are the newest boundaries (R241), `bndT` the newest in 2⁻³² ns, `bndAt` where it fell before its tick (ns), `period` the time
between them, `ptNow` the presentation time of the frame in progress (ns), `bnds` the boundaries since reset; `syncN`: which multiple of the SYNC interval the last SYNC of the fixture links left at. The servo: the governing domain, the offset of the
last change of domain and when it was last moved (ns), integral, last sample, samples in a row below LOCK_NS, above 4 × LOCK_NS,
above the step threshold; `locked`: increments used while LOCKED with their durations, newest first, and since when the
present one is used. `due`: streams whose timeout the newest boundary
found and whose record is still to be taken (R23); `stepped`: a step since the last boundary; `everStep`: a step since reset;
`trigW`, `trigP`: triggers whose CFG or START was written since the last commit, and in the sealed set; `caps`: capture records (rising, ns). -/
structure Time where
  t : Nat
  incr : Nat
  ticks : Nat
  boundary : Nat
  prevBoundary : Nat
  bndT : Nat
  bndAt : Rat
  period : Nat
  ptNow : Nat
  bnds : Nat
  frame : Nat
  syncN : Option Nat
  doms : List PtpDom
  gov : Option Nat
  lastGov : Option Nat
  dRem : Rat
  dAt : Nat
  integ : Rat
  sampleAt : Option Nat
  okRun : Nat
  badRun : Nat
  stepRun : Nat
  locked : List (Nat × Nat)
  incrAt : Nat
  due : List Stream
  stepped : Bool
  everStep : Bool
  trigW : List Nat
  trigP : List Nat
  gl : GenlockSt
  ltc : LtcSt
  trigs : AMap TrigSt
  caps : AMap (List (Bool × Nat))
  mpdRuns : AMap Nat
  dreqs : AMap Nat
deriving DecidableEq, Repr

/-- The state a record carries (R374), by entry: slots, state blocks, loop and current entries as the record lays them out, and the
16 bytes of the flags. -/
structure TwinCopy where
  slots : AMap (List Byte)
  flags : List Byte
  blocks : AMap (List Byte)
  loop : AMap (List Byte)
  currents : AMap (List Byte)
deriving DecidableEq, Repr

/-- What the partner knows of a frame (R376): whether its HEAD was accepted, and how its record stands (none: not complete). -/
structure TwinFrame where
  frame : Nat
  head : Bool
  recd : Option Bool
deriving DecidableEq, Repr

/-- The twin block (R362 to R383). `nextHead`: a HEAD that arrived for the
engine frame to come; `usedHead`: the HEAD in use for the engine frame in progress; `miss`: head misses in a row; `frames`: what
the partner knows of its last frames; `ack`: the last ACK's counters, applied at the next engine frame; `based`: the frame of the
last record acknowledged; `copies`: the state after the last frames; `seg`: the segment the next record carries; `wantRebase`: the
next record begins a rebase; `full`: the partner holds the full state, with `nextSeg` the segment it expects; `recIn`: the record
that arrives (frame, its bytes by offset); `recDone`: the complete records that wait for the boundary; `take`: the
frame T of a take-back (asked, answered); `takeover`: authority is to be taken at the next boundary; `headSent` and `ackSent`: the
frames whose HEAD and ACK were sent; `digests`: CFG_DIGEST and IN_DIGEST of the last frames. Frames are the device's own frame
numbers. `helloAt`: when the next HELLO is due; `heardAt`: when the last HELLO arrived; `seekAt`: when SEEKING was entered (ns);
`again`: an unanswered take-back is asked again after the next clean frame; `takeDue`: the newest boundary is the one at which authority
is taken; `lastHead`: the FRAME of the last HEAD accepted. `recIn` and `recDone` hold a record each for the frames they name. -/
structure TwinSt where
  helloAt : Nat
  heardAt : Nat
  seekAt : Nat
  again : Bool
  takeDue : Bool
  lastHead : Option Nat
  nextHead : Option (List Word)
  usedHead : Option (List Word)
  miss : Nat
  frames : List TwinFrame
  ack : Option (List Nat)
  based : Nat
  copies : List (Nat × TwinCopy)
  seg : Option Nat
  wantRebase : Bool
  full : Bool
  nextSeg : Option Nat
  recIn : List (Nat × AMap Nat)
  recDone : List (Nat × List Byte)
  take : Option (Nat × Bool)
  takeover : Bool
  headSent : Option Nat
  ackSent : Option Nat
  digests : List (Nat × Nat × Nat)
deriving DecidableEq, Repr

/-- A die sensor (R386, R387): when it was last sampled (ns), the previous reading, samples in a row that differ too far from the median, samples in a row that
passed every condition, and samples in a row at or above SHUTDOWN. -/
structure SensorSt where
  lastAt : Option Nat
  prev : Option Int
  spread : Nat
  good : Nat
  hot : Nat
deriving DecidableEq, Repr

/-- Lehr (R385 to R399): derating factors by fixture; the sensors; T_c of each cluster over the last 100 ms, newest first (ns,
1/16 °C); clusters that became blind since the last acknowledgement; clusters in warning; clusters whose RATE demand waits for its hold, and since when (ns, from
1); since when D is above 0 (ns); the depth the clocks have glided to, and when they last took a step (ns). -/
structure LehrSt where
  der : AMap Nat
  sensors : AMap SensorSt
  hist : AMap (List (Nat × Int))
  unacked : List Nat
  warns : List Nat
  holdAt : AMap Nat
  since : Option Nat
  glide : Nat
  glideAt : Nat
deriving DecidableEq, Repr

/-- The calibration that runs and the results that wait for an epoch (R400 to R404): residuals by sensor, the time base measured and in force, and lanes'
selections (lane, slices used and bad, delay lines used and bad). `startAt`: when it started (ns); `held`: the sensor whose reading is held;
`due`: the results take effect at the newest boundary; `eyes`: when each lane's eye was last measured (ns). -/
structure CalSt where
  op : Nat
  lane : Nat
  sens : AMap Int
  tb : Option Int
  tbForce : Int
  sel : List (Nat × Nat × Nat × Nat × Nat)
  startAt : Nat
  held : Option Nat
  due : Bool
  eyes : AMap Nat
deriving DecidableEq, Repr

/-- Why a step can stop. No command of this model stops: every effect the manual gives is taken, and every value it leaves open
is a free value. The constructor is there for the shape of the interface and is never raised (safe). -/
inductive Fault where
  | none
deriving DecidableEq, Repr

/-- A command without a meaning. -/
inductive Refusal where
  /-- Raised by an arm of `exec` whose command has no meaning yet (safe: the step stops). -/
  | notModelled (mnemonic : String)
deriving DecidableEq, Repr

/-- The state of the device, with the commands that wait (`pending`, first in, first out). `free` counts the free values used. -/
structure State where
  rf : RegFile
  commit : Commit
  msix : Msix
  power : Power
  gaffer : Gaffer
  keepLog : List LogEntry
  dbg : Debug
  lease : Lease
  ingest : Ingest
  sched : Sched
  marver : MarverSt
  solver : SolverSt
  loop : LoopSt
  time : Time
  net : Net
  scan : Scan
  tuiper : TuiperSt
  fixture : Fixture
  lehr : LehrSt
  cal : CalSt
  twin : TwinSt
  mem : List Host.Cell
  free : Nat
  pending : List Instr
deriving DecidableEq, Repr

/-- The fixture at reset of the model: DESIGN CHOICE (log entry 17), a fixture of four emitters and one cell, with the parameter
defaults of R281. -/
def Fixture.initial : Fixture :=
  { uid := 0x1000000000001, model := 0, fw := 0, nEmit := 4, sensor := false, sensXyz := false, preempt := false, curStep := 0, ncells := 1,
    pendMax := 16, rxMax := 1472, assigned := false, fixId := 0, telPeriod := 100, lossDark := 0, identify := 0, sensorEn := false,
    muted := false, session := none, high := 0, seen := [], gen := none, pend := [], lastPt := none, cells := [0],
    codes := [0, 0, 0, 0, 0, 0, 0, 0], frame := 0, overflow := false, clock := 0, heard := [], sync := none, mpd := none, replies := [],
    telSeq := 0, home := none, partner := none, fmts := [0], lastRx := 0, dreqs := (0, 0), telAt := none, out := [] }

/-- A PTP domain at reset. -/
def PtpDom.initial : PtpDom := ⟨none, 0, none, [], none, [], none, none, 0, 0, (0, 0), none, none, 0⟩

/-- The time unit at reset: 4 ns a tick, and the period of the reset frame rate (R333, R348). -/
def Time.initial : Time :=
  { t := 0, incr := 4 * 2 ^ 32, ticks := 0, boundary := 0, prevBoundary := 0, bndT := 0, bndAt := 0, period := 16666667, ptNow := 0, bnds := 0, frame := 0, syncN := none,
    doms := [PtpDom.initial, PtpDom.initial], gov := none, lastGov := none, dRem := 0, dAt := 0, integ := 0, sampleAt := none,
    okRun := 0, badRun := 0, stepRun := 0, locked := [], incrAt := 0, due := [], stepped := false, everStep := false, trigW := [], trigP := [],
    gl := ⟨none, [], 0, 0, 0, false, false⟩, ltc := ⟨0, 0⟩, trigs := [], caps := [], mpdRuns := [], dreqs := [] }

/-- The Gaffer at reset, with an empty flash (log entry 23). -/
def Gaffer.initial : Gaffer :=
  { flash := [], slots := [⟨0, 0⟩, ⟨0, 0⟩, ⟨0, 0⟩], image := ⟨0, 0, 0, 0, 0, 0⟩, oldImage := ⟨0, 0, 0, 0, 0, 0⟩, mbxQ := [],
    mbxBusy := false, mgLast := [], mgOut := [], staged := 0, saving := none, migrated := none, settings := [], reversal := none,
    handoverAt := none, jackNew := [], started := false }

/-- The machine right after the release of a power-on reset: every register at its reset value, nothing listed in memory, no
buffer defined, nothing waiting (R409, R465). The fuses (DESIGN CHOICE, log entry 5): FIELD, key slots 1 to 3 programmed, minimum
security version 0. -/
def State.reset : State :=
  { rf := ⟨[(A.SYS_RESET_CAUSE, 1), (A.LIFE_STATE, 0x22), (A.LIFE_KEYS, 0xE)], [], [], [], [], [], [], [], .none, .none⟩
    commit := ⟨[], false, none, 0, 0, [], [], false, [], [], [], []⟩
    msix := ⟨BitVec.allOnes 64, 0, 0, []⟩
    power := ⟨.run, false, false, false, 0, true, false, false, false⟩
    gaffer := Gaffer.initial
    keepLog := []
    dbg := ⟨none, [], none, 0, 0, 0, 0, [], 0, [], [], none⟩
    lease := ⟨[], [], [], [], [], [], none, false, [], false⟩
    ingest := ⟨[], [], [], [], [], [], [], 0, 0, [], [], 0xFFF, []⟩
    sched := ⟨[], [], [], [], List.replicate 16 ⟨none, []⟩, List.replicate 16 ⟨false, false, true, false⟩, ⟨0xFFF, [], []⟩, none, false,
      false, [], [], 0, none, none, 0, 0, 0⟩
    marver := ⟨0, false, false, [], [], [], 0, false, none, false, 0, 0⟩
    solver := ⟨false, 2, 0, [], none, 0, [], [], [], [], false, false, false, false, [], none⟩
    loop := ⟨[], none, 0, false, 0, 0⟩
    time := Time.initial
    net := ⟨[], [], [], none⟩
    scan := ⟨List.replicate 8 ⟨none, (0xFFF, 0xFFF), none, [], none, none, [], none, 0⟩, [], [], none, false⟩
    tuiper := ⟨[], [], none, [], [], [], [], [], none, [], [], [], [], []⟩
    fixture := Fixture.initial
    lehr := ⟨[], [], [], [], [], [], none, 0, 0⟩
    cal := ⟨0, 0, [], none, 0, [], 0, none, false, []⟩
    twin := ⟨0, 0, 0, false, false, none, none, none, 0, [], none, 0, [], none, false, false, some 0, [], [], none, false, none, none, []⟩
    mem := []
    free := 0
    pending := [] }

end Sys2Proof.Machine
end

