-- ==== Sys2Proof/Machine/Ops.lean ====
section
/-!
DEFINITION. The shared operations on the register space: fields, counters, events and merging, MSI-X, guard records,
injections, page status, device memory, and the free values.
-/
namespace Sys2Proof.Machine

/-! ### Fields of a word -/

/-- The value of field `f` of a word. -/
def fget (w : Word) (f : Fld) : Nat := w.toNat / 2 ^ f.lo % 2 ^ (f.hi + 1 - f.lo)

/-- A word with field `f` set to `v` (taken modulo its width). -/
def fput (w : Word) (f : Fld) (v : Nat) : Word :=
  BitVec.ofNat 32 (w.toNat - fget w f * 2 ^ f.lo + v % 2 ^ (f.hi + 1 - f.lo) * 2 ^ f.lo)

/-- The largest value of a field. -/
def fmax (f : Fld) : Nat := 2 ^ (f.hi + 1 - f.lo) - 1

/-- A field read as a two's-complement number. -/
def fgetS (w : Word) (f : Fld) : Int :=
  let v := fget w f
  let n := 2 ^ (f.hi + 1 - f.lo)
  if n ≤ 2 * v then (v : Int) - n else v

/-- Bit `b` of a word. -/
def bitOf (w : Word) (b : Nat) : Bool := w.toNat / 2 ^ b % 2 == 1

/-- A word with bit `b` set to `v`. -/
def setBit (w : Word) (b : Nat) (v : Bool) : Word := fput w ⟨b, b⟩ v.toNat

/-- A number as a word. -/
def w32 (n : Nat) : Word := BitVec.ofNat 32 n

/-! ### Numbers that wrap (R4) -/

/-- The difference by which two numbers that wrap are compared. -/
def seqDiff (a b : Nat) : Nat := (a + 2 ^ 32 - b % 2 ^ 32) % 2 ^ 32

/-- Whether number `a` is later than `b`. -/
def later (a b : Nat) : Bool := decide (0 < seqDiff a b) && decide (seqDiff a b < 2 ^ 31)

/-- Whether number `a` is earlier than `b`: two numbers exactly 2³¹ apart are each earlier than the other. -/
def earlier (a b : Nat) : Bool := decide (2 ^ 31 ≤ seqDiff a b)

/-! ### The register file -/

/-- The live value of the register at an address. -/
def State.rd (s : State) (a : Nat) : Word := amGet resetOf s.rf.live a

/-- Set a live register. -/
def State.wr (s : State) (a : Nat) (v : Word) : State :=
  { s with rf := { s.rf with live := amSet resetOf s.rf.live a v } }

/-- A field of a live register. -/
def State.get (s : State) (a : Nat) (f : Fld) : Nat := fget (s.rd a) f

/-- Set a field of a live register. -/
def State.put (s : State) (a : Nat) (f : Fld) (v : Nat) : State := s.wr a (fput (s.rd a) f v)

/-- The active value of an RWS register (R33). -/
def State.act (s : State) (a : Nat) : Word := amGet resetOf s.rf.active a

/-- A field of the active set. -/
def State.actF (s : State) (a : Nat) (f : Fld) : Nat := fget (s.act a) f

/-- The value in the active set that governs the frame before the one in progress (R14). -/
def State.prv (s : State) (a : Nat) : Word := amGet resetOf s.rf.prev a

/-- A field of the set that governs the frame before the one in progress. -/
def State.prvF (s : State) (a : Nat) (f : Fld) : Nat := fget (s.prv a) f

/-- The shadow value of an RWS register. -/
def State.shd (s : State) (a : Nat) : Word := amGet resetOf s.rf.shadow a

/-- The pending value of an RWS register. -/
def State.pnd (s : State) (a : Nat) : Word := amGet resetOf s.rf.pend a

/-- Set the shadow value of an RWS register. -/
def State.wrShadow (s : State) (a : Nat) (v : Word) : State :=
  { s with rf := { s.rf with shadow := amSet resetOf s.rf.shadow a v } }

/-- Set the active value of an RWS register, and its pending and shadow values with it (settings placed directly, R400). -/
def State.wrActive (s : State) (a : Nat) (v : Word) : State :=
  { s with rf := { s.rf with active := amSet resetOf s.rf.active a v, pend := amSet resetOf s.rf.pend a v,
                             shadow := amSet resetOf s.rf.shadow a v } }

/-- The index of a requester. -/
def reqIdx : Req → Nat
  | .host => 0
  | .gaffer => 1

/-- A value kept per requester (kind 0: a banked register or the read hold of a pair; kind 1: its write hold). -/
def State.bank (s : State) (a kind : Nat) (r : Req) : Word := amGet (fun _ => 0) s.rf.bank (a * 4 + kind * 2 + reqIdx r)

/-- Set a value kept per requester. -/
def State.setBank (s : State) (a kind : Nat) (r : Req) (v : Word) : State :=
  { s with rf := { s.rf with bank := amSet (fun _ => 0) s.rf.bank (a * 4 + kind * 2 + reqIdx r) v } }

/-- Where a page's two hold registers per requester stand (R48): kind 0 the read hold, kind 1 the write hold. -/
def holdAt (p : Nat) : Nat := p * 0x1000 + 1

/-- Record what an access returned to its requester. -/
def State.reply (s : State) (r : Req) (c : Completion) : State :=
  match r with
  | .host => { s with rf := { s.rf with hostReply := c } }
  | .gaffer => { s with rf := { s.rf with gafferReply := c } }

/-- Add `n` to a counter field that stops at its largest value (R49). -/
def State.add (s : State) (a : Nat) (f : Fld) (n : Nat) : State := s.put a f (min (s.get a f + n) (fmax f))

/-- Count one occurrence in a counter that fills its register. -/
def State.inc (s : State) (a : Nat) : State := s.add a ⟨31, 0⟩ 1

/-- The value of a 64-bit pair, by the address of its _LO. -/
def State.rd64 (s : State) (a : Nat) : Nat := (s.rd a).toNat + (s.rd (a + 4)).toNat * 2 ^ 32

/-- Set a 64-bit pair. -/
def State.wr64 (s : State) (a : Nat) (v : Nat) : State := (s.wr a (w32 v)).wr (a + 4) (w32 (v / 2 ^ 32))

/-- Add to a 64-bit counter that stops at its largest value (R49). -/
def State.add64 (s : State) (a n : Nat) : State := s.wr64 a (min (s.rd64 a + n) (2 ^ 64 - 1))

/-- The active value of a 64-bit RWS pair. -/
def State.act64 (s : State) (a : Nat) : Nat := (s.act a).toNat + (s.act (a + 4)).toNat * 2 ^ 32

/-- The number of the newest boundary (R349); FRAME_NUM reports it (R61). -/
def State.frameNum (s : State) : Nat := s.time.frame

/-! ### Page header -/

namespace H
def PAGE_STAT (p : Nat) : Nat := p * 0x1000 + 0x008
def PAGE_CTRL (p : Nat) : Nat := p * 0x1000 + 0x00C
def EVT_STAT (p : Nat) : Nat := p * 0x1000 + 0x010
def EVT_EN (p : Nat) : Nat := p * 0x1000 + 0x014
def EVT_INJ (p : Nat) : Nat := p * 0x1000 + 0x018
def EVT_MERGED (p : Nat) : Nat := p * 0x1000 + 0x01C
def EPOCH_SEEN (p : Nat) : Nat := p * 0x1000 + 0x020
def SHADOW_DIRTY (p : Nat) : Nat := p * 0x1000 + 0x024
def GUARD_STAT (p : Nat) : Nat := p * 0x1000 + 0x028
def GUARD_CNT (p : Nat) : Nat := p * 0x1000 + 0x02C
def ST_CTRL (p : Nat) : Nat := p * 0x1000 + 0x030
def ST_STAT (p : Nat) : Nat := p * 0x1000 + 0x034
end H

/-! Page numbers of the page map (R29). -/
namespace P
def SYS : Nat := 0x000
def CLK : Nat := 0x001
def KEEP : Nat := 0x002
def HOST : Nat := 0x004
def GAFFER : Nat := 0x008
def MEM : Nat := 0x010
def LEASE : Nat := 0x011
def RASTER : Nat := 0x020
def MAPS : Nat := 0x021
def SCHED : Nat := 0x030
def BENCH (k : Nat) : Nat := 0x040 + k
def INGEST : Nat := 0x050
def FLOW (f : Nat) : Nat := 0x060 + f / 16
def SAMPLER : Nat := 0x080
def MARVER : Nat := 0x090
def SOLVER : Nat := 0x0A0
def CLOOP : Nat := 0x0A1
def SCAN (e : Nat) : Nat := 0x0B0 + e
def TUIPER : Nat := 0x0C0
def SETS : Nat := 0x0C1
def PORT (p : Nat) : Nat := 0x100 + p
def DMX : Nat := 0x148
def Q (q : Nat) : Nat := 0x150 + q
def TIME : Nat := 0x160
def PTP : Nat := 0x161
def TRIG : Nat := 0x162
def SYNC : Nat := 0x163
def TWIN : Nat := 0x170
def LEHR : Nat := 0x180
def CAL : Nat := 0x181
def GLORY : Nat := 0x190
def LIFE : Nat := 0x191
def DEBUG : Nat := 0x192
def LANE (l : Nat) : Nat := 0x1A0 + l
end P

/-- Every assigned page (R27, R29). -/
def allPages : List Nat := (List.range 0x1E6).filter fun p => (blkOf p).isSome

/-- Whether a page is withdrawn from service. -/
def State.offline (s : State) (p : Nat) : Bool := bitOf (s.rd (H.PAGE_STAT p)) 29

/-- Whether a page takes part in an epoch or a snapshot: it is in service and its clock runs (R39, R43). -/
def State.inService (s : State) (p : Nat) : Bool := !s.offline p && !s.commit.stopped.contains p

/-! ### Interrupts (R58, R59) -/

/-- Whether a page has an interrupt pending: it is assigned, and a bit is 1 in EVT_STAT AND EVT_EN (R58). -/
def State.irqPending (s : State) (p : Nat) : Bool :=
  (blkOf p).isSome && s.rd (H.EVT_STAT p) &&& s.rd (H.EVT_EN p) != 0

/-- The pages with an interrupt pending: only a listed EVT_STAT can hold a 1. -/
def State.pendPages (s : State) : List Nat :=
  s.rf.live.filterMap fun x =>
    if x.1 % 0x1000 = 0x010 ∧ s.irqPending (x.1 / 0x1000) then some (x.1 / 0x1000) else none

/-- Vector `v`'s OR over the enabled pages assigned to it. -/
def State.vecLevel (s : State) (v : Nat) (pend : List Nat) : Bool :=
  pend.any fun p => bitOf (s.rd (A.SYS_VEC_SEL p)) 31 && s.get (A.SYS_VEC_SEL p) F.SYS_VEC_SEL_VECTOR == v

/-- Send vector `v`'s message, or hold it while the vector is masked (R59). -/
def State.sendVector (s : State) (v : Nat) : State :=
  if s.msix.mask.getLsbD v then { s with msix := { s.msix with held := s.msix.held ||| (1 <<< v) } }
  else { s with msix := { s.msix with sent := v :: s.msix.sent } }

/-- Take one vector's new level: a rise sends its message. A message held for a masked vector stays held when the OR falls before the
vector is unmasked: the manual does not say that it is withdrawn (DESIGN CHOICE, log entry 39). -/
def State.vecStep (s : State) (v : Nat) (lvl : Bool) : State :=
  if lvl = s.msix.level.getLsbD v then s
  else
    let s := if lvl then s.sendVector v else s
    { s with msix := { s.msix with level := s.msix.level ^^^ (1 <<< v) } }

/-- INT_PENDk: bit b stands for page 32k + b (R58). -/
def intPendWord (pend : List Nat) (k : Nat) : Word :=
  pend.foldl (fun w p => if p / 32 = k then w ||| ((1 : Word) <<< (p % 32)) else w) 0

/-- Bring INT_PEND and the vectors up to date after a change of EVT_STAT, EVT_EN or VEC_SEL. -/
def State.irqSync (s : State) : State :=
  let pend := s.pendPages
  let s := (List.range 64).foldl (fun t v => t.vecStep v (s.vecLevel v pend)) s
  (List.range 16).foldl (fun t k => t.wr (A.SYS_INT_PEND k) (intPendWord pend k)) s

/-- The second layout of SYS offset 0x08C, SCHED_FRAME, kept beside the first (R61). -/
def schedFrameAt : Nat := A.SYS_COMMIT_STAT + 1

/-- An event of a page occurs (R50, R51). -/
def State.raise (s : State) (p bit : Nat) : State :=
  let s := if bitOf (s.rd (H.EVT_STAT p)) bit then s.put (H.EVT_MERGED p) ⟨bit, bit⟩ 1 else s
  (s.put (H.EVT_STAT p) ⟨bit, bit⟩ 1).irqSync

/-- Raise an event where a condition holds. -/
def State.raiseIf (s : State) (c : Bool) (p bit : Nat) : State := if c then s.raise p bit else s

/-- Set or clear PAGE_STAT.FAULT; its rise raises the FAULT event (R32). -/
def State.setFault (s : State) (p : Nat) (b : Bool) : State :=
  let was := bitOf (s.rd (H.PAGE_STAT p)) 31
  let s := s.put (H.PAGE_STAT p) ⟨31, 31⟩ b.toNat
  s.raiseIf (b && !was) p 28

/-! ### Guard records (R53) -/

/-- A guard action: the kind's bit of GUARD_STAT (31 REJ, 30 CLAMP, 29 CLIPPED, 28 GLITCH, 27 TIMEOUT), the LAST_FIELD code
and the field bit. -/
structure GAct where
  kind : Nat
  code : Nat
  fbit : Option Nat
deriving DecidableEq, Repr

/-- The bits of GUARD_STAT a guard action sets. -/
def GAct.bits (g : GAct) : Word :=
  (1 <<< g.kind) ||| (match g.fbit with | some b => 1 <<< b | none => 0)

/-- Record the guard actions of one cycle (R53). -/
def State.guardActs (s : State) (p : Nat) (acts : List GAct) : State :=
  if acts.isEmpty then s
  else
    let w := acts.foldl (fun w g => w ||| g.bits) (s.rd (H.GUARD_STAT p))
    let s := s.wr (H.GUARD_STAT p) (fput w ⟨23, 16⟩ (acts.foldl (fun m g => max m g.code) 0))
    let s := s.add (H.GUARD_CNT p) ⟨31, 0⟩ acts.length
    acts.foldl (fun t _ => t.raise p 31) s

/-- The LAST_FIELD code of a guard action to which the manual gives none: an unconstrained block-defined code (log entry 7). -/
def openCode (a : Nat) : Nat := Config.openCode a % 0xFE

/-- Record one guard action. -/
def State.guard1 (s : State) (p kind code : Nat) (fbit : Option Nat) : State := s.guardActs p [⟨kind, code, fbit⟩]

/-! ### Injections (R52, R455) -/

/-- Whether an injection is armed into a detector that evaluates now. -/
def State.injArmed (s : State) (p bit : Nat) : Bool := bitOf (s.rd (H.EVT_INJ p)) bit && !s.offline p

/-- A detector takes its armed injection: its EVT_INJ bit clears and the DEBUG page counts it (R52, R458). -/
def State.injTake (s : State) (p bit : Nat) : State :=
  let s := s.put (H.EVT_INJ p) ⟨bit, bit⟩ 0
  let s := s.inc A.DEBUG_INJ_TAKEN
  let s := s.wr A.DEBUG_INJ_LAST (w32 (bit * 0x10000 + p))
  s.raise P.DEBUG 0

/-- Evaluate a detector that an injection may fire: the answer, and the state with a taken injection recorded. -/
def State.detect (s : State) (p bit : Nat) (real : Bool) : Bool × State :=
  if s.injArmed p bit then (true, s.injTake p bit) else (real, s)

/-! ### Judging a written value (R21) -/

/-- One check of a written word: a rejection, a clamp of an unsigned or of a two's-complement field (±`bound`), or a stated
replacement; with its LAST_FIELD code and field bit. -/
inductive Chk where
  | rej (bad : Bool) (code : Nat) (fbit : Option Nat)
  | clamp (f : Fld) (lo hi code : Nat) (fbit : Option Nat)
  | clampS (f : Fld) (bound code : Nat) (fbit : Option Nat)
  | repl (f : Fld) (bad : Bool) (v code : Nat) (fbit : Option Nat)
deriving DecidableEq, Repr

/-- What judging a word gives: the word to store (none: rejected), and the guard actions. -/
structure Judged where
  val : Option Word
  acts : List GAct
deriving DecidableEq, Repr

/-- The limit of `lo` and `hi` nearest to `x`. -/
def nearest (x lo hi : Nat) : Nat := if x ≤ lo then lo else if hi ≤ x then hi else if x - lo ≤ hi - x then lo else hi

/-- One check, `forced` where an injection makes the value count as out of range (R455). -/
def Chk.apply (c : Chk) (forced : Bool) (j : Judged) : Judged :=
  match j.val with
  | none => j
  | some w =>
    match c with
    | .rej bad code fb => if bad || forced then ⟨none, j.acts ++ [⟨31, code, fb⟩]⟩ else j
    | .clamp f lo hi code fb =>
      if fget w f < lo || hi < fget w f || forced then
        ⟨some (fput w f (nearest (fget w f) lo hi)), j.acts ++ [⟨30, code, fb⟩]⟩ else j
    | .clampS f b code fb =>
      let v := fgetS w f
      if v < -(b : Int) || (b : Int) < v || forced then
        ⟨some (fput w f (if v < 0 then 2 ^ (f.hi + 1 - f.lo) - b else b)), j.acts ++ [⟨30, code, fb⟩]⟩ else j
    | .repl f bad v code fb => if bad || forced then ⟨some (fput w f v), j.acts ++ [⟨30, code, fb⟩]⟩ else j

/-- Judge a word by a list of checks; an armed GUARD injection makes the first check fire (R455). -/
def judgeWord (cs : List Chk) (forced : Bool) (w : Word) : Judged :=
  match cs with
  | [] => ⟨some w, []⟩
  | c :: cs => cs.foldl (fun j c => c.apply false j) (c.apply forced ⟨some w, []⟩)

/-! ### Free values (log entry 1) -/

/-- The next free value below `n`, and the state that has used it. -/
def State.fresh (s : State) (n : Nat) : Nat × State := (Config.free s.free % n, { s with free := s.free + 1 })

/-! ### Device memory (R63, R79) -/

/-- What a byte of device memory reads as when nothing has written it: 0. DESIGN CHOICE (log entry 2). -/
def memDefault (_ : Nat) : Byte := 0

/-- Memory is in its canonical form: addresses strictly rising, no byte listed that an unlisted address reads as. -/
abbrev Memory.wf (m : List Host.Cell) : Bool := amWf memDefault m

/-- One byte of device memory. -/
def State.memB (s : State) (a : Nat) : Byte := amGet memDefault s.mem a

/-- Write one byte of device memory. -/
def State.memWB (s : State) (a : Nat) (b : Byte) : State := { s with mem := amSet memDefault s.mem a b }

/-- Write bytes from an address on. -/
def State.memWrite (s : State) (a : Nat) : List Byte → State
  | [] => s
  | b :: bs => (s.memWB a b).memWrite (a + 1) bs

/-- Read `n` bytes. -/
def State.memRead (s : State) (a n : Nat) : List Byte := (List.range n).map fun i => s.memB (a + i)

/-- Little-endian value of bytes. -/
def leNat : List Byte → Nat
  | [] => 0
  | b :: bs => b.toNat + 256 * leNat bs

/-- `n` little-endian bytes of a number. -/
def leBytes : Nat → Nat → List Byte
  | 0, _ => []
  | n + 1, v => BitVec.ofNat 8 v :: leBytes n (v / 256)

/-- A 16-bit value in memory, least significant byte first. -/
def State.mem16 (s : State) (a : Nat) : Nat := leNat (s.memRead a 2)

/-- A 32-bit word in memory, least significant byte first. -/
def State.mem32 (s : State) (a : Nat) : Nat := leNat (s.memRead a 4)

/-- A 64-bit value in memory, least significant byte first (R64). -/
def State.mem64 (s : State) (a : Nat) : Nat := leNat (s.memRead a 8)

/-- Write an `n`-byte value, least significant byte first. -/
def State.memW (s : State) (a n v : Nat) : State := s.memWrite a (leBytes n v)

/-- Clear a range of memory to zeros. -/
def State.memClear (s : State) (a n : Nat) : State :=
  { s with mem := s.mem.filter fun x => x.1 < a || a + n ≤ x.1 }

/-! ### The twin state -/

/-- Whether the device takes part in a pair, its state, and whether it is partner. -/
def State.twinOn (s : State) : Bool := s.actF A.TWIN_CTRL F.TWIN_CTRL_EN == 1
def State.twinSt (s : State) : Nat := s.get A.TWIN_STAT F.TWIN_STAT_STATE
def State.isPartner (s : State) : Bool := 4 ≤ s.twinSt && s.twinSt ≤ 6

/-- A frame number as the device carries it: the pair frame number in a pair (R365). -/
def State.pairNum (s : State) (n : Nat) : Nat := (n + (s.rd A.TWIN_FRAME_OFS).toNat) % 2 ^ 32

/-! ### Gating -/

/-- A command of a block acts only while the device runs: in reset, frozen or shut down it has no effect (R409, R449). -/
def running (f : State → State) (s : State) : State := if s.power.mode = .run then f s else s

end Sys2Proof.Machine
end

