-- ==== Sys2Proof/Machine/Lease.lean ====
section
/-!
DEFINITION. Buffers, leases and host access to device memory (R78 to R91).
-/
namespace Sys2Proof.Machine

/-- The null buffer (R81). -/
def nullBuf : Nat := 0xFFF

/-- The definition of a buffer, where it has one. -/
def State.buf (s : State) (id : Nat) : Option BufDef := s.lease.bufs.find? fun b => b.id == id

/-- A buffer's first byte address; 0 where it is not defined. -/
def State.bufBase (s : State) (id : Nat) : Nat := match s.buf id with | some b => b.base * 0x10000 | none => 0

/-- A buffer's size in bytes; 0 where it is not defined. -/
def State.bufSize (s : State) (id : Nat) : Nat := match s.buf id with | some b => b.size * 0x10000 | none => 0

/-- The fields of a shadowed register that name buffers ("buffer" in the register tables, R82). -/
def bufFields (a : Nat) : List Fld :=
  let o := a % 0x1000
  match blkOf (a / 0x1000) with
  | some .rasterB => if 0x080 ≤ o ∧ o < 0x0C0 then [⟨11, 0⟩] else []
  | some .maps => if o = 0x080 then [⟨27, 16⟩, ⟨11, 0⟩] else []
  | some .sched => if o = 0x088 ∨ o = 0x08C then [⟨11, 0⟩] else []
  | some .ingest => if o = 0x084 ∨ o = 0x088 then [⟨11, 0⟩] else []
  | some .flow =>
    if 0x800 ≤ o ∧ (o % 0x80 = 0x2C ∨ o % 0x80 = 0x30 ∨ o % 0x80 = 0x34 ∨ o % 0x80 = 0x38 ∨ o % 0x80 = 0x3C)
    then [⟨11, 0⟩] else []
  | some .solver => if 0x084 ≤ o ∧ o < 0x0A0 then [⟨11, 0⟩] else []
  | some .cloop => if o = 0x084 then [⟨11, 0⟩] else []
  | some .scan => if o = 0x084 then [⟨11, 0⟩] else []
  | some .tuiper => if o = 0x0A4 then [⟨11, 0⟩] else []
  | some .sets => if o = 0x084 ∨ o = 0x088 then [⟨11, 0⟩] else []
  | some .q => if o = 0x084 then [⟨11, 0⟩] else []
  | some .time => if o = 0x108 then [⟨11, 0⟩] else []
  | some .lehr => if o = 0x0A0 then [⟨11, 0⟩] else []
  | _ => []

/-- The buffers one set's listed registers name (an unlisted register names the null buffer). -/
def setBufs (m : AMap Word) : List Nat :=
  (m.flatMap fun x => (bufFields x.1).map fun f => fget x.2 f).filter (· != nullBuf)

/-- How many set fields name a buffer (BUF_REFS, R93). -/
def State.setRefs (s : State) (id : Nat) : Nat :=
  (setBufs s.rf.shadow).count id + (setBufs s.rf.pend).count id + (setBufs s.rf.active).count id

/-- Whether the buffer that a set field names is read by every frame the set governs: of the solver's drive and current buffers a frame
reads only the pair it is solved into, and of a flow's host buffers only the one bound to it (R83, R148, R206). -/
def frameField (a : Nat) : Bool :=
  !(decide (A.SOLVER_DRV_BUF 0 ≤ a) && decide (a < A.SOLVER_DRV_BUF 0 + 24)) &&
    !(blkOf (a / 0x1000) == some .flow && decide (0x30 ≤ a % 0x80))

/-- The buffers that the set in force gives every frame to read. -/
def State.frameBufs (s : State) : List Nat := setBufs (s.rf.active.filter fun x => frameField x.1)

/-- Whether a buffer is under lease (R83): a set names it, unless it is HOSTFILL; the frame in progress or an earlier one reads it; or an
operation holds it. -/
def State.leased (s : State) (b : BufDef) : Bool :=
  (!b.hostfill && 0 < s.setRefs b.id) || (b.hostfill && s.time.bnds != 0 && s.frameBufs.contains b.id) || s.lease.frames.any (fun f => f.bufs.contains b.id) ||
    s.lease.holds.any (fun h => h.2 == b.id)

/-- The state of a buffer: 0 EMPTY, 1 IDLE, 2 LEASED, 3 FREE_PENDING (R84, R93). -/
def State.bufState (s : State) (id : Nat) : Nat :=
  match s.buf id with
  | none => 0
  | some b => if b.freePending then 3 else if s.leased b then 2 else 1

/-- A buffer's write generation (R76). -/
def State.wgen (s : State) (id : Nat) : Word := amGet (fun _ => 0) s.lease.wgen id

/-- Advance a buffer's write generation. -/
def State.bumpWgen (s : State) (id : Nat) : State :=
  { s with lease := { s.lease with wgen := amSet (fun _ => 0) s.lease.wgen id (s.wgen id + 1) } }

/-- Replace or remove the definition of a buffer. -/
def State.setBuf (s : State) (id : Nat) (b : Option BufDef) : State :=
  let rest := s.lease.bufs.filter fun x => x.id != id
  { s with lease := { s.lease with bufs := match b with | some b => b :: rest | none => rest } }

/-- Hold a buffer for a tagged operation (R83 condition 3); the null buffer is not held. -/
def State.hold (s : State) (t : HoldTag) (id : Nat) : State :=
  if id = nullBuf then s else { s with lease := { s.lease with holds := (t, id) :: s.lease.holds } }

/-- Release every hold of a tag. -/
def State.release (s : State) (t : HoldTag) : State :=
  { s with lease := { s.lease with holds := s.lease.holds.filter fun h => h.1 != t } }

/-- A FREE_PENDING buffer whose lease has ended becomes EMPTY and its completion is queued, or counted as lost (R85). -/
def State.endFree (s : State) (id : Nat) : State :=
  let s := s.setBuf id none
  let s := { s with lease := { s.lease with ended := id :: s.lease.ended } }
  if s.lease.done.length < 64 then
    { s with lease := { s.lease with done := s.lease.done ++ [id] } }.raise P.LEASE 0
  else (s.add A.LEASE_FREE_LOST ⟨15, 0⟩ 1).raise P.LEASE 2

/-- Complete every pending free whose lease has ended (R85). Several that end at once are queued in the order of `lease.bufs`, the one
freed last first: the manual gives no order (DESIGN CHOICE, log entry 39). -/
def State.leaseSweep (s : State) : State :=
  (s.lease.bufs.filter fun b => b.freePending).foldl
    (fun (t : State) b => if t.lease.bufs.contains b && !t.leased b then t.endFree b.id else t)
    { s with lease := { s.lease with ended := [] } }

/-- A frame reads further buffers (R83 condition 2). -/
def State.leaseAlso (s : State) (frame : Nat) (bufs : List Nat) : State :=
  let l := s.lease.frames
  let l := if l.any fun f => f.frame == frame then l.map fun f => if f.frame == frame then { f with bufs := (f.bufs ++ bufs).eraseDups } else f
    else l ++ [⟨frame, bufs.eraseDups⟩]
  { s with lease := { s.lease with frames := l } }

/-- Note the buffers of the frame that ends at a boundary: those its governing set gives it to read and those given (R14, R83). -/
def State.pushFrameLease (s : State) (frame : Nat) (extra : List Nat) : State :=
  let l := ((s.frameBufs.filter fun id => (s.buf id).isSome) ++ extra).eraseDups
  if l.isEmpty then s else { s with lease := { s.lease with frames := s.lease.frames ++ [⟨frame, l⟩] } }

/-- Step 8 of a frame: its leases end (R17). -/
def State.step8 (s : State) (frame : Nat) : State :=
  { s with lease := { s.lease with frames := s.lease.frames.filter fun f => f.frame != frame } }

/-! ### Buffer commands (R81 to R86) -/

/-- Report a command's result to its requester: RESULT, OTHER and the buffer's state after it. -/
def State.bufResult (s : State) (r : Req) (res other id : Nat) : State :=
  s.setBank A.LEASE_BUF_RESULT 0 r (w32 (res * 2 ^ 28 + other * 2 ^ 12 + s.bufState id))

/-- The buffer that holds the lowest-numbered granule of `base … base + size − 1` that another buffer holds (R81). -/
def State.overlap (s : State) (id base size : Nat) : Option BufDef :=
  (s.lease.bufs.filter fun b => b.id != id && decide (b.base < base + size) && decide (base < b.base + b.size)).foldl
    (fun o b => match o with
      | none => some b
      | some c => if max b.base base < max c.base base then some b else some c) none

/-- BUF_CMD = DEFINE (R81). -/
def bufDefine (r : Req) (s : State) : State :=
  let id := (s.bank A.LEASE_BUF_SEL 0 r).toNat % 0x1000
  let base := fget (s.bank A.LEASE_BUF_BASE 0 r) ⟨18, 0⟩
  let size := fget (s.bank A.LEASE_BUF_SIZE 0 r) ⟨18, 0⟩
  if s.bufState id ≠ 0 then s.bufResult r 6 0 id
  else if size = 0 then s.bufResult r 5 0 id
  else if base < 12288 ∨ 0x80000 < base + size then s.bufResult r 4 0 id
  else
    match s.overlap id base size with
    | some b => s.bufResult r 3 b.id id
    | none =>
      let s := s.setBuf id (some ⟨id, base, size, bitOf (s.bank A.LEASE_BUF_ATTR 0 r) 0, false⟩)
      let s := s.bumpWgen id
      let s := { s with lease := { s.lease with stamps := s.lease.stamps.filter fun m => m.cell != id } }
      s.bufResult r 1 0 id

/-- BUF_CMD = FREE (R84). -/
def bufFree (r : Req) (s : State) : State :=
  let id := (s.bank A.LEASE_BUF_SEL 0 r).toNat % 0x1000
  match s.buf id with
  | none => s.bufResult r 6 0 id
  | some b =>
    if b.freePending then s.bufResult r 2 0 id
    else if s.leased b then (s.setBuf id (some { b with freePending := true })).bufResult r 2 0 id
    else (s.setBuf id none).bufResult r 1 0 id

/-- BUF_CMD = CANCEL (R86). A lease that ends in the same cycle completes the free, and the command is too late. -/
def bufCancel (r : Req) (s : State) : State :=
  let id := (s.bank A.LEASE_BUF_SEL 0 r).toNat % 0x1000
  match s.buf id with
  | none => s.bufResult r (if s.lease.meets && s.lease.ended.contains id then 7 else 6) 0 id
  | some b =>
    if b.freePending then
      if s.leased b then (s.setBuf id (some { b with freePending := false })).bufResult r 1 0 id
      else (s.endFree id).bufResult r 7 0 id
    else s.bufResult r 6 0 id

/-- BUF_CMD = QUERY (R86). -/
def bufQuery (r : Req) (s : State) : State :=
  let id := (s.bank A.LEASE_BUF_SEL 0 r).toNat % 0x1000
  let put (s : State) (base size attr : Nat) (gen : Word) (refs : Nat) : State :=
    ((((s.setBank A.LEASE_BUF_BASE 0 r (w32 base)).setBank A.LEASE_BUF_SIZE 0 r (w32 size)).setBank
      A.LEASE_BUF_ATTR 0 r (w32 attr)).setBank A.LEASE_BUF_WGEN 0 r gen).setBank A.LEASE_BUF_REFS 0 r (w32 refs)
  let s := match s.buf id with
    | none => put s 0 0 0 0 0
    | some b => put s b.base b.size b.hostfill.toNat (s.wgen id) (min (s.setRefs id) 0xFFFF)
  s.bufResult r 1 0 id

/-- A read of LEASE.FREE_DONE: the oldest completion (R93). -/
def freeDoneTake (s : State) : Word × State :=
  match s.lease.done with
  | [] => (0, s)
  | id :: rest => (w32 (2 ^ 31 + id), { s with lease := { s.lease with done := rest } })

/-! ### Access to device memory (R87, R88, R91) -/

/-- Where a 64-byte block of device address lies: the REGION code of VIOL_INFO and the buffer, with region 5 for a defined
buffer that is IDLE (R87, R93). -/
def State.region (s : State) (a : Nat) : Nat × Nat :=
  if 2 ^ 35 ≤ a then (4, 0)
  else if a < 0x20000000 then (0, 0)
  else if a < 0x30000000 then (1, 0)
  else
    match s.lease.bufs.find? (fun b => decide (b.base ≤ a / 0x10000) && decide (a / 0x10000 < b.base + b.size)) with
    | none => (2, 0)
    | some b => (if s.bufState b.id = 1 then 5 else 3, b.id)

/-- Whether a block is blocked for a requester (R87). -/
def State.blocked (s : State) (r : Req) (isWrite : Bool) (a : Nat) : Bool :=
  match (s.region a).1 with
  | 0 => r == .host
  | 1 => isWrite
  | 2 => true
  | 3 => isWrite
  | 4 => true
  | _ => false

/-- Record a blocked access whose first blocked byte is at `a` (R88). -/
def State.violation (s : State) (r : Req) (isWrite : Bool) (a : Nat) : State :=
  let g := s.region a
  let s := s.inc A.LEASE_VIOL_CNT
  let s := s.wr64 A.LEASE_VIOL_ADDR_LO (a % 2 ^ 35)
  let s := s.wr A.LEASE_VIOL_INFO
    (w32 (isWrite.toNat * 2 ^ 31 + g.1 * 2 ^ 28 + reqIdx r * 2 ^ 12 + (if g.1 = 3 then g.2 else 0)))
  s.raise P.LEASE 1

/-- The first blocked byte of a request, if any. -/
def State.firstBlocked (s : State) (r : Req) (isWrite : Bool) (a len : Nat) : Option Nat :=
  (List.range len).find? (fun i => s.blocked r isWrite ((a + i) / 64 * 64)) |>.map (a + ·)

/-- A write request to device memory: blocked blocks are discarded, the others written (R87, R88). -/
def memWriteReq (r : Req) (a : Nat) (data : List Byte) (s : State) : State :=
  let pairs := (List.range data.length).zip data
  let ok := pairs.filter fun x => !s.blocked r true ((a + x.1) / 64 * 64)
  let touched := (((ok.map fun x => s.region ((a + x.1) / 64 * 64)).filter fun g => g.1 == 5).map fun g => g.2).eraseDups
  let fb := s.firstBlocked r true a data.length
  let s := ok.foldl (fun t x => t.memWB (a + x.1) x.2) s
  let s := touched.foldl (fun t id => t.bumpWgen id) s
  let s := if ok.isEmpty then s else s.add64 A.MEM_WR_BYTES_LO ok.length
  match fb with
  | some b => s.violation r true b
  | none => s

/-- The ECC detectors at a read burst at `a` (R91, R455): whether the burst reads as zeros, and the state after. -/
def eccRead (a : Nat) (s : State) : Bool × State :=
  let ce := s.detect P.MEM 0 false
  let s := if ce.1 then (ce.2.inc A.MEM_ECC_CE_CNT).raise P.MEM 0 else ce.2
  let ue := s.detect P.MEM 1 false
  if ue.1 then
    let s := (ue.2.inc A.MEM_ECC_UE_CNT).wr64 A.MEM_UE_ADDR_LO a
    (true, (s.raise P.MEM 1).setFault P.MEM true)
  else (false, ue.2)

/-- The burst at `a`, which an engine read as zeros, holds what it held in `s`, but for what the engine wrote there. -/
def burstBack (a : Nat) (s t : State) : State :=
  (List.range 64).foldl (fun (t : State) i =>
    if t.memB (a / 64 * 64 + i) = 0 then t.memWB (a / 64 * 64 + i) (s.memB (a / 64 * 64 + i)) else t) t

/-- What an engine reads from `a` on: its first burst of 64 bytes may report an error, and reads as zeros where that is uncorrectable
(R91, R455, log entry 24). -/
def engineRead (a : Nat) (f : State → State) (s : State) : State :=
  let e := eccRead a s
  if e.1 then burstBack a s (f (e.2.memClear (a / 64 * 64) 64)) else f e.2

/-- The traffic of the engines since a byte counter was last read, once any has worked: a free amount of each (R92, log entry 24). -/
def memTraffic (s : State) : State :=
  if s.time.bnds = 0 ∧ s.rd A.MAPS_BUILD_STAT = 0 then s
  else
    let r := s.fresh (2 ^ 48)
    let w := r.2.fresh (2 ^ 48)
    (w.2.add64 A.MEM_RD_BYTES_LO r.1).add64 A.MEM_WR_BYTES_LO w.1

/-- A read request from device memory: its data, or none where a block is blocked (R87, R88, R91). PRESUMED: a burst is 64
bytes (log entry 24). -/
def memReadReq (r : Req) (a len : Nat) (s : State) : Option (List Byte) × State :=
  match s.firstBlocked r false a len with
  | some b => (none, s.violation r false b)
  | none =>
    if len = 0 then (some [], s)
    else
      let e := eccRead a s
      let burst := a / 64 * 64 + 64
      let d := (e.2.memRead a len).mapIdx fun i b => if e.1 && decide (a + i < burst) then 0 else b
      (some d, e.2.add64 A.MEM_RD_BYTES_LO len)

end Sys2Proof.Machine
end

