-- ==== Sys2Proof/Machine/Maps.lean ====
section
/-!
DEFINITION. Fixture maps, cell maps, map builds and the layer regions (R63 to R77, R89).
-/
namespace Sys2Proof.Machine

/-! ### Cell maps -/

/-- The format code of order `k` of profile `p` (R72). -/
def State.profileCode (s : State) (p k : Nat) : Nat :=
  let per := s.get (A.MAPS_PROFILE_B p) F.MAPS_PROFILE_B_PERIOD + 1
  let o := if k < 16 then k else 16 - per + (k - 16) % per
  (s.rd (A.MAPS_PROFILE_A p)).toNat / 4 ^ o % 4

/-- Whether a profile is valid for a COUNT: every COMPANION order follows a LIGHT order (R72). -/
def State.profileOk (s : State) (p count : Nat) : Bool :=
  (List.range count).all fun k => s.profileCode p k != 3 || (k != 0 && s.profileCode p (k - 1) == 0)

/-- A fixture-map entry as the build and the scan engines read it (R70): COUNT and RECT_W are given as stored. -/
structure FixEntry where
  shape : Nat
  first : Nat
  rectW : Nat
  count : Nat
  profile : Nat
  table : Nat
deriving DecidableEq, Repr

/-- The entry of fixture `f` in the fixture map at `base` (R70). -/
def State.fixEntry (s : State) (base f : Nat) : FixEntry :=
  let w0 := s.mem32 (base + f * 16)
  let w1 := s.mem32 (base + f * 16 + 4)
  let w2 := s.mem32 (base + f * 16 + 8)
  ⟨w0 / 2 ^ 30, w0 % 2 ^ 24, w1 / 2 ^ 16 % 2 ^ 11, w1 % 2 ^ 11, w2 / 2 ^ 24, w2 % 2 ^ 16⟩

/-- The cell index of position `k`, or none where the position is dropped (R71). COUNT and RECT_W are already clamped. -/
def FixEntry.position (e : FixEntry) (k : Nat) : Option Nat :=
  if e.shape = 0 then (if e.first + k < 2 ^ 24 then some (e.first + k) else none)
  else if e.rectW = 0 then none
  else
    let x := e.first % 4096 + k % e.rectW
    let y := e.first / 4096 + k / e.rectW
    if x < 4096 ∧ y < 4096 then some (y * 4096 + x) else none

/-- The kept cells of a fixture in order (R71), with COUNT and RECT_W clamped to 1,024 (R75). -/
def FixEntry.cells (e : FixEntry) : List Nat :=
  let e := { e with count := min e.count 1024, rectW := min e.rectW 1024 }
  (List.range e.count).filterMap e.position

/-- The fields of a cell-map entry (R73). -/
structure CellEntry where
  fmt : Nat
  owned : Bool
  ord : Nat
  owner : Nat
deriving DecidableEq, Repr

/-- Read a cell-map entry. -/
def CellEntry.ofNat (w : Nat) : CellEntry := ⟨w / 2 ^ 30 % 4, w / 2 ^ 29 % 2 == 1, w / 2 ^ 18 % 2 ^ 10, w % 2 ^ 18⟩

/-- A build in the middle of its work. -/
structure BuildRun where
  s : State
  job : MapBuild
deriving DecidableEq, Repr

/-- Write the entries of one fixture's kept cells, stopping at a cell already owned (R74, R75). -/
def buildCells (base fix profile : Nat) : List Nat → Nat → BuildRun → BuildRun
  | [], _, r => r
  | c :: cs, k, r =>
    let old := CellEntry.ofNat (r.s.mem32 (base + c * 4))
    if old.owned then { r with job := { r.job with fail := some ⟨3, some fix, old.owner, some c⟩ } }
    else
      let w := r.s.profileCode profile k * 2 ^ 30 + 2 ^ 29 + k * 2 ^ 18 + fix
      buildCells base fix profile cs (k + 1) { s := r.s.memW (base + c * 4) 4 w, job := { r.job with owned := r.job.owned + 1 } }

/-- One fixture of a build. -/
def buildFix (fixBase cellBase : Nat) (r : BuildRun) (fix : Nat) : BuildRun :=
  match r.job.fail with
  | some _ => r
  | none =>
    let e := r.s.fixEntry fixBase fix
    let r := { r with job := { r.job with progress := fix + 1 } }
    let count := min e.count 1024
    if 2 ≤ e.shape then { r with job := { r.job with fail := some ⟨4, some fix, 0, none⟩ } }
    else
      let r := if 1024 < e.count then { r with s := r.s.guard1 P.MAPS 30 0x18 (some 0) } else r
      let r := if e.shape = 1 ∧ 1024 < e.rectW then { r with s := r.s.guard1 P.MAPS 30 0x18 (some 0) } else r
      if !r.s.profileOk e.profile count then { r with job := { r.job with fail := some ⟨4, some fix, 0, none⟩ } }
      else
        let kept := e.cells
        let lost := !(e.shape == 1 && e.rectW == 0) && decide (kept.length < count)
        let r := if lost then
          { s := r.s.guard1 P.MAPS 29 0x19 (some 1)
            job := { r.job with clips := r.job.clips + 1, clipLast := w32 (kept.length * 2 ^ 18 + fix) } } else r
        buildCells cellBase fix e.profile kept 0 r

/-- A build reads the fixture map on, up to entry `n`, and writes the positions kept (R74); BUILD_STAT, CLIP_COUNT and CLIP_LAST follow. -/
def buildOn (b : MapBuild) (n : Nat) (s : State) : State :=
  let n := min n (min 262144 (s.bufSize b.fix / 16))
  let r := ((List.range n).drop b.progress).foldl (buildFix (s.bufBase b.fix) (s.bufBase b.cell)) ⟨s, b⟩
  let s := (r.s.wr A.MAPS_CLIP_COUNT (w32 r.job.clips)).wr A.MAPS_CLIP_LAST
    (if r.job.clips = 0 then r.s.rd A.MAPS_CLIP_LAST else r.job.clipLast)
  { s.wr A.MAPS_BUILD_STAT (w32 (2 ^ 30 + r.job.progress)) with lease := { s.lease with build := some r.job } }

/-- A write of MAPS.BUILD_CMD (R74). The build clears its target and has read some entries, a free number of them, before the next
command (log entry 1). -/
def mapsBuildOp (v : Word) (s : State) : State :=
  let fix := fget v ⟨27, 16⟩
  let cell := fget v ⟨11, 0⟩
  let forced := s.detect P.MAPS 31 false
  if !bitOf v 31 then s
  else if forced.1 then forced.2.guard1 P.MAPS 31 0x1C (some 4)
  else if s.lease.build.isSome || fix == nullBuf || cell == nullBuf || s.bufState fix == 0 || s.bufState fix == 3 ||
      s.bufState cell != 1 then
    s.guard1 P.MAPS 31 0x1C (some 4)
  else
    let b : MapBuild := ⟨fix, cell, s.wgen fix, 0, 0, 0, 0, none⟩
    let s := { s with lease := { s.lease with build := some b, stamps := s.lease.stamps.filter fun m => m.cell != cell } }
    let s := (s.hold .build fix).hold .build cell
    let s := if s.bufSize fix < 0x400000 then s.guard1 P.MAPS 29 0x1A (some 2) else s
    let n := s.fresh 262145
    if s.bufSize cell < 0x4000000 then (s.wr A.MAPS_BUILD_STAT (w32 (2 ^ 30))).wr A.MAPS_CLIP_COUNT 0
    else engineRead (s.bufBase fix) (fun t => buildOn b n.1 (t.memClear (t.bufBase cell) 0x4000000)) n.2

/-- End a build that failed (R75). -/
def buildFailed (r : BuildFail) (progress : Nat) (s : State) : State :=
  let s := match r.fix with | some f => s.wr A.MAPS_FAIL_FIX (w32 f) | none => s
  let s := match r.cell with
    | some c => (s.wr A.MAPS_PRIOR_FIX (w32 r.prior)).wr A.MAPS_FAIL_CELL (w32 c)
    | none => s
  let s := s.wr A.MAPS_BUILD_STAT (w32 (3 * 2 ^ 30 + r.reason * 2 ^ 24 + progress))
  ({ s with lease := { s.lease with build := none } }.release .build).raise P.MAPS 1

/-- A build ends ABORTED (R75): MAPS is reset while it runs. -/
def buildAbort (s : State) : State :=
  if s.lease.build.isSome then buildFailed ⟨6, none, 0, none⟩ (s.get A.MAPS_BUILD_STAT ⟨18, 0⟩) s else s

/-- The build in progress runs to its end: it reads the rest of the fixture map and writes the entries (R74, R75), and on success
stamps the target (R76). -/
def mapBuildEndOp (s : State) : State :=
  match s.lease.build with
  | none => s
  | some b =>
    if s.bufSize b.cell < 0x4000000 then buildFailed ⟨2, none, 0, none⟩ 0 s
    else
      let s := buildOn b 262144 s
      let b := s.lease.build.getD b
      match b.fail with
      | some f => buildFailed f b.progress s
      | none =>
        let s := s.wr A.MAPS_BUILD_STAT (w32 (2 * 2 ^ 30 + b.progress))
        let s := { s with lease := { s.lease with
          build := none, stamps := ⟨b.cell, b.fix, b.gen, b.owned⟩ :: s.lease.stamps } }
        (s.release .build).raise P.MAPS 0

/-- Whether a MAP_SET value is accepted by the map-set rule (R76). -/
def State.mapSetOk (s : State) (v : Word) : Bool :=
  let fix := fget v ⟨27, 16⟩
  let cell := fget v ⟨11, 0⟩
  (fix == nullBuf && cell == nullBuf) ||
    s.lease.stamps.any fun m => m.cell == cell && m.fix == fix && m.gen == s.wgen fix

/-- The maps of a set: the fixture map's and the cell map's byte addresses, or none while MAP_SET is null (R77). -/
def State.mapsOf (s : State) (v : Word) : Option (Nat × Nat) :=
  let fix := fget v ⟨27, 16⟩
  let cell := fget v ⟨11, 0⟩
  if fix = nullBuf ∨ cell = nullBuf then none else some (s.bufBase fix, s.bufBase cell)

/-- The cell-map entry of cell `c` under maps `m`; an unowned cell's is 0 (R73, R77). -/
def State.cellEntry (s : State) (m : Option (Nat × Nat)) (c : Nat) : CellEntry :=
  match m with
  | none => CellEntry.ofNat 0
  | some b => CellEntry.ofNat (s.mem32 (b.2 + c * 4))

/-- The fixture-map entry of fixture `f` under maps `m`. -/
def State.fixOf (s : State) (m : Option (Nat × Nat)) (f : Nat) : FixEntry :=
  match m with
  | none => ⟨0, 0, 0, 0, 0, 0⟩
  | some b => s.fixEntry b.1 f

/-! ### Layer regions (R89) -/

/-- A layer's region in use. -/
structure Region where
  base : Nat
  x0 : Nat
  y0 : Nat
  w : Nat
  h : Nat
  clipped : Bool
deriving DecidableEq, Repr

/-- The region of layer `i` under a set of registers read by `rd` (R89). -/
def State.regionBy (s : State) (rd : Nat → Word) (i : Nat) : Region :=
  let b := fget (rd (A.RASTER_LAYER_BUF i)) ⟨11, 0⟩
  let x0 := fget (rd (A.RASTER_LAYER_ORG i)) ⟨11, 0⟩
  let y0 := fget (rd (A.RASTER_LAYER_ORG i)) ⟨27, 16⟩
  let w := fget (rd (A.RASTER_LAYER_EXT i)) ⟨12, 0⟩
  let h := fget (rd (A.RASTER_LAYER_EXT i)) ⟨28, 16⟩
  if b = nullBuf ∨ w = 0 ∨ h = 0 then ⟨s.bufBase b, x0, y0, 0, 0, false⟩
  else
    let w1 := min w (4096 - x0)
    let h1 := min h (4096 - y0)
    let h2 := min h1 (s.bufSize b / 8 / w1)
    ⟨s.bufBase b, x0, y0, w1, h2, decide (w1 < w) || decide (h2 < h)⟩

/-- The region of layer `i` under the active set. -/
def State.layer (s : State) (i : Nat) : Region := s.regionBy s.act i

/-- The device address of cell index `c` in a layer's buffer; none where the cell lies outside its region (R89). -/
def Region.addr (g : Region) (c : Nat) : Option Nat :=
  let x := c % 4096
  let y := c / 4096
  if g.x0 ≤ x ∧ x < g.x0 + g.w ∧ g.y0 ≤ y ∧ y < g.y0 + g.h then some (g.base + ((y - g.y0) * g.w + (x - g.x0)) * 8)
  else none

/-- LAYER_USED and the clip records from an epoch applied (R89, R94), and OWNED of the map set in force (R95). -/
def rasterEpoch (s : State) : State :=
  let s := (List.range 16).foldl (fun t i =>
    let g := t.layer i
    let t := t.wr (A.RASTER_LAYER_USED i) (w32 (g.h * 2 ^ 16 + g.w))
    if g.clipped then (t.guard1 P.RASTER 29 0x14 (some 0)).raise P.RASTER 0 else t) s
  let v := s.act A.MAPS_MAP_SET
  let owned := match s.lease.stamps.find? (fun m => m.cell == fget v ⟨11, 0⟩ && m.fix == fget v ⟨27, 16⟩) with
    | some m => m.owned
    | none => 0
  s.wr A.MAPS_OWNED (w32 owned)

/-! ### Substitutions (R66) -/

/-- Count substitutions of the frame in progress; the first of a frame is recorded (R66). -/
def State.subst (s : State) (n : Nat) : State :=
  if n = 0 then s
  else
    let s := s.add A.RASTER_SUBST_CNT ⟨31, 0⟩ n
    if s.lease.substFrame then s
    else ({ s with lease := { s.lease with substFrame := true } }.guard1 P.RASTER 30 0x15 (some 1)).raise P.RASTER 1

end Sys2Proof.Machine
end

