-- ==== Sys2Proof/Machine/Numeric.lean ====
section
/-!
DEFINITION. Exact rational arithmetic and its rounding to binary16, binary32 and binary64, to nearest with ties to even, as
the arithmetic rules of the manual are written (R24, R65, R66, R106 to R109, R157 to R163, R192 to R200).
Transcendental functions are computed to 2⁻¹⁹² and then rounded (log entry 14).
-/
namespace Sys2Proof.Machine

/-- Round to the nearest integer, ties to even. -/
def roundEven (x : Rat) : Int :=
  let f := x.floor
  let r := x - f
  if r < 1 / 2 then f else if 1 / 2 < r then f + 1 else if f % 2 = 0 then f else f + 1

/-- A power of two with any exponent. -/
def pow2 (e : Int) : Rat := if 0 ≤ e then (2 ^ e.toNat : Nat) else 1 / ((2 ^ (-e).toNat : Nat) : Rat)

/-- Absolute value. -/
def absQ (x : Rat) : Rat := if x < 0 then -x else x

/-- The exponent `e` with 2^e ≤ |x| < 2^(e+1), for x ≠ 0. -/
def ilog2 (x : Rat) : Int :=
  let e := (Nat.log2 x.num.natAbs : Int) - (Nat.log2 x.den : Int)
  if absQ x < pow2 e then e - 1 else if pow2 (e + 1) ≤ absQ x then e + 1 else e

/-- Round to `p` significant bits, the unit in the last place never below 2^emin. -/
def roundFloat (p : Nat) (emin : Int) (x : Rat) : Rat :=
  if x = 0 then 0
  else
    let u := pow2 (max (ilog2 x - (p - 1 : Nat)) emin)
    (roundEven (x / u) : Rat) * u

/-- Round to binary16, not limiting large values. -/
def rnd16 (x : Rat) : Rat := roundFloat 11 (-24) x

/-- Round to binary32, not limiting large values. -/
def rnd32 (x : Rat) : Rat := roundFloat 24 (-149) x

/-- Round to binary64, not limiting large values. -/
def rnd64 (x : Rat) : Rat := roundFloat 53 (-1074) x

/-- What a stored floating-point number is. -/
inductive Flt where
  | nan
  | inf (neg : Bool)
  | fin (x : Rat)
deriving DecidableEq

/-- Decode a float of `eb` exponent bits and `mb` fraction bits (the sign above them). −0 decodes as 0 (R481). -/
def decodeFloat (eb mb w : Nat) : Flt :=
  let m := w % 2 ^ mb
  let e := w / 2 ^ mb % 2 ^ eb
  let neg := w / 2 ^ (mb + eb) % 2 == 1
  let bias : Int := (2 ^ (eb - 1) : Nat) - 1
  if e = 2 ^ eb - 1 then (if m = 0 then .inf neg else .nan)
  else
    let x := if e = 0 then (m : Rat) * pow2 (1 - bias - mb) else ((2 ^ mb + m : Nat) : Rat) * pow2 ((e : Int) - bias - mb)
    .fin (if neg then -x else x)

/-- Decode binary16. -/
def dec16 (w : Nat) : Flt := decodeFloat 5 10 w

/-- Decode binary32. -/
def dec32 (w : Nat) : Flt := decodeFloat 8 23 w

/-- Encode a representable finite number of at most the largest finite value. -/
def encodeFloat (eb mb : Nat) (x : Rat) : Nat :=
  if x = 0 then 0
  else
    let bias : Int := (2 ^ (eb - 1) : Nat) - 1
    let a := absQ x
    let e := ilog2 a
    let s := if x < 0 then 2 ^ (eb + mb) else 0
    if e < 1 - bias then s + (a / pow2 (1 - bias - mb)).floor.toNat
    else s + (e + bias).toNat * 2 ^ mb + ((a / pow2 (e - mb)).floor.toNat - 2 ^ mb)

/-- Encode a non-negative result as binary16: rounded, and limited to 65,504. -/
def enc16 (x : Rat) : Nat := encodeFloat 5 10 (min (rnd16 x) 65504)

/-- The largest finite binary32. -/
def max32 : Rat := ((2 ^ 24 - 1 : Nat) : Rat) * pow2 104

/-- Encode as binary32: rounded, a larger magnitude becoming infinity. -/
def enc32 (x : Rat) : Nat :=
  let r := rnd32 x
  if max32 < r then 0xFF * 2 ^ 23 else if r < -max32 then 0x1FF * 2 ^ 23 else encodeFloat 8 23 r

/-- An X, Y or Z component read through the substitutions of R66: its value, and whether it was substituted. -/
def readXyz (w : Nat) : Rat × Bool :=
  match dec16 w with
  | .nan => (0, true)
  | .inf true => (0, true)
  | .inf false => (65504, true)
  | .fin x => if w / 2 ^ 15 % 2 = 1 then (0, true) else (x, false)

/-- A binary32 value read as a number: NaN and infinities as `d`. -/
def num32 (d : Rat) (w : Nat) : Rat := match dec32 w with | .fin x => x | _ => d

/-- A binary16 value read as a number: NaN and infinities as `d`. -/
def num16 (d : Rat) (w : Nat) : Rat := match dec16 w with | .fin x => x | _ => d

/-- Whether a binary32 word is finite. -/
def finite32 (w : Nat) : Bool := match dec32 w with | .fin _ => true | _ => false

/-- Whether a binary16 word is finite. -/
def finite16 (w : Nat) : Bool := match dec16 w with | .fin _ => true | _ => false

/-- Integer square root, bit by bit from bit `k`. -/
def isqrtGo (n : Nat) : Nat → Nat → Nat
  | 0, r => r
  | k + 1, r => let t := r + 2 ^ k; isqrtGo n k (if t * t ≤ n then t else r)

/-- The largest r with r² ≤ n. -/
def isqrt (n : Nat) : Nat := isqrtGo n (Nat.log2 n / 2 + 1) 0

/-- The square root of a natural number, correctly rounded to binary64. -/
def sqrt64 (n : Nat) : Rat :=
  let r := isqrt (n * 2 ^ 256)
  -- the square root lies in [r, r + 1) / 2^128; a sticky half keeps the rounding exact
  rnd64 (if r * r = n * 2 ^ 256 then (r : Rat) / (2 ^ 128 : Nat) else ((r : Rat) + 1 / 2) / (2 ^ 128 : Nat))

/-! ### Transcendental functions, in units of 2⁻¹⁹² -/

/-- One in fixed point. -/
def fxOne : Int := 2 ^ 192

/-- Product of two fixed-point numbers. -/
def fxMul (a b : Int) : Int := a * b / fxOne

/-- A rational in fixed point. -/
def fxOf (x : Rat) : Int := (x * (fxOne : Rat)).floor

/-- A fixed-point number as a rational. -/
def fxTo (a : Int) : Rat := (a : Rat) / (fxOne : Rat)

/-- Σ t·(x/n)(x/(n+1))…: the tail of the exponential series, `fuel` terms from the term `t` with index `n`. -/
def fxExpGo (x : Int) : Nat → Nat → Int → Int
  | 0, _, _ => 0
  | f + 1, n, t => t + fxExpGo x f (n + 1) (fxMul t x / ((n + 1 : Nat) : Int))

/-- arctanh(1/k) in fixed point, by its series. -/
def fxAtanhInvGo (k2 : Int) : Nat → Nat → Int → Int
  | 0, _, _ => 0
  | f + 1, n, t => t / (n : Int) + fxAtanhInvGo k2 f (n + 2) (t / k2)

/-- ln 2 = 2·arctanh(1/3), in fixed point. -/
def fxLn2 : Int := 2 * fxAtanhInvGo 9 66 1 (fxOne / 3)

/-- e^x for a fixed-point x, as a rational. -/
def expRat (x : Rat) : Rat :=
  let k := (x * (fxOne : Rat) / (fxLn2 : Rat)).floor
  let r := fxOf x - k * fxLn2
  fxTo (fxExpGo r 60 0 fxOne) * pow2 k

/-- Σ y^n/n over odd n: arctanh y for a fixed-point y. -/
def fxAtanhGo (y2 : Int) : Nat → Nat → Int → Int
  | 0, _, _ => 0
  | f + 1, n, t => t / (n : Int) + fxAtanhGo y2 f (n + 2) (fxMul t y2)

/-- ln x for x > 0. -/
def lnRat (x : Rat) : Rat :=
  let e := ilog2 x
  let m := x / pow2 e
  let y := fxOf ((m - 1) / (m + 1))
  fxTo (2 * fxAtanhGo (fxMul y y) 125 1 y + e * fxLn2)

/-- x^y for x ≥ 0. -/
def powRat (x y : Rat) : Rat := if x = 0 then 0 else if x = 1 then 1 else expRat (y * lnRat x)

/-- arctan(1/k) in fixed point. -/
def fxAtanInvGo (k2 : Int) : Nat → Nat → Int → Int
  | 0, _, _ => 0
  | f + 1, n, t => t / (n : Int) - fxAtanInvGo k2 f (n + 2) (t / k2)

/-- π in fixed point, by Machin's formula. -/
def fxPi : Int := 16 * fxAtanInvGo 25 45 1 (fxOne / 5) - 4 * fxAtanInvGo 57121 15 1 (fxOne / 239)

/-- The sine series. -/
def fxSinGo (x2 : Int) : Nat → Nat → Int → Int
  | 0, _, _ => 0
  | f + 1, n, t => t - fxSinGo x2 f (n + 2) (fxMul t x2 / (((n + 1) * (n + 2) : Nat) : Int))

/-- sin(2π × u / 65,536) for u in a quarter turn, 0 to 16,384. -/
def sinQuarter (u : Nat) : Rat :=
  if u = 0 then 0 else if u = 16384 then 1
  else
    let x := fxPi * u / 32768
    fxTo (fxSinGo (fxMul x x) 40 1 x)

/-- sin(2π × u16 / 65,536), exact at the quarter turns. -/
def sinTurn (u : Nat) : Rat :=
  let u := u % 65536
  if u ≤ 16384 then sinQuarter u
  else if u ≤ 32768 then sinQuarter (32768 - u)
  else if u ≤ 49152 then -sinQuarter (u - 32768)
  else -sinQuarter (65536 - u)

/-- Clamp a rational. -/
def clampQ (lo hi x : Rat) : Rat := if x < lo then lo else if hi < x then hi else x

/-- An integer modulo 2^n, as a natural number. -/
def wrapN (n : Nat) (x : Int) : Nat := (x % (2 ^ n : Nat)).toNat

/-- A number below 2^n read as two's complement. -/
def signedN (n v : Nat) : Int := if 2 ^ (n - 1) ≤ v % 2 ^ n then (v % 2 ^ n : Nat) - (2 ^ n : Nat) else (v % 2 ^ n : Nat)

end Sys2Proof.Machine
end

