-- ==== Sys2Proof/Machine/Flows.lean ====
section
/-!
DEFINITION. Flow contexts, video ingest, sACN, console streams and the loss policies (R22 to R25, R136 to R156).
-/
namespace Sys2Proof.Machine

/-! ### Flow settings -/

/-- The state of flow `f`. -/
def State.flow (s : State) (f : Nat) : FlowSt := amGet (fun _ => FlowSt.none) s.ingest.flows f

/-- Set the state of flow `f`. -/
def State.setFlow (s : State) (f : Nat) (x : FlowSt) : State :=
  { s with ingest := { s.ingest with flows := amSet (fun _ => FlowSt.none) s.ingest.flows f x } }

/-- The flow whose CFG register an address is, if any. -/
def flowOfCfg (a : Nat) : Option Nat :=
  if blkOf (a / 0x1000) = some .flow ∧ 0x800 ≤ a % 0x1000 ∧ a % 0x80 = 0 then
    some ((a / 0x1000 - 0x60) * 16 + (a % 0x1000 - 0x800) / 0x80) else none

/-- TYPE of flow `f` in the active set (R136). -/
def State.flowType (s : State) (f : Nat) : Nat := s.actF (A.FLOW_CFG f) F.FLOW_CFG_TYPE

/-- The flows of the active set that are not OFF, in increasing number. -/
def State.flowsOn (s : State) : List Nat :=
  (s.rf.active.filterMap fun x => flowOfCfg x.1).filter fun f => s.flowType f != 0

/-- Whether a flow is of type VIDEO or HOST. -/
def State.isVideo (s : State) (f : Nat) : Bool := s.flowType f == 1 || s.flowType f == 4

/-- The VIDEO and HOST flows served: at most the 32 lowest-numbered (R139). -/
def State.flowsServed (s : State) : List Nat := (s.flowsOn.filter s.isVideo).take 32

/-- The flows at work: those that are not OFF, but for VIDEO and HOST flows that are not served, which behave as OFF (R139). -/
def State.flowsLive (s : State) : List Nat :=
  let served := s.flowsServed
  s.flowsOn.filter fun f => !s.isVideo f || served.contains f

/-- Whether ingest receives (R164). -/
def State.ingestEn (s : State) : Bool := s.actF A.INGEST_CTRL F.INGEST_CTRL_EN == 1

/-- A guard action of flow `f`, recorded in its page with the local flow (R165). -/
def State.flowGuard (s : State) (f kind code fbit : Nat) : State :=
  (s.wr (A.FLOW_GUARD_FLOW (f / 16)) (w32 (f % 16))).guard1 (P.FLOW f) kind code (some fbit)

/-- Count a discarded packet, datagram or frame of flow `f`. -/
def State.flowDiscard (s : State) (f : Nat) : State := s.inc (A.FLOW_DISCARD f)

/-- Whole nanoseconds of Krafohel time (R241). -/
def State.nowNs (s : State) : Nat := s.time.t / 2 ^ 32

/-! ### Units, timeouts and resumption (R22, R23, R25) -/

/-- Bring a flow's timed-out status up to date: TIMED_OUT of its page and STAT.TIMED_OUT. -/
def State.flowShow (s : State) (f : Nat) : State :=
  let b := (s.flow f).timedOut.toNat
  (s.put (A.FLOW_TIMED_OUT (f / 16)) ⟨f % 16, f % 16⟩ b).put (A.FLOW_STAT f) F.FLOW_STAT_TIMED_OUT b

/-- A stream times out at a boundary: its policy governs from this frame on, and its record is due (R23). -/
def State.streamDue (s : State) (st : Stream) : State :=
  { s with time := { s.time with due := s.time.due.filter (· != st) ++ [st] } }

/-- The record of a stream's timeout is taken. -/
def State.dueTaken (s : State) (st : Stream) : State := { s with time := { s.time with due := s.time.due.filter (· != st) } }

/-- The record of a flow's timeout, where one is due: its status, the guard action and the event (R23, R156). -/
def flowRecord (f : Nat) (s : State) : State :=
  if s.time.due.contains (.flow f) then
    ((((s.dueTaken (.flow f)).flowShow f).guard1 (P.FLOW f) 27 (openCode (A.FLOW_TIMEOUT f)) none)).raise (P.FLOW f) (f % 16)
  else s

/-- A flow that has timed out resumes (R25). -/
def flowResume (f : Nat) (s : State) : State :=
  if (s.flow f).timedOut then ((s.setFlow f { s.flow f with timedOut := false }).flowShow f).raise (P.FLOW f) 16 else s

/-- A valid unit of flow `f` completes, its last byte having arrived at `t` ns: it is counted. -/
def State.flowCount (s : State) (f t : Nat) : State :=
  let s := (flowRecord f s).inc (A.FLOW_UNITS f)
  let s := s.put (A.FLOW_STAT f) F.FLOW_STAT_VALID 1
  s.setFlow f { s.flow f with lastUnit := t, newUnit := true }

/-- A valid unit of flow `f` completes now, and a timed-out flow resumes (R25). -/
def State.flowUnit (s : State) (f : Nat) : State := flowResume f (s.flowCount f s.nowNs)

/-- A flow times out at a boundary (R23, R156). -/
def flowTimeout (f : Nat) (s : State) : State :=
  if (s.flow f).timedOut then s else (s.setFlow f { s.flow f with timedOut := true }).streamDue (.flow f)

/-- The elapsed time since flow `f`'s last valid unit has reached its timeout (R22, R23). -/
def State.flowElapsed (s : State) (f : Nat) : Bool :=
  decide (s.actF (A.FLOW_TIMEOUT f) F.FLOW_TIMEOUT_TIMEOUT_MS * 1000000 ≤ s.nowNs - (s.flow f).lastUnit)

/-- At boundary N, the flows whose elapsed time has reached their timeout time out (R23, R156). sACN is judged by index (R153). -/
def flowsElapsed (s : State) : State :=
  s.flowsLive.foldl (fun (t : State) f => if t.flowType f != 2 && t.flowElapsed f then flowTimeout f t else t) s

/-! ### Planar storage (R144, R145) -/

/-- How a source's pixels are stored: size, chroma size, pitches and slot size. -/
structure Planes where
  w : Nat
  h : Nat
  wc : Nat
  hc : Nat
  py : Nat
  pc : Nat
  size : Nat
  is444 : Bool
  is420 : Bool
deriving DecidableEq, Repr

/-- Round up to a multiple. -/
def roundUp (n m : Nat) : Nat := (n + m - 1) / m * m

/-- The planes of a W × H source of format word `fmt`, laid out as VFMT (R145). -/
def planesOf (w h : Nat) (fmt : Word) : Planes :=
  let is444 := fget fmt ⟨31, 30⟩ == 1
  let is420 := !is444 && bitOf fmt 28
  let wc := if is444 then w else (w + 1) / 2
  let hc := if is420 then (h + 1) / 2 else h
  let py := roundUp (2 * w) 64
  let pc := roundUp (2 * wc) 64
  ⟨w, h, wc, hc, py, pc, roundUp (py * h + 2 * pc * hc) 4096, is444, is420⟩

/-- The planes of flow `f`. -/
def State.flowPlanes (s : State) (f : Nat) : Planes :=
  planesOf (s.actF (A.FLOW_VSIZE f) ⟨12, 0⟩) (s.actF (A.FLOW_VSIZE f) ⟨28, 16⟩) (s.act (A.FLOW_VFMT f))

/-- The address of luma sample (i, j). -/
def Planes.luma (p : Planes) (base i j : Nat) : Nat := base + j * p.py + 2 * i

/-- The address of chroma sample (k, r) of Cb (`c` = 0) or Cr (`c` = 1). -/
def Planes.chroma (p : Planes) (base c k r : Nat) : Nat := base + p.py * p.h + c * (p.pc * p.hc) + r * p.pc + 2 * k

/-- The slots a flow uses after clipping (R146). -/
def State.slotsUsed (s : State) (f : Nat) : Nat := s.get (A.FLOW_SLOTS_USED f) ⟨2, 0⟩

/-- A code as sent, as the 10-bit code stored (R144). -/
def storeCode (fmt : Word) (c : Nat) : Nat :=
  if bitOf fmt 29 then c % 1024 else if bitOf fmt 27 then c * 4 + c / 64 else c * 4

/-- Black luma code (R142). -/
def blackLuma (fmt : Word) : Nat := if bitOf fmt 27 then 0 else 64

/-! ### ST 2110-20 video (R139 to R143) -/

/-- The base of slot `k` of a VIDEO flow. -/
def State.slotBase (s : State) (f k : Nat) : Nat := s.bufBase (s.actF (A.FLOW_BUF f) ⟨11, 0⟩) + k * (s.flowPlanes f).size

/-- Choose the slot of a new frame: the oldest that is neither bound nor newest complete (R143). Slots never written count as
oldest. -/
def State.pickSlot (s : State) (f : Nat) : Option Nat :=
  let x := s.flow f
  let busy (k : Nat) : Bool := x.bound == some k || x.complete.getLast? == some k
  (((List.range (s.slotsUsed f)).filter fun k => !x.complete.contains k) ++ x.complete).find? fun k => !busy k

/-- Store one chroma sample; for 4:2:0 storage the two rows of a pair are averaged (R145). -/
def putChroma (p : Planes) (base c k j v : Nat) (x : State × AMap Nat) : State × AMap Nat :=
  if p.is420 then
    let key (j : Nat) : Nat := (c * 8192 + j) * 8192 + k
    let ch := amSet (fun _ => 0) x.2 (key j) (v + 1)
    let even := amGet (fun _ => 0) ch (key (j / 2 * 2))
    let odd := amGet (fun _ => 0) ch (key (j / 2 * 2 + 1))
    let e := if even = 0 then odd - 1 else even - 1
    let o := if odd = 0 then e else odd - 1
    (x.1.memW (p.chroma base c k (j / 2)) 2 ((e + o + 1) / 2), ch)
  else (x.1.memW (p.chroma base c k j) 2 v, x.2)

/-- Write the codes of one run of row data: Cb Y Cr Y′ for 4:2:2 and Cb Y Cr for 4:4:4, from pixel `o` of line `j` on. -/
def putRow (fmt : Word) (p : Planes) (base j : Nat) : Nat → List Nat → State × AMap Nat → State × AMap Nat
  | o, cb :: y :: cr :: rest, x =>
    let x := putChroma p base 0 (if p.is444 then o else o / 2) j (storeCode fmt cb) x
    let x := (x.1.memW (p.luma base o j) 2 (storeCode fmt y), x.2)
    let x := putChroma p base 1 (if p.is444 then o else o / 2) j (storeCode fmt cr) x
    if p.is444 then putRow fmt p base j (o + 1) rest x
    else
      match rest with
      | y2 :: rest2 =>
        let x := if o + 1 < p.w then (x.1.memW (p.luma base (o + 1) j) 2 (storeCode fmt y2), x.2) else x
        putRow fmt p base j (o + 2) rest2 x
      | [] => x
  | _, _, x => x

/-- The pixels a run of codes covers. -/
def rowPixels (p : Planes) (codes : List Nat) : Nat := if p.is444 then codes.length / 3 else codes.length / 4 * 2

/-- Whether a run lies within the frame (R141). -/
def rowFits (p : Planes) (r : VideoRow) : Bool :=
  decide (r.line < p.h) && decide (r.offset < p.w) && decide (r.offset + rowPixels p r.codes ≤ roundUp p.w 2)

/-- Copy line `j` of luma and chroma from slot `src`, or black, into slot base `dst` (R142). -/
def patchLine (fmt : Word) (p : Planes) (src : Option Nat) (dst j : Nat) (s : State) : State :=
  let val (a : Nat) (d : Nat) (f : Nat → Nat) : Nat := match src with | some b => s.mem16 (f b) | none => d + 0 * a
  let s := (List.range p.w).foldl (fun t i =>
    t.memW (p.luma dst i j) 2 (val i (blackLuma fmt) fun b => p.luma b i j)) s
  let r := if p.is420 then j / 2 else j
  [0, 1].foldl (fun t c => (List.range p.wc).foldl (fun t k =>
    t.memW (p.chroma dst c k r) 2 (val k 512 fun b => p.chroma b c k r)) t) s

/-- The number of gaps in the extended sequence numbers of a frame, `first` being the number expected to begin it. -/
def seqGaps (first : Option Nat) (seen : List Nat) : Nat :=
  match seen with
  | [] => 0
  | a :: _ =>
    let start := match first with | some x => x | none => seen.foldl (fun m x => if later m x then x else m) a
    let rel := seen.map fun x => (x + 2 ^ 32 - start) % 2 ^ 32
    let last := rel.foldl max 0
    -- a gap is a run of missing numbers: count the missing numbers whose successor arrived
    (rel.filter fun x => x != 0 && decide (x ≤ last) && !rel.contains (x - 1)).length

/-- End the frame being received (R141, R142). `bad`: it ended without its marker. -/
def endFrame (f : Nat) (bad : Bool) (s : State) : State :=
  let x := s.flow f
  match x.fill with
  | none => s
  | some fi =>
    let gaps := seqGaps (x.lastSeq.map fun q => (q + 1) % 2 ^ 32) fi.seen
    let last := fi.seen.foldl (fun m q => if later q m then q else m) (fi.seen.headD 0)
    let s := s.add (A.FLOW_LOST f) ⟨31, 0⟩ gaps
    let lowest := (s.flowsServed.filter fun g => s.flowType g == 1 && g / 16 == f / 16).head? == some f
    let inj := if lowest then s.detect (P.FLOW f) 17 false else (false, s)
    let s := inj.2.setFlow f { inj.2.flow f with fill := none, lastSeq := some last, prevSeen := fi.seen }
    match fi.slot with
    | none => s.flowDiscard f
    | some k =>
      let damaged := bad || fi.damaged || decide (0 < gaps) || inj.1
      let keep (s : State) : State :=
        let y := s.flow f
        let ts := amSet (fun _ => 0) y.slotTs k fi.ts.toNat
        let s := s.setFlow f { y with complete := (y.complete.filter (· != k)) ++ [k], slotTs := ts }
        flowResume f ((s.put (A.FLOW_STAT f) F.FLOW_STAT_NEWEST k).flowCount f fi.lastAt)
      if damaged then
        let s := (s.inc (A.FLOW_DAMAGED f)).raise (P.FLOW f) 17
        if s.actF (A.FLOW_CFG f) F.FLOW_CFG_PATCH = 1 then
          let p := s.flowPlanes f
          let src := (s.flow f).complete.getLast?.map fun k => s.slotBase f k
          let dst := s.slotBase f k
          let missing := (List.range p.h).filter fun j => decide (amGet (fun _ => 0) fi.cover j < p.w)
          keep (missing.foldl (fun t j => patchLine (s.act (A.FLOW_VFMT f)) p src dst j t) s)
        else s
      else keep s

/-- Take one packet's rows into the slot being written. -/
def takeRows (f : Nat) (pk : VideoPacket) (fi : Fill) (s : State) : Fill × State :=
  match fi.slot with
  | none => ({ fi with seen := pk.eseq :: fi.seen }, s)
  | some k =>
    let p := s.flowPlanes f
    let fmt := s.act (A.FLOW_VFMT f)
    if pk.rows.all (rowFits p) then
      let base := s.slotBase f k
      let r := pk.rows.foldl (fun (acc : Fill × State) row =>
        let y := putRow fmt p base row.line row.offset row.codes (acc.2, acc.1.chroma)
        let got := amGet (fun _ => 0) acc.1.cover row.line + min (rowPixels p row.codes) (p.w - row.offset)
        ({ acc.1 with chroma := y.2, cover := amSet (fun _ => 0) acc.1.cover row.line got }, y.1)) (fi, s)
      ({ r.1 with seen := pk.eseq :: r.1.seen }, r.2)
    else ({ fi with seen := pk.eseq :: fi.seen, damaged := true }, s.flowDiscard f)

/-- Whether flow `f` has a second leg (R141). -/
def State.twoLegs (s : State) (f : Nat) : Bool := s.act (A.FLOW_DST_IP2 f) != 0

/-- Note on which leg a packet arrived, and whether it carries the marker. -/
def Fill.arrive (fi : Fill) (pk : VideoPacket) (now : Nat) : Fill :=
  let top (o : Option Nat) : Option Nat := match o with | some q => some (if later pk.eseq q then pk.eseq else q) | none => some pk.eseq
  { fi with marker := fi.marker || pk.marker, lastAt := now,
            legs := if pk.second then (fi.legs.1, top fi.legs.2) else (top fi.legs.1, fi.legs.2) }

/-- Whether the frame being received ends: its marker has arrived and, with two legs, no packet before it can still arrive on the other
leg. Packets are taken in the order of their numbers, so a gap is judged when both legs have passed it (R141). -/
def State.frameEnds (s : State) (f : Nat) (fi : Fill) : Bool :=
  let gaps := seqGaps ((s.flow f).lastSeq.map fun q => (q + 1) % 2 ^ 32) fi.seen
  let last := fi.seen.foldl (fun m q => if later q m then q else m) (fi.seen.headD 0)
  fi.marker && (!s.twoLegs f || gaps == 0 || (fi.legs.1 == some last && fi.legs.2 == some last))

/-- A frame of which nothing has been taken yet, as packet `pk` begins it. -/
def State.newFill (s : State) (f : Nat) (pk : VideoPacket) : Fill := ⟨s.pickSlot f, pk.ts, [], false, [], [], false, (none, none), s.nowNs⟩

/-- A packet is taken into the frame `fi`, which ends where nothing more of it can arrive (R141). -/
def videoTake (f : Nat) (pk : VideoPacket) (fi : Fill) (s : State) : State :=
  let r := takeRows f pk (fi.arrive pk s.nowNs) s
  let s := r.2.setFlow f { r.2.flow f with fill := some r.1 }
  if s.frameEnds f r.1 then endFrame f false s else s

/-- An ST 2110-20 packet of flow `f` (R139 to R143). With two legs, the second arrival of a packet is dropped silently, also once its
frame has ended. -/
def videoPacketOp (f : Nat) (pk : VideoPacket) (s : State) : State :=
  if !s.ingestEn || s.flowType f != 1 || !s.flowsServed.contains f || decide (s.slotsUsed f < 2) then s
  else
    let s := { s with ingest := { s.ingest with videoBytes := s.ingest.videoBytes + pk.bytes } }
    if pk.field || pk.excess then s.flowDiscard f
    else
      let second (fi : Fill) : Bool := s.twoLegs f && fi.seen.contains pk.eseq
      match (s.flow f).fill.filter second with
      | some fi =>
        let fi := { fi.arrive pk fi.lastAt with marker := fi.marker }
        let s := s.setFlow f { s.flow f with fill := some fi }
        if s.frameEnds f fi then endFrame f false s else s
      | none =>
        if s.twoLegs f && (s.flow f).prevSeen.contains pk.eseq then s
        else match (s.flow f).fill with
        | none => videoTake f pk (s.newFill f pk) s
        | some fi =>
          -- a packet whose timestamp differs ends the frame in progress, damaged where its marker has not arrived
          if fi.ts = pk.ts then videoTake f pk fi s
          else
            let s := endFrame f (!fi.marker) s
            videoTake f pk (s.newFill f pk) s

/-! ### Host-written frames (R147, R148) -/

/-- The buffer of host slot `n` of flow `f`. -/
def State.hostBuf (s : State) (f n : Nat) : Nat := s.actF (A.FLOW_HOST_BUF0 f + 4 * n) ⟨11, 0⟩

/-- A write of FLOW.HOST_POST (R148). -/
def hostPostOp (f : Nat) (v : Word) (s : State) : State :=
  let n := fget v ⟨1, 0⟩
  let tag := fget v ⟨31, 16⟩
  let b := s.hostBuf f n
  let held := s.bufState b != 1
  let forced := s.detect (P.FLOW f) 31 false
  let s := forced.2
  if forced.1 || held || b == nullBuf || decide (s.bufSize b < (s.flowPlanes f).size) || (s.flowPlanes f).w == 0 then
    s.flowGuard f 31 0x35 5
  else if !s.ingestEn || s.flowType f != 4 || !s.flowsServed.contains f then s.flowGuard f 31 0x35 5
  else
    let s := s.wr (A.FLOW_HOST_POST f) (v &&& 0xFFFF0003)
    let s := match (s.flow f).hostPost with
      | some old => (s.release (.post f old.1)).flowDiscard f
      | none => s
    let s := s.hold (.post f n) b
    let s := s.setFlow f { s.flow f with hostPost := some (n, tag) }
    (s.put (A.FLOW_STAT f) F.FLOW_STAT_NEWEST n).flowUnit f

/-- Bring STAT.HOST_FREE up to date; a host buffer that becomes IDLE raises HOST_FREE (R148). -/
def State.hostFreeSync (s : State) : State :=
  (s.flowsOn.filter fun f => s.flowType f == 4).foldl (fun t f =>
    (List.range 4).foldl (fun t n =>
      let idle := t.hostBuf f n != nullBuf && t.bufState (t.hostBuf f n) == 1
      let was := bitOf (t.rd (A.FLOW_STAT f)) (24 + n)
      if idle == was then t
      else (t.put (A.FLOW_STAT f) ⟨24 + n, 24 + n⟩ idle.toNat).raiseIf idle (P.FLOW f) 18) t) s

/-- A flow that is no longer a served HOST flow lets go of what it holds: a post that waits, and the frame bound (R139, R148). -/
def hostDrop (s : State) : State :=
  let served := s.flowsServed
  (s.ingest.flows.filter fun x => (x.2.hostPost.isSome || x.2.hostBound.isSome) && !(served.contains x.1 && s.flowType x.1 == 4)).foldl
    (fun (t : State) x =>
      let t := (List.range 4).foldl (fun (u : State) n => u.release (.post x.1 n)) t
      t.setFlow x.1 { t.flow x.1 with hostPost := none, hostBound := none }) s

/-- The binding of boundary N: each served flow binds its newest complete frame (R143). The hold of a host buffer that is no
longer bound ends; the frames that read it keep their lease. -/
def bindVideo (s : State) : State :=
  let s := hostDrop s
  s.flowsServed.foldl (fun t f =>
    let x := t.flow f
    if t.flowType f = 1 then
      match x.complete.getLast? with
      | some k => (t.setFlow f { x with bound := some k }).put (A.FLOW_STAT f) F.FLOW_STAT_BOUND k
      | none => t
    else
      match x.hostPost with
      | some p =>
        let t := match x.hostBound with
          | some old => if old.1 = p.1 then t else t.release (.post f old.1)
          | none => t
        (t.setFlow f { x with hostPost := none, hostBound := some p }).put (A.FLOW_STAT f) F.FLOW_STAT_BOUND p.1
      | none => t) s

/-- The host buffers bound to the frame in progress. -/
def State.hostBoundBufs (s : State) : List Nat :=
  s.flowsServed.filterMap fun f => (s.flow f).hostBound.map fun p => s.hostBuf f p.1

/-! ### sACN (R149 to R153) -/

/-- Whether two sources are the same. -/
def SacnSrc.is (x : SacnSrc) (cid univ : Nat) : Bool := x.cid == cid && x.univ == univ

/-- Whether a universe map entry is the SACN entry of a universe of flow `f`. -/
def umapIs (w f univ : Nat) : Bool := w / 2 ^ 30 == 1 && w / 2 ^ 16 % 256 == f && w % 65536 == univ

/-- Whether a source is live: it has not ended its stream, and its last unit is younger than the flow's TIMEOUT_MS (R153). -/
def State.sacnLive (s : State) (f : Nat) (z : SacnSrc) : Bool :=
  z.live && z.last.isSome && decide (s.nowNs - z.lastAt < s.actF (A.FLOW_TIMEOUT f) F.FLOW_TIMEOUT_TIMEOUT_MS * 1000000)

/-- The live sources of a universe at the highest priority among them (R153). -/
def State.sacnTop (s : State) (f univ : Nat) : List SacnSrc :=
  let live := (s.flow f).sources.filter fun z => z.univ == univ && s.sacnLive f z
  let prio (z : SacnSrc) : Nat := match z.last with | some u => u.prio | none => 0
  let top := live.foldl (fun m z => max m (prio z)) 0
  live.filter fun z => prio z == top

/-- The indices of a flow that have timed out, with their entries (R156). -/
def State.sacnOut (s : State) (f : Nat) : List (Nat × Nat) :=
  (s.ingest.idxK.map fun x => (x.1, amGet (fun _ => 0) s.ingest.map x.1)).filter fun x =>
    x.2 / 2 ^ 30 == 1 && x.2 / 2 ^ 16 % 256 == f

/-- The indices of a universe that had timed out resume with a unit of a live source; the flow is timed out no longer when none of its
indices is (R25, R156). -/
def sacnResume (f univ : Nat) (s : State) : State :=
  let out := s.sacnOut f
  let back := out.filter fun x => umapIs x.2 f univ
  if back.isEmpty ∨ (s.sacnTop f univ).isEmpty then s
  else
    let s := { s with ingest := { s.ingest with idxK := s.ingest.idxK.filter fun x => !back.any fun y => y.1 == x.1 } }
    if back.length = out.length then flowResume f s else s.raise (P.FLOW f) 16

/-- A unit of an sACN source completes (R151, R153). -/
def sacnComplete (f : Nat) (x : SacnSrc) (u : SacnUnit) (s : State) : State :=
  let x := { x with last := some u, held := none, live := !u.terminated, stamp := s.ingest.stamp, lastAt := s.nowNs }
  let s := { s with ingest := { s.ingest with stamp := s.ingest.stamp + 1 } }
  let y := s.flow f
  let s := s.setFlow f { y with sources := y.sources.map fun z => if z.is x.cid x.univ then x else z }
  sacnResume f x.univ (s.flowCount f s.nowNs)

/-- The first map index that names a universe of a flow (SRC_OVER_IDX, R164). -/
def State.umapIndexOf (s : State) (f univ : Nat) : Nat :=
  ((s.ingest.map.find? fun x => umapIs x.2 f univ).map (·.1)).getD 0

/-- The value guard of a received unit: an armed GUARD injection makes the unit count as out of range, so it is refused (R26, R455). The
unit is discarded whole and counted (R21). -/
def flowRefused (f : Nat) (s : State) : Option State :=
  if s.injArmed (P.FLOW f) 31 then some (((s.injTake (P.FLOW f) 31).flowGuard f 31 0x36 6).flowDiscard f) else none

/-- An E1.31 data packet of flow `f` (R149 to R151, R153). -/
def sacnDataOp (f : Nat) (p : SacnData) (s : State) : State :=
  if !s.ingestEn || s.flowType f != 2 || (p.rootVec == 8 && p.frameVec == 2) then s
  else if p.rootVec != 4 || p.frameVec != 2 || p.dmpVec != 2 || p.addrType != 0xA1 || p.firstAddr != 0 || p.addrIncr != 1 ||
      p.startCode != 0 || p.preview || p.propCount == 0 then s.flowDiscard f
  else match flowRefused f s with
  | some t => t
  | none =>
    let s := if 513 < p.propCount then s.flowGuard f 29 0x36 6 else s
    let s := if 200 < p.prio then s.flowGuard f 30 0x36 6 else s
    let slots := (p.slots.take (min p.propCount 513 - 1)).take 512
    let u : SacnUnit := ⟨p.seq % 256, min p.prio 200, slots, p.syncAddr, p.terminated⟩
    let x := s.flow f
    match x.sources.find? fun z => z.is p.cid p.univ with
    | some z =>
      let d := (p.seq + 256 - z.seq % 256) % 256
      if d = 0 ∨ 237 ≤ d then s.flowDiscard f
      else
        let z := { z with seq := p.seq % 256, live := z.live && !p.terminated }
        if p.syncAddr = 0 then sacnComplete f z u s
        else s.setFlow f { x with sources := x.sources.map fun y => if y.is p.cid p.univ then { z with held := some u } else y }
    | none =>
      -- a source that is live no longer gives up its place (log entry 22)
      let x := { x with sources := x.sources.filter fun z => z.univ != p.univ || s.sacnLive f z || z.held.isSome }
      if 8 ≤ (x.sources.filter fun z => z.univ == p.univ).length then
        ((s.inc A.INGEST_SRC_OVER).wr A.INGEST_SRC_OVER_IDX (w32 (s.umapIndexOf f p.univ))).raise P.INGEST 1
      else
        let z : SacnSrc := ⟨p.cid, p.univ, p.seq % 256, none, none, false, 0, s.nowNs⟩
        let s := s.setFlow f { x with sources := x.sources ++ [z] }
        if p.syncAddr = 0 then sacnComplete f z u s
        else s.setFlow f { x with sources := x.sources ++ [{ z with held := some u }] }

/-- An E1.31 synchronisation packet of flow `f` (R149, R151): the held packets of its source for its address complete. -/
def sacnSyncOp (f : Nat) (p : SacnSync) (s : State) : State :=
  if !s.ingestEn || s.flowType f != 2 || (p.rootVec == 8 && p.frameVec == 2) then s
  else if p.rootVec != 8 || p.frameVec != 1 then s.flowDiscard f
  else
    (s.flow f).sources.foldl (fun t z =>
      match z.held with
      | some u => if z.cid == p.cid && u.syncAddr == p.syncAddr then sacnComplete f z u t else t
      | none => t) s

/-- SACN_SOURCE_EXPIRE: a source whose last unit is no longer younger than TIMEOUT_MS is live no longer (R153). -/
def sacnExpireOp (f cid univ : Nat) (s : State) : State :=
  let x := s.flow f
  s.setFlow f { x with sources := x.sources.map fun z => if z.is cid univ then { z with live := s.sacnLive f z } else z }

/-- Slot `k` (from 0) of a unit; slots beyond the count read 0 (R149). -/
def SacnUnit.slot (u : SacnUnit) (k : Nat) : Nat := (u.slots.getD k 0).toNat

/-- The 512 slot values of a universe by HTP or LTP among its sources (R153). -/
def sacnValues (top : List SacnSrc) (ltp : Bool) : List Nat :=
  let newest := top.foldl (fun (m : Option SacnSrc) z => match m with
    | none => some z
    | some y => if y.stamp < z.stamp then some z else some y) none
  (List.range 512).map fun k =>
    if ltp then (match newest.bind (·.last) with | some u => u.slot k | none => 0)
    else top.foldl (fun m z => max m (match z.last with | some u => u.slot k | none => 0)) 0

/-! ### FADE arithmetic (R23, R24) -/

/-- A slot value in the `k`-th frame of a fade: exact, rounded to nearest with ties to even. -/
def fadeInt (v0 tgt k frames : Nat) : Nat :=
  if frames = 0 then tgt
  else (roundEven ((v0 : Rat) + ((tgt : Rat) - v0) * (min k frames : Nat) / frames)).toNat

/-- A LIGHT component in the `k`-th frame of a fade: binary32, rounded to binary16. -/
def fadeHalf (v0 tgt : Nat) (k frames : Nat) : Nat :=
  let a := (readXyz v0).1
  let b := (readXyz tgt).1
  if frames = 0 then enc16 b
  else enc16 (rnd32 (a + rnd32 (rnd32 (rnd32 (b - a) * (min k frames : Nat)) / frames)))

/-- What a loss policy makes of a slot value held at `v0` (R156): 0 HOLD, 1 FADE, 2 DARK; `k` frames after the timeout. -/
def policySlot (policy v0 safe k frames : Nat) : Nat :=
  if policy = 0 then v0 else if policy = 1 then fadeInt v0 safe k frames else safe

/-! ### The universe map (R152, R153) -/

/-- Entry `m` of the universe map as it was read; entries beyond a short buffer read as NONE. -/
def State.umap (s : State) (m : Nat) : Nat := amGet (fun _ => 0) s.ingest.map m

/-- Whether an entry reads all its slots as 0 and is recorded: it is NONE, has an sACN universe outside 1 to 63,999, or names a flow of
another type (R152). -/
def State.umapBad (s : State) (w : Nat) : Bool :=
  let f := w / 2 ^ 16 % 256
  w / 2 ^ 30 == 0 || (w / 2 ^ 30 == 1 && (w % 65536 == 0 || decide (63999 < w % 65536) || s.flowType f != 2)) ||
    (w / 2 ^ 30 == 3 && s.flowType f != 3)

/-- Put the 512 slot values of index `m` into a store. -/
def putSlots (u : AMap Nat) (m : Nat) (vals : List Nat) : AMap Nat :=
  ((List.range 512).zip vals).foldl (fun u x => amSet (fun _ => 0) u (m * 512 + x.1) x.2) u

/-- The 512 slot values of index `m` of a store. -/
def getSlots (u : AMap Nat) (m : Nat) : List Nat := (List.range 512).map fun k => amGet (fun _ => 0) u (m * 512 + k)

/-- The slot value of slot `slot` (from 1) of index `m` for the frame in progress; indices beyond a short UVAL_BUF read 0
(R153). -/
def State.slotValue (s : State) (m slot : Nat) : Nat :=
  let b := s.actF A.INGEST_UVAL_BUF ⟨11, 0⟩
  if m < 65536 ∧ 1 ≤ slot ∧ slot ≤ 512 ∧ b ≠ nullBuf ∧ (m + 1) * 1024 ≤ s.bufSize b then
    amGet (fun _ => 0) s.ingest.uNow (m * 512 + (slot - 1)) else 0

/-- One index at boundary N: its last valid values and its contribution under the loss policies (R153, R156). -/
def mergeIndex (dmx : State → Nat → List Nat) (idxK : AMap Nat) (s : State) (m : Nat) : State :=
  let w := s.umap m
  let f := w / 2 ^ 16 % 256
  if s.umapBad w then s
  else if w / 2 ^ 30 = 2 then
    { s with ingest := { s.ingest with uNow := putSlots s.ingest.uNow m (dmx s (w / 2 ^ 24 % 16)) } }
  else
    let top := s.sacnTop f (w % 65536)
    let live := if w / 2 ^ 30 = 1 then !top.isEmpty else !(s.flow f).timedOut
    let vals := if w / 2 ^ 30 = 1 then sacnValues top (w / 2 ^ 29 % 2 == 1)
      else getSlots s.ingest.conVals (f * 65536 + w % 65536)
    let held := if live then putSlots s.ingest.uHeld m vals else s.ingest.uHeld
    let k := if live then 0 else amGet (fun _ => 0) idxK m + 1
    let now := if live then vals
      else (getSlots held m).map fun v => policySlot (s.actF (A.FLOW_CFG f) F.FLOW_CFG_POLICY) v
        (s.actF (A.FLOW_SAFE_HI f) F.FLOW_SAFE_HI_SLOT) k (s.actF (A.FLOW_TIMEOUT f) F.FLOW_TIMEOUT_FADE_FRAMES)
    let s := { s with ingest := { s.ingest with
      uHeld := held, uNow := putSlots s.ingest.uNow m now, idxK := amSet (fun _ => 0) s.ingest.idxK m k } }
    if w / 2 ^ 30 == 1 && k == 1 then (s.setFlow f { s.flow f with timedOut := true }).streamDue (.flow f) else s

/-- The slot values of boundary N (R153): an index whose entry is not valid reads 0. `dmx` gives a DMX port's contribution. -/
def mergeSlots (dmx : State → Nat → List Nat) (s : State) : State :=
  (s.ingest.map.map (·.1)).foldl (mergeIndex dmx s.ingest.idxK) { s with ingest := { s.ingest with uNow := [], idxK := [] } }

/-- Record an action of a guard `n` times in one cycle; beyond the second, further events merge as the second does (R51, R53). -/
def State.guardMany (s : State) (p : Nat) (g : GAct) (n : Nat) : State :=
  (s.add (H.GUARD_CNT p) ⟨31, 0⟩ (n - 2)).guardActs p (List.replicate (min n 2) g)

/-- The universe map is read, at the epoch that names it (R152): entries beyond a short buffer read as NONE, the buffer being clipped
(R78). Values held for an index whose entry is another are dropped. -/
def umapRead (s : State) : State :=
  let b := s.actF A.INGEST_UMAP_BUF ⟨11, 0⟩
  if b = s.ingest.mapBuf then s
  else
    let n := if b = nullBuf then 0 else min 65536 (s.bufSize b / 4)
    let ws := (List.range n).map fun m => (m, s.mem32 (s.bufBase b + m * 4))
    let old := s.ingest.map
    let same (i : Nat) : Bool := amGet (fun _ => 0) old i == ((ws.drop i).headD (0, 0)).2
    let s := { s with ingest := { s.ingest with
      map := ws.filter fun x => x.2 != 0
      mapBuf := b
      uHeld := s.ingest.uHeld.filter fun x => same (x.1 / 512)
      idxK := s.ingest.idxK.filter fun x => same x.1 } }
    let s := if b ≠ nullBuf ∧ n < 65536 then s.guard1 P.INGEST 29 (openCode A.INGEST_UMAP_BUF) none else s
    let bad := ws.filter fun x => s.umapBad x.2
    match bad.getLast? with
    | none => s
    | some x =>
      let s := (s.wr A.INGEST_UMAP_BAD (w32 x.1)).guardMany P.INGEST ⟨31, 0x40, some 0⟩ bad.length
      (List.range (min bad.length 2)).foldl (fun t _ => t.raise P.INGEST 3) s

/-! ### Console streams (R154, R155) -/

/-- Word `i` of a message. -/
def wordAt (ws : List Word) (i : Nat) : Word := ws.getD i 0

/-- Bytes of a message's words, most significant byte first. -/
def wordBytes (ws : List Word) : List Byte :=
  ws.flatMap fun w => [BitVec.ofNat 8 (w.toNat / 2 ^ 24), BitVec.ofNat 8 (w.toNat / 2 ^ 16), BitVec.ofNat 8 (w.toNat / 2 ^ 8),
    BitVec.ofNat 8 w.toNat]

/-- Check and accept a console datagram of flow `f` and type `typ` (R155): whether it is accepted, the bytes of its body, and
the state after. `bytes` is the length of the datagram. -/
def consoleAccept (f typ : Nat) (ws : List Word) (bytes : Nat) (s : State) : Option (List Byte) × State :=
  if !s.ingestEn || s.flowType f != 3 then (none, s)
  else
    let w0 := wordAt ws 0
    if fget w0 ⟨31, 16⟩ != 0x4B43 || fget w0 ⟨15, 8⟩ != 1 || fget w0 ⟨7, 0⟩ != typ || decide (bytes < 16) then
      (none, s.flowDiscard f)
    else
      match flowRefused f s with
      | some t => (none, t)
      | none =>
      let len := fget (wordAt ws 3) ⟨31, 16⟩
      let s := if bytes < 16 + len then s.flowGuard f 29 0x36 6 else s
      let body := (((wordBytes ws).take bytes).drop 16).take len
      let first := fget (wordAt ws 4) ⟨15, 0⟩
      if typ = 1 ∧ (first = 0 ∨ 512 < first) then (none, s.flowGuard f 31 0x36 6)
      else
        let seq := wordAt ws 1
        let src := wordAt ws 2
        let later := match (s.flow f).conLast with
          | none => true
          | some (q, c) => c != src || later seq.toNat q.toNat
        if !later then (none, s.flowDiscard f)
        else (some body, (s.setFlow f { s.flow f with conLast := some (seq, src) }).flowUnit f)

/-- LEVELS (R155): its slots are written for its universe; a run past slot 512 is clipped. -/
def levelsOp (f : Nat) (ws : List Word) (bytes : Nat) (s : State) : State :=
  let r := consoleAccept f 1 ws bytes s
  match r.1 with
  | none => r.2
  | some body =>
    let univ := fget (wordAt ws 4) ⟨31, 16⟩
    let first := fget (wordAt ws 4) ⟨15, 0⟩
    let count := fget (wordAt ws 5) ⟨31, 16⟩
    let s := if 513 < first + count ∨ body.length < 8 + count then r.2.flowGuard f 29 0x36 6 else r.2
    let vals := ((body.drop 8).take count).take (513 - first)
    let base := (f * 65536 + univ) * 512 + (first - 1)
    { s with ingest := { s.ingest with conVals :=
      ((List.range vals.length).zip vals).foldl (fun u x => amSet (fun _ => 0) u (base + x.1) x.2.toNat) s.ingest.conVals } }

/-- FLAGS (R155): kept for the boundary when FLAGS_EN is 1. -/
def flagsOp (f : Nat) (ws : List Word) (bytes : Nat) (s : State) : State :=
  let r := consoleAccept f 2 ws bytes s
  match r.1 with
  | none => r.2
  | some _ =>
    if r.2.actF (A.FLOW_CFG f) F.FLOW_CFG_FLAGS_EN = 1 then
      let set : Cell := (wordAt ws 4) ++ (wordAt ws 5)
      let clr : Cell := (wordAt ws 6) ++ (wordAt ws 7)
      { r.2 with ingest := { r.2.ingest with conFlags := r.2.ingest.conFlags ++ [(set, clr)] } }
    else r.2.flowDiscard f

/-- TIMECODE (R155): the timecode unit of its flow, of which the one that INGEST.TC_FLOW names is the source. -/
def timecodeOp (f : Nat) (ws : List Word) (bytes : Nat) (s : State) : State :=
  let r := consoleAccept f 3 ws bytes s
  match r.1 with
  | none => r.2
  | some _ =>
    if fget (wordAt ws 5) ⟨31, 30⟩ ≠ r.2.actF A.SCHED_TC_CTRL F.SCHED_TC_CTRL_RATE then r.2.flowDiscard f
    else r.2.setFlow f { r.2.flow f with tc := some (wordAt ws 4) }

/-! ### The boundary and the epoch -/

/-- Advance the frame counts of the loss policies at a boundary, and record the frame that first uses a new unit (R23). -/
def flowsBoundary (frame : Nat) (s : State) : State :=
  s.flowsLive.foldl (fun t f =>
    let x := t.flow f
    let fading := x.timedOut && t.actF (A.FLOW_CFG f) F.FLOW_CFG_POLICY == 1
    let k := if x.timedOut then some (match x.polK with | some k => k + 1 | none => 1) else none
    let done := match k with
      | some k => decide (t.actF (A.FLOW_TIMEOUT f) F.FLOW_TIMEOUT_FADE_FRAMES ≤ k)
      | none => true
    let t := t.put (A.FLOW_STAT f) F.FLOW_STAT_FADING (fading && !done).toNat
    let t := if x.newUnit then t.wr (A.FLOW_LAST_FRAME f) (w32 frame) else t
    t.setFlow f { t.flow f with polK := k, newUnit := false }) s

/-- VID_MBPS at a boundary: the video received over the frame period that ends, in whole Mb/s (R164). -/
def videoRate (s : State) : State :=
  let mbps := s.ingest.videoBytes * 8 * 1000 / max 1 s.time.period
  { s.wr A.INGEST_VID_MBPS (w32 (min mbps (2 ^ 17 - 1))) with ingest := { s.ingest with videoBytes := 0 } }

/-- The multicast groups that the flows at work name, with their ports and sources (R138). -/
def State.wantedGroups (s : State) : List (Nat × Word × Word) :=
  let mcast (a : Word) : Bool := a.toNat / 2 ^ 28 == 0xE
  ((s.flowsLive.filter fun f => s.flowType f != 4).flatMap fun f =>
    let cfg := s.act (A.FLOW_CFG f)
    let ports := ((List.range 4).filter fun k => bitOf cfg (20 + k)).map (64 + ·) ++ (if bitOf cfg 19 then [70] else [])
    ([s.act (A.FLOW_DST_IP f), s.act (A.FLOW_DST_IP2 f)].filter mcast).flatMap fun a =>
      ports.map fun p => (p, a, s.act (A.FLOW_SRC_IP f))).eraseDups

/-- A flow that an epoch puts out of work is timed out no longer. -/
def flowsOff (s : State) : State :=
  let on := s.flowsLive
  (s.ingest.flows.filter fun x => x.2.timedOut && !on.contains x.1).foldl (fun (t : State) x =>
    ((t.setFlow x.1 { t.flow x.1 with timedOut := false, polK := none }).dueTaken (.flow x.1)).flowShow x.1) s

/-- What an epoch applied does to ingest: the flows served, the slots that fit, and the universe map read (R139, R146, R147, R152,
R153). -/
def ingestEpoch (s : State) : State :=
  let s := flowsOff s
  let all := s.flowsOn.filter s.isVideo
  let excess := decide (32 < all.length)
  let s := s.wr A.INGEST_VIDEO_FLOWS (w32 (excess.toNat * 2 ^ 31 + all.length))
  let s := if excess then (s.guard1 P.INGEST 29 0x42 (some 2)).raise P.INGEST 2 else s
  let s := s.flowsServed.foldl (fun t f =>
    let p := t.flowPlanes f
    if t.flowType f = 1 then
      let want := t.actF (A.FLOW_BUF f) F.FLOW_BUF_NSLOT
      let fit := if p.w = 0 ∨ p.h = 0 then 0 else t.bufSize (t.actF (A.FLOW_BUF f) ⟨11, 0⟩) / p.size
      let used := if fit < 2 then 0 else min want fit
      let t := t.wr (A.FLOW_SLOTS_USED f) (w32 used)
      if fit < want then t.flowGuard f 29 0x34 4 else t
    else
      (List.range 4).foldl (fun t n =>
        let b := t.hostBuf f n
        if b != nullBuf && decide (t.bufSize b < p.size) then t.flowGuard f 29 0x34 4 else t) t) s
  let s := umapRead s
  let v := s.actF A.INGEST_UVAL_BUF ⟨11, 0⟩
  if v != nullBuf && decide (s.bufSize v < 0x4000000) then s.guard1 P.INGEST 29 0x41 (some 1) else s

end Sys2Proof.Machine
end

