-- ==== Sys2Proof/Machine/Sampler.lean ====
section
/-!
DEFINITION. The projection sampler (R157 to R163). Every step of R161 is taken in binary64, one operation after another in the
order written (log entry 14).
-/
namespace Sys2Proof.Machine

/-- A source as the sampler reads it: its planes, the base of the slot read, its format word (as VFMT), gain, and the flow
whose loss policy applies. -/
structure Source where
  planes : Planes
  base : Nat
  fmt : Word
  gain : Rat
  flow : Option Nat
deriving DecidableEq

/-- The chroma code of luma tap (i, j) (R160). -/
def tapChroma (s : State) (x : Source) (c i j : Nat) : Nat :=
  let r := if x.planes.is420 then j / 2 else j
  let at_ (k : Nat) : Nat := s.mem16 (x.planes.chroma x.base c (min k (x.planes.wc - 1)) r) % 1024
  if x.planes.is444 then at_ i
  else if i % 2 = 0 then at_ (i / 2)
  else (at_ ((i - 1) / 2) + at_ ((i + 1) / 2) + 1) / 2

/-- A decimal constant with `k` decimals, rounded to binary64. -/
def dec (n : Int) (k : Nat) : Rat := rnd64 ((n : Rat) / ((10 ^ k : Nat) : Rat))

/-- Product and sum in binary64. -/
def mul64 (a b : Rat) : Rat := rnd64 (a * b)
def add64 (a b : Rat) : Rat := rnd64 (a + b)
def sub64 (a b : Rat) : Rat := rnd64 (a - b)
def div64 (a b : Rat) : Rat := rnd64 (a / b)

/-- x^y in binary64. -/
def pow64 (x y : Rat) : Rat := rnd64 (powRat x y)

/-- PQ: a signal value to light in units of REF_WHITE (R161 step 3). -/
def pqLight (e refWhite : Rat) : Rat :=
  let p := pow64 e (div64 1 (dec 7884375 5))
  let n := sub64 p (dec 8359375 7)
  let n := if n < 0 then 0 else n
  let d := sub64 (dec 188515625 7) (mul64 (dec 186875 4) p)
  div64 (mul64 10000 (pow64 (div64 n d) (div64 1 (dec 1593017578125 13)))) refWhite

/-- HLG: a signal value to scene light (R161 step 3). -/
def hlgScene (e : Rat) : Rat :=
  if e ≤ 1 / 2 then div64 (mul64 e e) 3
  else
    let t := div64 (sub64 e (dec 55991073 8)) (dec 17883277 8)
    div64 (add64 (rnd64 (expRat t)) (dec 28466892 8)) 12

/-- Sum of three products, left to right in binary64. -/
def dot64 (a r b g c k : Rat) : Rat := add64 (add64 (mul64 a r) (mul64 b g)) (mul64 c k)

/-- A tap's codes as linear XYZ (R161). -/
def tapXyz (x : Source) (dy dcb dcr : Nat) : Rat × Rat × Rat :=
  let full := bitOf x.fmt 27
  let bt2020 := bitOf x.fmt 24
  let tr := fget x.fmt ⟨26, 25⟩
  let refW : Rat := (fget x.fmt ⟨13, 0⟩ : Nat)
  let y := if full then div64 dy 1023 else div64 ((dy : Rat) - 64) 876
  let cc (d : Nat) : Rat := if full then div64 ((d : Rat) - 512) 1023 else div64 ((d : Rat) - 512) 896
  let cb := cc dcb
  let cr := cc dcr
  let kr := if bt2020 then dec 2627 4 else dec 2126 4
  let kb := if bt2020 then dec 593 4 else dec 722 4
  let r := add64 y (mul64 (mul64 2 (sub64 1 kr)) cr)
  let b := add64 y (mul64 (mul64 2 (sub64 1 kb)) cb)
  let g := div64 (sub64 (sub64 y (mul64 kr r)) (mul64 kb b)) (sub64 (sub64 1 kr) kb)
  let r := clampQ 0 1 r
  let g := clampQ 0 1 g
  let b := clampQ 0 1 b
  let lin : Rat × Rat × Rat :=
    if tr = 0 then (pow64 r (dec 24 1), pow64 g (dec 24 1), pow64 b (dec 24 1))
    else if tr = 1 then (pqLight r refW, pqLight g refW, pqLight b refW)
    else
      let sr := hlgScene r
      let sg := hlgScene g
      let sb := hlgScene b
      let ys := dot64 (dec 2627 4) sr (dec 6780 4) sg (dec 593 4) sb
      let e (v : Rat) : Rat := if ys = 0 then 0 else div64 (mul64 (mul64 1000 (pow64 ys (dec 2 1))) v) refW
      (e sr, e sg, e sb)
  if bt2020 then
    (dot64 (dec 6370 4) lin.1 (dec 1446 4) lin.2.1 (dec 1689 4) lin.2.2,
     dot64 (dec 2627 4) lin.1 (dec 6780 4) lin.2.1 (dec 593 4) lin.2.2,
     add64 (mul64 (dec 281 4) lin.2.1) (mul64 (dec 10610 4) lin.2.2))
  else
    (dot64 (dec 4124 4) lin.1 (dec 3576 4) lin.2.1 (dec 1805 4) lin.2.2,
     dot64 (dec 2126 4) lin.1 (dec 7152 4) lin.2.1 (dec 722 4) lin.2.2,
     dot64 (dec 193 4) lin.1 (dec 1192 4) lin.2.1 (dec 9505 4) lin.2.2)

/-- One tap of a source. -/
def readTap (s : State) (x : Source) (i j : Nat) : Rat × Rat × Rat :=
  tapXyz x (s.mem16 (x.planes.luma x.base i j) % 1024) (tapChroma s x 0 i j) (tapChroma s x 1 i j)

/-- The taps of a BILINEAR sample with their weights (R159). -/
def bilinearTaps (x : Source) (u v : Rat) : List (Nat × Nat × Rat) :=
  let a := u - 1 / 2
  let b := v - 1 / 2
  let fx := a - a.floor
  let fy := b - b.floor
  let ci (i : Int) : Nat := if i < 0 then 0 else min i.toNat (x.planes.w - 1)
  let cj (j : Int) : Nat := if j < 0 then 0 else min j.toNat (x.planes.h - 1)
  let i := a.floor
  let j := b.floor
  [(ci i, cj j, mul64 (sub64 1 fx) (sub64 1 fy)), (ci (i + 1), cj j, mul64 fx (sub64 1 fy)),
   (ci i, cj (j + 1), mul64 (sub64 1 fx) fy), (ci (i + 1), cj (j + 1), mul64 fx fy)]

/-- The overlap of [lo, hi] with pixel `i`. -/
def overlap1 (lo hi : Rat) (i : Nat) : Rat :=
  let l := if lo < (i : Rat) then (i : Rat) else lo
  let h := if hi < (i + 1 : Nat) then hi else ((i + 1 : Nat) : Rat)
  if l < h then h - l else 0

/-- The taps of a BOX sample: every pixel that meets the rectangle, weighted by its overlap area (R159). -/
def boxTaps (x : Source) (u v du dv : Rat) : List (Nat × Nat × Rat) :=
  let lim (c d : Rat) (n : Nat) : Rat × Rat := (clampQ 0 (n : Rat) (c - d / 2), clampQ 0 (n : Rat) (c + d / 2))
  let hx := lim u du x.planes.w
  let hy := lim v dv x.planes.h
  let cols := (List.range 66).map fun k => hx.1.floor.toNat + k
  let rows := (List.range 66).map fun k => hy.1.floor.toNat + k
  (rows.filter fun j => decide (j < x.planes.h) && decide (0 < overlap1 hy.1 hy.2 j)).flatMap fun j =>
    (cols.filter fun i => decide (i < x.planes.w) && decide (0 < overlap1 hx.1 hx.2 i)).map fun i =>
      (i, j, mul64 (overlap1 hx.1 hx.2 i) (overlap1 hy.1 hy.2 j))

/-- The weighted sum of taps in binary64, and the sum of the weights. -/
def sumTaps (s : State) (x : Source) (l : List (Nat × Nat × Rat)) : (Rat × Rat × Rat) × Rat :=
  l.foldl (fun acc t =>
    let p := readTap s x t.1 t.2.1
    ((add64 acc.1.1 (mul64 t.2.2 p.1), add64 acc.1.2.1 (mul64 t.2.2 p.2.1), add64 acc.1.2.2 (mul64 t.2.2 p.2.2)),
      add64 acc.2 t.2.2)) ((0, 0, 0), 0)

/-- What an entry gives its cell: nothing (with the counter it moves), or XYZ. -/
inductive Sample where
  | skip
  | bad
  | black (noFrame : Bool)
  | xyz (x y z : Rat) (taps : Nat)
deriving DecidableEq

/-- The served video source of number `n` for the frame being rendered (R158). -/
def State.sourceOf (s : State) (n : Nat) : Option Source :=
  if n < 32 then
    let r := s.act (A.SAMPLER_SRC_FLOW n)
    let f := fget r ⟨7, 0⟩
    if !bitOf r 31 || !s.flowsServed.contains f then none
    else
      let p := s.flowPlanes f
      let base := if s.flowType f = 1 then (s.flow f).bound.map fun k => s.slotBase f k
        else (s.flow f).hostBound.map fun k => s.bufBase (s.hostBuf f k.1)
      base.map fun b => ⟨p, b, s.act (A.FLOW_VFMT f), num32 0 (s.act (A.FLOW_GAIN f)).toNat, some f⟩
  else
    match s.sched.clips.find? fun c => c.1 == n - 32 with
    | none => none
    | some c =>
      let v := n - 32
      let fmt := s.act (A.SAMPLER_MSRC_FMT v)
      let sz := s.act (A.SAMPLER_MSRC_SIZE v)
      some ⟨planesOf (fget sz ⟨12, 0⟩) (fget sz ⟨28, 16⟩) fmt, c.2.2, fmt,
        num32 0 (s.act (A.SAMPLER_MSRC_GAIN v)).toNat, none⟩

/-- The sample of a geometry entry (R157 to R161), before the gains of the entry; whether DU or DV was clamped is the second
component. `w0`–`w3` are the entry's words. -/
def sampleEntry (s : State) (w0 w1 w2 w3 : Nat) : Sample × Bool :=
  let src := w3 / 2 ^ 26
  let filter := w3 / 2 ^ 24 % 4
  let u : Rat := (w0 : Rat) / 65536
  let v : Rat := (w1 : Rat) / 65536
  let lim (d : Nat) : Nat := min d (64 * 256)
  let du := w2 % 65536
  let dv := w2 / 65536
  if 48 ≤ src then (.bad, false)
  else if filter = 3 ∨ (filter = 2 ∧ (du = 0 ∨ dv = 0)) then (.skip, false)
  else
    match s.sourceOf src with
    | none => (.black true, false)
    | some x =>
      if x.planes.w * 65536 ≤ w0 ∨ x.planes.h * 65536 ≤ w1 then (.black false, false)
      else
        let gain := mul64 x.gain (div64 (w3 % 65536 : Nat) 65535)
        let fin (p : Rat × Rat × Rat) (n : Nat) : Sample := .xyz (mul64 p.1 gain) (mul64 p.2.1 gain) (mul64 p.2.2 gain) n
        if filter = 0 then (fin (readTap s x (w0 / 65536) (w1 / 65536)) 1, false)
        else if filter = 1 then (fin (sumTaps s x (bilinearTaps x u v)).1 4, false)
        else
          let taps := boxTaps x u v ((lim du : Nat) / 256) ((lim dv : Nat) / 256)
          let r := sumTaps s x taps
          (fin (div64 r.1.1 r.2, div64 r.1.2.1 r.2, div64 r.1.2.2 r.2) taps.length, decide (64 * 256 < du) || decide (64 * 256 < dv))

/-- A stored component under the loss policy of its flow (R156, R162). -/
def State.policyHalf (s : State) (flow : Option Nat) (v0 : Nat) (safe : Nat) : Nat :=
  match flow with
  | none => v0
  | some f =>
    match (s.flow f).polK with
    | none => v0
    | some k =>
      let pol := s.actF (A.FLOW_CFG f) F.FLOW_CFG_POLICY
      if pol = 0 then v0
      else if pol = 1 then fadeHalf v0 safe k (s.actF (A.FLOW_TIMEOUT f) F.FLOW_TIMEOUT_FADE_FRAMES)
      else 0

end Sys2Proof.Machine
end

