-- ==== Sys2Proof/Machine/Jobs.lean ====
section
/-!
DEFINITION. Render jobs: descriptors, state blocks, and what a job of each kind writes (R96 to R115, R157 to R163).
-/
namespace Sys2Proof.Machine

/-! ### Descriptors (R96, R99) -/

/-- Bits [hi:lo] of a number. -/
def bits (w hi lo : Nat) : Nat := w / 2 ^ lo % 2 ^ (hi + 1 - lo)

/-- Word `i` of a descriptor. -/
def dw (d : List Nat) (i : Nat) : Nat := d.getD i 0

def dKind (d : List Nat) : Nat := bits (dw d 0) 31 29
def dPrio (d : List Nat) : Nat := bits (dw d 0) 28 26
def dRepeat (d : List Nat) : Bool := bits (dw d 0) 25 25 == 1
def dAll (d : List Nat) : Bool := bits (dw d 0) 24 24 == 1
def dLayer (d : List Nat) : Nat := bits (dw d 0) 23 20
def dCmask (d : List Nat) : Nat := bits (dw d 0) 19 16
def dOut (d : List Nat) : Nat := bits (dw d 0) 15 13
/-- WIN in the copy the scheduler uses: above 40 it is 40 (R97). -/
def dWin (d : List Nat) : Nat := min (bits (dw d 0) 12 7) 40
def dOrdEn (d : List Nat) : Bool := bits (dw d 0) 6 6 == 1
def dStart (d : List Nat) : Nat := bits (dw d 2) 23 0
def dCount (d : List Nat) : Nat := bits (dw d 3) 23 0
def dWhole (d : List Nat) : Bool := dCount d == 0xFFFFFF
def dDelay (d : List Nat) : Nat := bits (dw d 4) 15 0
def dTick (d : List Nat) : Bool := bits (dw d 4) 31 31 == 1
def dNext (d : List Nat) : Nat := bits (dw d 5) 31 20
def dNextEn (d : List Nat) : Bool := bits (dw d 5) 19 19 == 1
def dOrdSel (d : List Nat) : Nat := bits (dw d 5) 9 0

/-- A CLIP job in VIDEO mode writes no cells and holds no layer open (R114). -/
def dVideoClip (d : List Nat) : Bool := dKind d == 4 && bits (dw d 6) 18 18 == 1

/-- The descriptor of a slot in the table in force; slots beyond the table read as KIND 0 (R96). -/
def State.desc (s : State) (slot : Nat) : List Nat :=
  let b := s.actF A.SCHED_DESC_BUF ⟨11, 0⟩
  if b ≠ nullBuf ∧ slot * 64 + 64 ≤ s.bufSize b then
    (List.range 16).map fun i => s.mem32 (s.bufBase b + slot * 64 + i * 4)
  else []

/-- The buffers a descriptor names (R97). -/
def descBufs (d : List Nat) : List Nat :=
  ((if dKind d == 1 && bits (dw d 6) 31 28 == 6 then [bits (dw d 15) 31 20] else []) ++
   (if dKind d == 2 then [bits (dw d 6) 31 20] else []) ++
   (if dKind d == 3 then [bits (dw d 6) 27 16] else []) ++
   (if dKind d == 4 then [bits (dw d 6) 31 20] else [])).filter (· != nullBuf)

/-- Whether OUT is allowed for a kind (R104). -/
def outAllowed (kind out : Nat) : Bool :=
  match out with
  | 0 => true
  | 1 => true
  | 2 => kind == 1 || kind == 3 || kind == 4
  | 3 => kind == 1 || kind == 3 || kind == 4 || kind == 5
  | 4 => kind == 1 || kind == 3 || kind == 4
  | 5 => kind == 3 || kind == 4
  | _ => false

/-- The nine matrix entries of a UNIVERSE job, binary16 (R115). -/
def dMatrix (d : List Nat) : List Nat :=
  [bits (dw d 9) 15 0, bits (dw d 9) 31 16, bits (dw d 10) 15 0, bits (dw d 10) 31 16, bits (dw d 11) 15 0,
   bits (dw d 11) 31 16, bits (dw d 12) 15 0, bits (dw d 12) 31 16, bits (dw d 13) 15 0]

/-- Whether a descriptor is invalid by itself (R100); a table check can mark it too. -/
def descInvalid (d : List Nat) : Bool :=
  decide (5 < dKind d) || !outAllowed (dKind d) (dOut d) ||
  (match dKind d with
   | 1 =>
     let gen := bits (dw d 6) 31 28
     let lo := bits (dw d 10) 15 0
     decide (6 < gen) || decide (4 < bits (dw d 6) 27 25) || ((gen == 2 || gen == 5) && decide (3 < lo)) || (gen == 1 && decide (1 < lo))
   | 3 =>
     bits (dw d 6) 31 28 == dLayer d ||
       (match dec32 (dw d 9) with | .fin x => decide (x < 0) | _ => true)
   | 5 =>
     let spc := bits (dw d 6) 15 12
     let first := bits (dw d 6) 9 0
     let last := bits (dw d 7) 9 0
     spc == 0 || decide (4 < spc) || first == 0 || last == 0 || decide (512 < last) || decide (last < first) ||
       (decide (dOut d < 2) && (decide (spc < 3) || !(dMatrix d).all finite16))
   | _ => false)

/-! ### State blocks and phase (R101, R106) -/

/-- A state block. -/
structure Block where
  phaseBase : Nat
  tBase : Nat
  phaseLast : Nat
  ptLast : Nat
  rateUsed : Nat
  resume : Nat
  frameLast : Nat
deriving DecidableEq, Repr

/-- The address of a slot's state block, where STATE_BUF holds one (R101). -/
def State.blockAddr (s : State) (slot : Nat) : Option Nat :=
  let b := s.actF A.SCHED_STATE_BUF ⟨11, 0⟩
  if b ≠ nullBuf ∧ slot * 64 + 64 ≤ s.bufSize b then some (s.bufBase b + slot * 64) else none

/-- Read a state block. -/
def State.readBlock (s : State) (a : Nat) : Block :=
  ⟨s.mem64 a, s.mem64 (a + 8), s.mem64 (a + 0x10), s.mem64 (a + 0x18), s.mem32 (a + 0x20), s.mem32 (a + 0x24), s.mem32 (a + 0x28)⟩

/-- Write a state block. -/
def State.writeBlock (s : State) (a : Nat) (b : Block) : State :=
  let s := (((s.memW a 8 b.phaseBase).memW (a + 8) 8 b.tBase).memW (a + 0x10) 8 b.phaseLast).memW (a + 0x18) 8 b.ptLast
  (((s.memW (a + 0x20) 4 b.rateUsed).memW (a + 0x24) 4 b.resume).memW (a + 0x28) 4 b.frameLast).memW (a + 0x2C) 20 0

/-- The phase of a job that renders a frame presented at `pt`, and its state block with the rebase made (R106). `first`: the
first run after an ARM; `p0`: PHASE0 in 2⁻³² cycles; `lim`: the largest phase where the phase is clamped. -/
def phaseOf (b : Block) (first : Bool) (p0 rate pt : Nat) (lim : Option Nat) : Int × Block :=
  let b := if first then { b with phaseBase := p0 % 2 ^ 64, tBase := pt % 2 ^ 64, rateUsed := rate }
    else if rate ≠ b.rateUsed then { b with phaseBase := b.phaseLast, tBase := b.ptLast, rateUsed := rate }
    else b
  let dt := signedN 64 (wrapN 64 ((pt : Int) - b.tBase))
  let adv := roundEven ((signedN 32 rate * dt * 65536 : Int) / (1000000000 : Rat))
  let phi := signedN 64 (wrapN 64 (signedN 64 b.phaseBase + adv))
  let phi := match lim with
    | some m => if phi < 0 then 0 else if (m : Int) < phi then (m : Int) else phi
    | none => phi
  (phi, { b with phaseLast := wrapN 64 phi, ptLast := pt % 2 ^ 64 })

/-- The phase rule of a job's kind: PHASE0, RATE and the clamp; kinds without a phase have none. `frames`: the clip frames used. -/
def dPhase (d : List Nat) (frames : Nat) : Option (Nat × Nat × Option Nat) :=
  if dKind d = 1 then
    let gen := bits (dw d 6) 31 28
    let clamp := gen == 1 || (gen == 6 && bits (dw d 6) 24 24 == 0)
    some (dw d 8, dw d 7, if clamp then some (2 ^ 32) else none)
  else if dKind d = 4 then
    some (bits (dw d 8) 23 0 * 2 ^ 32, dw d 7,
      if bits (dw d 6) 19 19 = 1 then none else some ((frames - 1) * 2 ^ 32))
  else none

/-! ### What a run adds up -/

/-- The records of a run in progress. -/
structure RunAcc where
  s : State
  cells : Nat
  limited : Bool
  idxClip : Bool
  drops : Nat
  subst : Nat
  oor : Nat
  taps : Nat
  sampled : Nat
  noFrame : Nat
  outside : Nat
  skipped : Nat
  bad : Nat
  foot : Nat
  seen : Nat
deriving DecidableEq, Repr

/-- Write the bits of `mask` of a 64-bit cell in memory (R104). -/
def writeMasked (s : State) (a v mask : Nat) : State :=
  let old := s.mem64 a
  s.memW a 8 ((old &&& (2 ^ 64 - 1 - mask)) ||| (v &&& mask))

/-- The bits OUT writes (R104). -/
def outMask (out cmask : Nat) : Nat :=
  match out with
  | 0 => 2 ^ 64 - 1
  | 1 => 2 ^ 48 - 1
  | 2 => 0xFFFF * 2 ^ 48
  | 3 => (List.range 4).foldl (fun m k => if cmask / 2 ^ k % 2 = 1 then m + 0xFFFF * 2 ^ (16 * k) else m) 0
  | 4 => (cmask % 2) * (2 ^ 32 - 1) + (cmask / 2 % 2) * ((2 ^ 32 - 1) * 2 ^ 32)
  | 5 => 2 ^ 64 - 1
  | _ => 0

/-- Component `k` (16 bits) of a cell. -/
def comp16 (c k : Nat) : Nat := c / 2 ^ (16 * k) % 65536

/-- A cell from its X, Y, Z codes and alpha. -/
def cellOf (x y z a : Nat) : Nat := x + y * 2 ^ 16 + z * 2 ^ 32 + a * 2 ^ 48

/-- Store a LIGHT result (R109): its binary16 code, and whether it was limited. -/
def storeLight (r : Rat) : Nat × Bool := (enc16 r, decide (65504 < rnd16 r))

/-! ### GENERATE (R103, R105 to R109) -/

/-- The hash of R108. -/
def noiseHash (x : Nat) : Nat :=
  let x := x % 2 ^ 32
  let x := x ^^^ (x / 2 ^ 16)
  let x := x * 0x7FEB352D % 2 ^ 32
  let x := x ^^^ (x / 2 ^ 15)
  let x := x * 0x846CA68B % 2 ^ 32
  x ^^^ (x / 2 ^ 16)

/-- Lattice noise (R108). -/
def noise16 (seed i : Nat) (phi : Nat) : Nat :=
  let lat (k : Nat) : Nat := noiseHash (seed ^^^ noiseHash (i % 2 ^ 32 ^^^ noiseHash k)) / 2 ^ 16
  let k := phi / 2 ^ 32 % 2 ^ 32
  let f : Int := (phi % 2 ^ 32 / 65536 : Nat)
  let l0 : Int := lat k
  let l1 : Int := lat ((k + 1) % 2 ^ 32)
  (l0 + (((l1 - l0) * f + 32768) / 65536)).toNat

/-- A waveform of a 32-bit fraction (R107). -/
def waveform (form width u : Nat) : Nat :=
  let u16 := u / 65536
  match form with
  | 0 => (roundEven (65535 / 2 * (1 + sinTurn u16))).toNat
  | 1 => let t := u / 2 ^ 15; if t < 65536 then t else 131071 - t
  | 2 => if u16 < width then 65535 else 0
  | _ => u16

/-- A Catmull-Rom spline of `k` points at a phase (R107). -/
def spline16 (pt : Nat → Nat) (k : Nat) (loop : Bool) (phi : Int) : Nat :=
  if k = 1 then pt 0
  else
    let x : Rat := if loop then (((phi % 2 ^ 32).toNat * k : Nat) : Rat) / (2 ^ 32 : Nat)
      else ((if phi < 0 then 0 else if (2 ^ 32 : Int) < phi then 2 ^ 32 else phi.toNat) * (k - 1) : Nat) / ((2 ^ 32 : Nat) : Rat)
    let j := x.floor
    let t := rnd64 (x - j)
    let p (n : Int) : Rat :=
      let i := if loop then (n % (k : Int)).toNat else if n < 0 then 0 else min n.toNat (k - 1)
      (pt i : Nat)
    let p0 := p (j - 1)
    let p1 := p j
    let p2 := p (j + 1)
    let p3 := p (j + 2)
    let t2 := mul64 t t
    let t3 := mul64 t2 t
    let a := add64 (mul64 2 p1) (mul64 (sub64 p2 p0) t)
    let b := add64 a (mul64 (sub64 (add64 (sub64 (mul64 2 p0) (mul64 5 p1)) (mul64 4 p2)) p3) t2)
    let c := add64 b (mul64 (add64 (sub64 (sub64 (mul64 3 p1) p0) (mul64 3 p2)) p3) t3)
    (roundEven (clampQ 0 65535 (mul64 (1 / 2) c))).toNat

/-- The generator value s16 of a cell, or none where nothing is written (R107). `x`, `y`: the cell; `i`: its index; `phi`: the
job's phase; `pt`, `k`: the spline's points. -/
def genValue (d : List Nat) (phi : Int) (x y i : Nat) (pt : Nat → Nat) (k : Nat) : Option Nat :=
  let spread := signedN 32 (dw d 9)
  let hi := bits (dw d 10) 31 16
  let lo := bits (dw d 10) 15 0
  let aux := dw d 15
  let phiI := wrapN 64 (phi + i * spread)
  match bits (dw d 6) 31 28 with
  | 0 => some hi
  | 1 =>
    let p : Rat := clampQ 0 1 ((phi - i * spread : Int) / ((2 ^ 32 : Nat) : Rat))
    some (roundEven (if lo = 0 then 65535 * p else 65535 * (p * p * (3 - 2 * p)))).toNat
  | 2 => some (waveform lo hi (phiI % 2 ^ 32))
  | 3 => some (noise16 aux i phiI)
  | 4 =>
    let steps := aux % 65536
    if steps = 0 then none
    else
      let p := wrapN 32 phi * steps / 2 ^ 32
      let dd := (p + steps - i % steps) % steps
      some (if dd < hi then 65535
        else if dd < hi + lo then (roundEven ((65535 * (hi + lo - dd) : Nat) / ((lo + 1 : Nat) : Rat))).toNat else 0)
  | 5 =>
    let cx : Int := bits aux 11 0
    let cy : Int := bits aux 27 16
    let dx := (x : Int) - cx
    let dy := (y : Int) - cy
    let dist := sqrt64 (dx * dx + dy * dy).toNat
    some (waveform lo hi (wrapN 32 (phi - roundEven (mul64 dist spread))))
  | _ => if k = 0 then none else some (spline16 pt k (bits (dw d 6) 24 24 == 1) (signedN 64 phiI))

/-- X, Y or Z of a GENERATE job: a + (b − a) × q in binary32 (R109). -/
def genLight (a b : Rat) (s16 : Nat) : Nat × Bool :=
  let q := rnd32 ((s16 : Nat) / 65535)
  storeLight (rnd32 (a + rnd32 (rnd32 (b - a) * q)))

/-- An integer component of a GENERATE job (R109). -/
def genInt (a b s16 : Nat) : Nat := (roundEven ((a : Rat) + ((b : Rat) - a) * (s16 : Nat) / 65535)).toNat

/-- The 64-bit cell a GENERATE job forms from A, B and s16 under OUT, and whether a result was limited. -/
def genCell (out ca cb s16 : Nat) : Nat × Bool :=
  if out = 4 then
    (genInt (ca % 2 ^ 32) (cb % 2 ^ 32) s16 + genInt (ca / 2 ^ 32) (cb / 2 ^ 32) s16 * 2 ^ 32, false)
  else if out = 3 then
    (cellOf (genInt (comp16 ca 0) (comp16 cb 0) s16) (genInt (comp16 ca 1) (comp16 cb 1) s16)
      (genInt (comp16 ca 2) (comp16 cb 2) s16) (genInt (comp16 ca 3) (comp16 cb 3) s16), false)
  else if out = 2 then (genInt (comp16 ca 3) (comp16 cb 3) s16 * 2 ^ 48, false)
  else
    let l (k : Nat) : Nat × Bool := genLight (readXyz (comp16 ca k)).1 (readXyz (comp16 cb k)).1 s16
    (cellOf (l 0).1 (l 1).1 (l 2).1 (genInt (comp16 ca 3) (comp16 cb 3) s16), (l 0).2 || (l 1).2 || (l 2).2)

/-- Substitutions in X, Y and Z of a cell read from memory (R66). -/
def substCount (c : Nat) : Nat := ((List.range 3).filter fun k => (readXyz (comp16 c k)).2).length

/-- A cell with its X, Y and Z read through R66. -/
def substCell (c : Nat) : Nat :=
  let r (k : Nat) : Nat := if (readXyz (comp16 c k)).2 then enc16 (readXyz (comp16 c k)).1 else comp16 c k
  cellOf (r 0) (r 1) (r 2) (comp16 c 3)

/-! ### TRANSFORM (R111, R112) -/

/-- A lookup of a 16-bit component in the table at `base` with `n` entries present (R112). -/
def lutValue (s : State) (base n c : Nat) : Nat :=
  let l (j : Nat) : Int := s.mem16 (base + 2 * min j (n - 1))
  let j := c / 16
  let r : Int := c % 16
  wrapN 16 (l j + (((l (j + 1) - l j) * r + 8) / 16))

/-- The cell a TRANSFORM job writes from source cell `c` (R111), and whether a result was limited. -/
def transformCell (s : State) (d : List Nat) (c : Nat) : Nat × Bool :=
  let out := dOut d
  if out < 2 then
    let g := num32 0 (dw d 9)
    let l (k : Nat) : Nat × Bool := storeLight (rnd32 ((readXyz (comp16 c k)).1 * g))
    (cellOf (l 0).1 (l 1).1 (l 2).1 (comp16 c 3), (l 0).2 || (l 1).2 || (l 2).2)
  else if out = 3 then
    let b := bits (dw d 6) 27 16
    let m := bits (dw d 6) 15 12
    let v (k : Nat) : Nat :=
      if b ≠ nullBuf ∧ m / 2 ^ k % 2 = 1 then lutValue s (s.bufBase b) (min 4097 (s.bufSize b / 2)) (comp16 c k) else comp16 c k
    (cellOf (v 0) (v 1) (v 2) (v 3), false)
  else (c, false)

/-! ### CLIP (R114) -/

/-- The clip frames a CLIP job uses after clipping to its buffer. -/
def clipFrames (s : State) (d : List Nat) : Nat :=
  let unit := bits (dw d 9) 23 0 * (if dVideoClip d then 64 else 8)
  if unit = 0 then bits (dw d 10) 23 0 else min (bits (dw d 10) 23 0) (s.bufSize (bits (dw d 6) 31 20) / unit)

/-- The clip frame at a phase (R114). -/
def clipFrame (d : List Nat) (frames : Nat) (phi : Int) : Nat :=
  let f := phi / 2 ^ 32
  if bits (dw d 6) 19 19 = 1 then (f % (frames : Int)).toNat else min f.toNat (frames - 1)

/-! ### UNIVERSE (R115) -/

/-- The universe-map index and first slot of the `n`-th cell a UNIVERSE job writes. -/
def univPlace (d : List Nat) (n : Nat) : Nat × Nat :=
  let w := bits (dw d 6) 15 12 * (1 + bits (dw d 6) 11 11)
  let first := bits (dw d 6) 9 0
  let last := bits (dw d 7) 9 0
  let c1 := (last + 1 - first) / w
  let per := max 1 (last / w)
  if n < c1 then (bits (dw d 6) 31 16, first + n * w)
  else (bits (dw d 6) 31 16 + 1 + (n - c1) / per, 1 + (n - c1) % per * w)

/-- Component `j` of a UNIVERSE cell whose slots begin at (m, slot). -/
def univComp (s : State) (d : List Nat) (m slot j : Nat) : Nat :=
  if bits (dw d 6) 11 11 = 1 then s.slotValue m (slot + 2 * j) * 256 + s.slotValue m (slot + 2 * j + 1)
  else s.slotValue m (slot + j) * 257

/-- The cell a UNIVERSE job writes from its components. -/
def univCell (d : List Nat) (c : Nat → Nat) : Nat × Bool :=
  let spc := bits (dw d 6) 15 12
  if dOut d = 3 then (cellOf (c 0) (c 1) (c 2) (c 3), false)
  else
    let m (k : Nat) : Rat := num16 0 ((dMatrix d).getD k 0)
    let row (r : Nat) : Nat × Bool :=
      let x := rnd32 (rnd32 (rnd32 (m (3 * r) * c 0) + rnd32 (m (3 * r + 1) * c 1)) + rnd32 (m (3 * r + 2) * c 2))
      let x := rnd32 (x / 65535)
      let x := if spc = 4 then rnd32 (x * rnd32 ((c 3 : Nat) / 65535)) else x
      storeLight (if x < 0 then 0 else x)
    (cellOf (row 0).1 (row 1).1 (row 2).1 (bits (dw d 13) 31 16), (row 0).2 || (row 1).2 || (row 2).2)

/-! ### A run -/

/-- The positions of a run in its layer region: the first, and how many lie in the region (R102). -/
def runSpan (d : List Nat) (total : Nat) : Nat × Nat :=
  if dWhole d then (0, total) else (dStart d, min (dCount d) (total - dStart d))

/-- Position `k`'s offset in the job's own run: k − START, or k for the whole layer. -/
def runOffset (d : List Nat) (k : Nat) : Nat := if dWhole d then k else k - dStart d

/-- Whether a position's cell is skipped (R103): with IDX_SRC 3 or 4, or ORD_EN, unowned cells; with ORD_EN other orders. -/
def skipCell (d : List Nat) (e : CellEntry) : Bool :=
  let idx := bits (dw d 6) 27 25
  let needs := dKind d == 1 && bits (dw d 6) 31 28 != 5 && (idx == 3 || idx == 4)
  ((needs || dOrdEn d) && !e.owned) || (dOrdEn d && e.ord != dOrdSel d)

/-- The index of a cell (R103). -/
def cellIndex (d : List Nat) (x y k : Nat) (e : CellEntry) : Nat :=
  match bits (dw d 6) 27 25 with
  | 0 => x
  | 1 => y
  | 2 => runOffset d k
  | 3 => let l := bits (dw d 6) 23 12; e.owner / 4096 * (if l = 0 then 4096 else l) + e.owner % 4096
  | _ => e.ord

/-- What is fixed for a whole run: the job's descriptor, its layer region, the source region of a TRANSFORM, the cell map, the
phase, and the clip frames. -/
structure RunCtx where
  d : List Nat
  g : Region
  src : Region
  maps : Option (Nat × Nat)
  phi : Int
  frames : Nat
deriving DecidableEq, Repr

/-- The geometry entry of run position `k` (R110): GEO_FIRST + (k − START), or entry k for the whole layer. -/
def geoEntry (d : List Nat) (k : Nat) : Nat := if dWhole d then k else bits (dw d 7) 23 0 + (k - dStart d)

/-- The cell a SAMPLE job writes from geometry entry `e`, with its records (R110, R157 to R162). -/
def sampleCell (c : RunCtx) (e : Nat) (a : RunAcc) : Option Nat × RunAcc :=
  let b := bits (dw c.d 6) 31 20
  if b = nullBuf ∨ a.s.bufSize b < e * 16 + 16 then (none, { a with idxClip := true })
  else
    let ad := a.s.bufBase b + e * 16
    let w3 := a.s.mem32 (ad + 12)
    let r := sampleEntry a.s (a.s.mem32 ad) (a.s.mem32 (ad + 4)) (a.s.mem32 (ad + 8)) w3
    let a := if r.2 then { a with foot := a.foot + 1 } else a
    let flow := (a.s.sourceOf (w3 / 2 ^ 26)).bind (·.flow)
    let alpha := bits (dw c.d 8) 15 0
    let safe (f : Nat → Nat) : Nat := match flow with | some n => f n | none => 0
    let fin (x y z : Nat) : Nat :=
      cellOf (a.s.policyHalf flow x (safe fun n => a.s.actF (A.FLOW_SAFE_LO n) ⟨15, 0⟩))
        (a.s.policyHalf flow y (safe fun n => a.s.actF (A.FLOW_SAFE_LO n) ⟨31, 16⟩))
        (a.s.policyHalf flow z (safe fun n => a.s.actF (A.FLOW_SAFE_HI n) ⟨15, 0⟩)) alpha
    match r.1 with
    | .skip => (none, { a with skipped := a.skipped + 1 })
    | .bad => (none, { a with bad := a.bad + 1 })
    | .black true => (some (cellOf 0 0 0 alpha), { a with noFrame := a.noFrame + 1, sampled := a.sampled + 1 })
    | .black false => (some (fin 0 0 0), { a with outside := a.outside + 1, sampled := a.sampled + 1 })
    | .xyz x y z n =>
      let lx := storeLight x
      let ly := storeLight y
      let lz := storeLight z
      (some (fin lx.1 ly.1 lz.1),
        { a with taps := a.taps + n, sampled := a.sampled + 1, limited := a.limited || lx.2 || ly.2 || lz.2 })

/-- A cell about to be read through R66: an armed SUBST injection makes its X count as a NaN (R455). -/
def injectSubst (v : Nat) (a : RunAcc) : Nat × RunAcc :=
  if a.s.injArmed P.RASTER 1 then (v / 65536 * 65536 + 0x7E00, { a with s := a.s.injTake P.RASTER 1 }) else (v, a)

/-- The 64-bit value a job writes at run position `k`, none where it writes nothing there. -/
def jobCell (c : RunCtx) (k : Nat) (e : CellEntry) (a : RunAcc) : Option Nat × RunAcc :=
  let d := c.d
  let o := runOffset d k
  let x := c.g.x0 + k % c.g.w
  let y := c.g.y0 + k / c.g.w
  match dKind d with
  | 1 =>
    let b := bits (dw d 15) 31 20
    let kk := min (bits (dw d 15) 12 0) (a.s.bufSize b / 2)
    match genValue d c.phi x y (cellIndex d x y k e) (fun i => a.s.mem16 (a.s.bufBase b + 2 * i)) kk with
    | none => (none, a)
    | some s16 =>
      let r := genCell (dOut d) (dw d 11 + dw d 12 * 2 ^ 32) (dw d 13 + dw d 14 * 2 ^ 32) s16
      (some r.1, { a with limited := a.limited || r.2 })
  | 2 => sampleCell c (geoEntry d k) a
  | 3 =>
    let off := bits (dw d 7) 23 0 + o * dw d 8 / 65536
    let inside := decide (off < c.src.w * c.src.h)
    let v := if inside then a.s.mem64 (c.src.base + off * 8) else 0
    let a := if inside then a else { a with oor := a.oor + 1 }
    let i := if dOut d < 2 then injectSubst v a else (v, a)
    let v := i.1
    let a := i.2
    let a := if dOut d < 2 then { a with subst := a.subst + substCount v } else a
    let r := transformCell a.s d v
    (some r.1, { a with limited := a.limited || r.2 })
  | 4 =>
    let stride := bits (dw d 9) 23 0
    if c.frames = 0 then (none, a)
    else
      let f := clipFrame d c.frames c.phi
      let v := a.s.mem64 (a.s.bufBase (bits (dw d 6) 31 20) + (f * stride + o) * 8)
      if dOut d < 2 then
        let i := injectSubst v a
        (some (substCell i.1), { i.2 with subst := i.2.subst + substCount i.1 })
      else (some v, a)
  | _ =>
    let p := univPlace d a.seen
    let a := { a with seen := a.seen + 1 }
    if 65535 < p.1 then (none, { a with idxClip := true })
    else
      let r := univCell d (univComp a.s d p.1 p.2)
      (some r.1, { a with limited := a.limited || r.2 })

/-- Whether a position of a cell clip lies beyond STRIDE and is dropped (R114). -/
def clipDrop (d : List Nat) (k : Nat) : Bool := dKind d == 4 && decide (bits (dw d 9) 23 0 ≤ runOffset d k)

/-- One run position: a dropped one reads and writes nothing; a skipped cell is neither read nor written. `live` is false for positions a
resumed job has already written. -/
def jobStep (c : RunCtx) (live : Bool) (k : Nat) (a : RunAcc) : RunAcc :=
  let cell := (c.g.y0 + k / c.g.w) * 4096 + (c.g.x0 + k % c.g.w)
  let e := a.s.cellEntry c.maps cell
  if clipDrop c.d k then { a with drops := a.drops + live.toNat }
  else if skipCell c.d e then a
  else if !live then { a with seen := a.seen + 1 }
  else
    let r := jobCell c k e a
    let mask := outMask (dOut c.d) (if dKind c.d = 5 then dCmask c.d % 2 ^ bits (dw c.d 6) 15 12 else dCmask c.d)
    match r.1 with
    | none => r.2
    | some v =>
      if mask = 0 then r.2 else { r.2 with s := writeMasked r.2.s (c.g.base + k * 8) v mask, cells := r.2.cells + 1 }

/-- Run positions `from` … of a job, `n` of them. -/
def jobSteps (c : RunCtx) (first : Nat) : Nat → Nat → RunAcc → RunAcc
  | _, 0, a => a
  | k, n + 1, a => jobSteps c first (k + 1) n (jobStep c (decide (first ≤ k)) k a)

/-- Present a clip frame as a memory video source (R114, R158); a clip frame shorter than the slot presents nothing. -/
def presentClip (d : List Nat) (frames : Nat) (phi : Int) (s : State) : State × Bool :=
  let v := bits (dw d 6) 3 0
  let stride := bits (dw d 9) 23 0 * 64
  let sz := s.act (A.SAMPLER_MSRC_SIZE v)
  let p := planesOf (fget sz ⟨12, 0⟩) (fget sz ⟨28, 16⟩) (s.act (A.SAMPLER_MSRC_FMT v))
  let b := bits (dw d 6) 31 20
  if frames = 0 then (s, false)
  else if stride < p.size then (s, true)
  else
    let base := s.bufBase b + clipFrame d frames phi * stride
    ({ s with sched := { s.sched with clips := (v, b, base) :: s.sched.clips.filter fun c => c.1 != v } }, false)

/-- `n` occurrences of an event in one run. -/
def State.raiseN (s : State) (n p bit : Nat) : State :=
  if n = 0 then s else if n = 1 then s.raise p bit else (s.raise p bit).raise p bit

/-- Record a run's counts in the bench's page, the SAMPLER page and RASTER (R66, R102, R107, R109, R111, R157 to R163). The
cycles a run takes are a free value (log entry 1). -/
def recordRun (b used : Nat) (sampling : Bool) (a : RunAcc) : State :=
  let s := a.s
  let s := s.wr (A.BENCH_LAST_USED b) (w32 used)
  let s := s.add (A.BENCH_CELLS b) ⟨31, 0⟩ a.cells
  let cyc := s.fresh (2 ^ 24)
  let s := cyc.2.add64 (A.BENCH_BUSY_CYC_LO b) (a.cells + cyc.1)
  let s := s.add (A.BENCH_SRC_OOR b) ⟨31, 0⟩ a.oor
  let acts := (if 0 < a.drops then [GAct.mk 29 0x10 (some 0)] else []) ++ (if a.idxClip then [GAct.mk 29 0x11 (some 1)] else []) ++
    (if a.limited then [GAct.mk 30 0x12 (some 2)] else [])
  let s := acts.foldl (fun t g => t.guardActs (P.BENCH b) [g]) s
  let s := s.subst a.subst
  if !sampling then s
  else
    let s := s.add64 A.SAMPLER_TAPS_LO a.taps
    let s := s.add A.SAMPLER_CELLS ⟨31, 0⟩ a.sampled
    let s := s.add A.SAMPLER_NO_FRAME ⟨31, 0⟩ a.noFrame
    let s := s.add A.SAMPLER_OUTSIDE ⟨31, 0⟩ a.outside
    let s := s.add A.SAMPLER_SKIPPED ⟨31, 0⟩ a.skipped
    let w := s.fresh (2 ^ 24)
    let s := w.2.add64 A.SAMPLER_GRANT_WAIT_LO w.1
    let s := s.guardActs P.SAMPLER (List.replicate a.bad ⟨31, 0x21, some 1⟩)
    let s := s.guardActs P.SAMPLER (List.replicate a.foot ⟨30, 0x20, some 0⟩)
    (s.raiseN a.noFrame P.SAMPLER 0).raiseN a.bad P.SAMPLER 1

/-- Where a job's reads of its source begin, for a job that has one (R110 to R114). -/
def jobSource (d : List Nat) (src : Region) (s : State) : Option Nat :=
  match dKind d with
  | 1 => if bits (dw d 6) 31 28 = 6 then some (s.bufBase (bits (dw d 15) 31 20)) else none
  | 2 => some (s.bufBase (bits (dw d 6) 31 20) + geoEntry d (dStart d) * 16)
  | 3 => some (src.base + bits (dw d 7) 23 0 * 8)
  | 4 => if dVideoClip d then none else some (s.bufBase (bits (dw d 6) 31 20))
  | _ => none

/-- Run a job on bench `b` from position `first` on: all of it, or `limit` positions of it. Its state block is written with
RESUME naming the next position where `resume` (R101, R124). Answers the next position and the state after. LAST_USED of a job that is
stopped, or that resumes, is its whole span in the region: the manual does not say whether it counts the positions of that run alone
(DESIGN CHOICE, log entry 39). -/
def runJob (b : Nat) (j : RunJob) (fresh : Bool) (limit : Option Nat) (resume writeBlock : Bool) (s : State) : Nat × State :=
  let inj := dKind j.desc == 1 && decide (dOut j.desc < 2) && s.injArmed P.RASTER 1
  let s := if inj then s.injTake P.RASTER 1 else s
  let d := if inj then j.desc.set 11 (dw j.desc 11 / 65536 * 65536 + 0x7E00) else j.desc
  let g := if dVideoClip d then ⟨0, 0, 0, 0, 0, false⟩ else s.layer (dLayer d)
  let total := g.w * g.h
  let span := runSpan d total
  let blk := (s.blockAddr j.slot).map s.readBlock
  let b0 := blk.getD ⟨0, 0, 0, 0, 0, 0, 0⟩
  let frames := clipFrames s d
  let ph := match dPhase d frames with
    | some (p0, rate, lim) => phaseOf b0 fresh p0 rate j.pt lim
    | none => (0, { b0 with ptLast := j.pt % 2 ^ 64 })
  let ctx : RunCtx := ⟨d, g, s.layer (bits (dw d 6) 31 28), s.mapsOf (s.act A.MAPS_MAP_SET), ph.1, frames⟩
  let start := span.1
  let first := max j.pos start
  let stop := match limit with
    | some n => min (start + span.2) (first + n)
    | none => start + span.2
  let sub0 := if dKind d = 1 ∧ dOut d < 2 then
    substCount (dw d 11 + dw d 12 * 2 ^ 32) + substCount (dw d 13 + dw d 14 * 2 ^ 32) else 0
  let drops := if dWhole d || total == 0 then 0 else dCount d - span.2
  let clipShort := (dVideoClip d || total != 0) && ((dKind d == 4 && decide (frames < bits (dw d 10) 23 0)) ||
    (dKind d == 1 && bits (dw d 6) 31 28 == 6 && decide (s.bufSize (bits (dw d 15) 31 20) / 2 < bits (dw d 15) 12 0)) ||
    (dKind d == 3 && dOut d == 3 && bits (dw d 6) 27 16 != nullBuf && decide (s.bufSize (bits (dw d 6) 27 16) / 2 < 4097)))
  let src := if stop ≤ first then none else jobSource d ctx.src s
  let ecc := match src with | some ad => eccRead ad s | none => (false, s)
  let now := s.sched.clips
  let t := match src with | some ad => if ecc.1 then ecc.2.memClear (ad / 64 * 64) 64 else ecc.2 | none => ecc.2
  let a0 : RunAcc := ⟨{ t with sched := { t.sched with clips := j.clips } }, 0, false, clipShort, drops, sub0, 0, 0, 0, 0, 0, 0, 0, 0, 0⟩
  let a := if dVideoClip d then
      let r := presentClip d frames ph.1 s
      { a0 with s := if j.frame = s.sched.frame then r.1 else s, idxClip := a0.idxClip || r.2 }
    else
      let a := jobSteps ctx first start (stop - start) a0
      let u := match src with | some ad => if ecc.1 then burstBack ad s a.s else a.s | none => a.s
      { a with s := { u with sched := { u.sched with clips := now } } }
  let used := span.2 - (a.drops - drops)
  let s := recordRun b used (dKind d == 2) a
  let s := match s.blockAddr j.slot with
    | some ad => if writeBlock then
        s.writeBlock ad { ph.2 with resume := if resume then 2 ^ 31 + stop else 0, frameLast := j.frame % 2 ^ 32 } else s
    | none => s
  (stop, s)

end Sys2Proof.Machine
end

