-- ==== Sys2Proof/Machine/Sched.lean ====
section
/-!
DEFINITION. The bench scheduler: slots, flags, delays, layers, dispatch, the boundary table and timecode (R96 to R98, R116 to
R134).
-/
namespace Sys2Proof.Machine

/-! ### Slots, benches and layers -/

/-- A slot nothing has armed. -/
def JobSlot.init : JobSlot := ⟨.idle, 0, none, 0, 0, false, none⟩

/-- The state of a slot. -/
def State.slot (s : State) (k : Nat) : JobSlot := amGet (fun _ => JobSlot.init) s.sched.slots k

/-- Set the state of a slot. -/
def State.setSlot (s : State) (k : Nat) (x : JobSlot) : State :=
  { s with sched := { s.sched with slots := amSet (fun _ => JobSlot.init) s.sched.slots k x } }

/-- The descriptor a slot is judged by: a late job's kept copy, otherwise that of the table in force (R98). -/
def State.slotDesc (s : State) (k : Nat) : List Nat :=
  match (s.slot k).resume with
  | some r => r.1
  | none => s.desc k

/-- Whether a slot is EMPTY (R116). -/
def State.slotEmpty (s : State) (k : Nat) : Bool :=
  ((s.slot k).st == .idle || (s.slot k).st == .done) && dKind (s.desc k) == 0

/-- The slot-state code SLOT_RESULT reports (R134). -/
def State.slotCode (s : State) (k : Nat) : Nat :=
  if s.slotEmpty k then 0
  else match (s.slot k).st with
    | .idle => 1 | .delay => 2 | .wait => 3 | .ready => 4 | .affinity => 5 | .run => 6 | .spent => 7 | .done => 8

/-- Bench `b`. -/
def State.bench (s : State) (b : Nat) : Bench := s.sched.benches.getD b ⟨none, []⟩

/-- Set bench `b`. -/
def State.setBench (s : State) (b : Nat) (x : Bench) : State :=
  { s with sched := { s.sched with benches := s.sched.benches.set b x } }

/-- Whether a bench is in service: not withdrawn, not about to be withdrawn, and not faulted (R126, R132, R133). -/
def State.benchUp (s : State) (b : Nat) : Bool :=
  !s.offline (P.BENCH b) && !bitOf (s.rd (H.PAGE_STAT (P.BENCH b))) 31 && !s.commit.withdrawing.contains (P.BENCH b)

/-- Whether a bench can be given a job. -/
def State.benchFree (s : State) (b : Nat) : Bool := (s.bench b).job.isNone && s.benchUp b

/-- Layer `i` as the scheduler holds it. -/
def State.layerSt (s : State) (i : Nat) : LayerSt := s.sched.layers.getD i ⟨false, false, true, false⟩

/-- Set layer `i`. -/
def State.setLayer (s : State) (i : Nat) (x : LayerSt) : State :=
  { s with sched := { s.sched with layers := s.sched.layers.set i x } }

/-- Whether the scheduler runs (R134). -/
def State.schedEn (s : State) : Bool := s.actF A.SCHED_CTRL F.SCHED_CTRL_EN == 1

/-- Bring OCC up to date. -/
def State.occSync (s : State) : State :=
  s.wr A.SCHED_OCC (w32 ((s.sched.ready.length + s.sched.affinity.length) * 2 ^ 16 + s.sched.delays.length))

/-! ### Flags (R119, R120) -/

/-- The global flags. -/
def State.gflags (s : State) : Nat := s.rd64 A.SCHED_GFLAG_LO

/-- Set the global flags, recording watched rises (R134). -/
def State.setFlags (s : State) (v : Nat) : State :=
  let rise := (v &&& s.rd64 A.SCHED_WATCH_LO) &&& (2 ^ 64 - 1 - (v &&& s.gflags))
  let s := (s.wr64 A.SCHED_GFLAG_LO v).wr64 A.SCHED_GCLR_LO v
  if rise = 0 then s else (s.wr64 A.SCHED_RISEN_LO (s.rd64 A.SCHED_RISEN_LO ||| rise)).raise P.SCHED 0

/-- Clear the flags of `c`, then set those of `v`: where a set and a clear meet, the set wins (R119). -/
def State.changeFlags (s : State) (c v : Nat) : State := s.setFlags ((s.gflags &&& (2 ^ 64 - 1 - c)) ||| v)

/-- Whether a job's wait condition holds (R120). -/
def State.waitHolds (s : State) (k : Nat) : Bool :=
  let d := s.slotDesc k
  let g := bits (dw d 1) 31 8 * 2 ^ dWin d % 2 ^ 64
  let p := bits (dw d 1) 7 0
  let gOn := s.gflags &&& g
  let pOn := (s.slot k).pflags &&& p
  (g == 0 && p == 0) || (if dAll d then gOn == g && pOn == p else gOn != 0 || pOn != 0)

/-- A job enters READY at the end of the ready order. -/
def State.makeReady (s : State) (k : Nat) : State :=
  let s := s.setSlot k { s.slot k with st := .ready }
  { s with sched := { s.sched with ready := s.sched.ready ++ [k] } }

/-- The 100 µs ticks of Krafohel time that have passed are counted off the tick delays, while EN is 1 (R121, R134). -/
def countTicks (s : State) : State :=
  let now := s.nowNs / 100000
  let n := if s.schedEn then now - s.sched.tickAt else 0
  { s with sched := { s.sched with
    tickAt := now, delays := s.sched.delays.map fun e => if e.tick then { e with left := e.left - n } else e } }

/-- When the tick delay of a slot runs out, ns, where the slot has one. -/
def State.delayDue (s : State) (k : Nat) : Option Nat :=
  (s.sched.delays.find? fun e => e.slot == k && e.tick).map fun e => (s.sched.tickAt + e.left) * 100000

/-- Evaluate the wait conditions of jobs in WAIT, in slot order (R120); not while EN is 0 or during the boundary steps. -/
def evalWaits (s : State) : State :=
  if !s.schedEn || s.sched.holding then s
  else (s.sched.slots.filter fun x => x.2.st == .wait).foldl (fun t x => if t.waitHolds x.1 then t.makeReady x.1 else t) s

/-! ### Arming and cancelling (R116, R117, R121) -/

/-- Arm a slot: the result code and the state after (R117, R121). -/
def armSlot (k : Nat) (s : State) : Nat × State :=
  if s.slotEmpty k then (3, s)
  else if (s.slot k).st != .idle && (s.slot k).st != .done then (2, s)
  else
    let d := s.desc k
    let x := { s.slot k with fresh := true, resume := none }
    if dDelay d = 0 then (1, s.setSlot k { x with st := .wait })
    else
      let s := (countTicks s).setSlot k { x with st := .delay }
      (1, { s with sched := { s.sched with delays := s.sched.delays ++ [⟨k, dDelay d, dTick d⟩] } })

/-- Take a slot off every list. -/
def State.unlist (s : State) (k : Nat) : State :=
  { s with sched := { s.sched with
    delays := s.sched.delays.filter fun e => e.slot != k
    ready := s.sched.ready.filter (· != k)
    affinity := s.sched.affinity.filter fun e => e.slot != k } }

/-- A bench's job ends: it is busy no longer. -/
def State.benchIdle (s : State) (b : Nat) : State :=
  (s.setBench b { s.bench b with job := none }).put (A.BENCH_STAT b) F.BENCH_STAT_BUSY 0

/-- The bench that runs a slot, if any. -/
def State.benchOf (s : State) (k : Nat) : Option Nat :=
  (List.range 16).find? fun b => match (s.bench b).job with | some j => j.slot == k | none => false

/-- Stop the job a bench runs after the cell in progress. How far it came is a free value (log entry 11). Answers the job and
its next position. -/
def stopJob (b : Nat) (resume writeBlock : Bool) (s : State) : Option (RunJob × Nat) × State :=
  match (s.bench b).job with
  | none => (none, s)
  | some j =>
    let n := s.fresh (2 ^ 24)
    let r := runJob b j (s.slot j.slot).fresh (some n.1) resume writeBlock n.2
    (some (j, r.1), r.2.benchIdle b)

/-- Every other bench drops its cached copy of a slot's state block (R131). -/
def State.dropCopies (s : State) (b k : Nat) : State :=
  { s with sched := { s.sched with
    benches := s.sched.benches.mapIdx fun i x => if i = b then x else { x with cache := x.cache.filter (· != k) } } }

/-- Cancel a slot (R117). -/
def cancelSlot (k : Nat) (s : State) : State :=
  match s.benchOf k with
  | some b =>
    let frame := match (s.bench b).job with | some j => j.frame | none => s.sched.frame
    let r := stopJob b false true s
    let s := r.2.dropCopies b k
    s.setSlot k { s.slot k with st := .idle, pflags := 0, status := 4, resume := none, fresh := false, frameLast := frame }
  | none =>
    let s := s.unlist k
    let x := s.slot k
    let st := if x.st == .done then SlotSt.done else SlotSt.idle
    s.setSlot k { x with st := st, pflags := 0, resume := none }

/-! ### Layers (R122 to R124) -/

/-- Whether some job holds a layer open: one that targets it is READY, in AFFINITY or in RUN (R123). -/
def State.layerBusy (s : State) (i : Nat) : Bool :=
  let targets (d : List Nat) : Bool := dLayer d == i && !dVideoClip d
  (s.sched.ready.any fun k => targets (s.slotDesc k)) || (s.sched.affinity.any fun e => targets (s.slotDesc e.slot)) ||
    s.sched.benches.any fun b => match b.job with | some j => targets j.desc | none => false

/-- Close layer `i` (R123): `late` at its deadline. -/
def closeLayer (late : Bool) (i : Nat) (s : State) : State :=
  let us := min 65535 ((s.nowNs - s.time.boundary) / 1000)
  let s := s.setLayer i { s.layerSt i with isOpen := false, closed := true }
  s.wr (A.SCHED_LAYER_STAT i) (w32 (late.toNat * 2 ^ 30 + us))

/-- Close every open layer that is quiet (R123). -/
def closeQuiet (s : State) : State :=
  (List.range 16).foldl (fun t i => if (t.layerSt i).isOpen && !t.layerBusy i then closeLayer false i t else t) s

/-! ### Selection and dispatch (R125, R126) -/

/-- The components an output writes, as four 16-bit quarters (R125). -/
def dComps (d : List Nat) : Nat :=
  if dVideoClip d then 0
  else match dOut d with
    | 0 => 15 | 1 => 7 | 2 => 8 | 3 => dCmask d | 4 => dCmask d % 2 * 3 + dCmask d / 2 % 2 * 12 | _ => 15

/-- Whether two jobs overlap: on one layer, in run positions and in components (R125). -/
def State.overlaps (s : State) (d e : List Nat) : Bool :=
  let total := (s.layer (dLayer d)).w * (s.layer (dLayer d)).h
  let a := runSpan d total
  let b := runSpan e total
  dLayer d == dLayer e && (dComps d &&& dComps e) != 0 && decide (a.1 < b.1 + b.2) && decide (b.1 < a.1 + a.2) &&
    decide (0 < a.2) && decide (0 < b.2)

/-- Whether a ready job is blocked (R113, R125). One whose source is its own layer is invalid and is dispatched as such (R100; log
entry 27). -/
def State.jobBlocked (s : State) (k : Nat) : Bool :=
  let d := s.slotDesc k
  (!dVideoClip d && dKind d != 0 && !(s.layerSt (dLayer d)).isOpen) ||
  (dKind d == 3 && bits (dw d 6) 31 28 != dLayer d && !(s.layerSt (bits (dw d 6) 31 28)).closed) ||
  (s.sched.affinity.any fun e => s.overlaps d (s.slotDesc e.slot)) ||
  (s.sched.benches.any fun b => match b.job with | some j => s.overlaps d j.desc | none => false)

/-- The first unblocked ready job of the highest priority level that has one (R126). -/
def State.selectJob (s : State) : Option Nat :=
  (List.range 8).findSome? fun p => s.sched.ready.find? fun k => dPrio (s.slotDesc k) == p && !s.jobBlocked k

/-- Whether a slot's job is invalid when it is dispatched (R97, R100, R101). -/
def State.jobInvalid (s : State) (k : Nat) (d : List Nat) (resumed : Bool) : Bool :=
  (s.blockAddr k).isNone || (!resumed && (s.sched.table.bad.contains k || descInvalid d))

/-- A job of frame `frame` ends with status FAULT (R132): no state block, no completion action; IDLE, or SPENT when REPEAT is 1. No bench
keeps its state block, so the next dispatch loads it from memory. A first run after an ARM that ends so does not count as the first run of
R106, since it wrote no state block (DESIGN CHOICE, log entry 39). -/
def faultSlot (b k : Nat) (rep : Bool) (frame : Nat) (s : State) : State :=
  let x := s.slot k
  let s := s.setSlot k { x with st := if rep then .spent else .idle, status := 5, resume := none, frameLast := frame }
  let s := s.setBench b { s.bench b with cache := (s.bench b).cache.filter (· != k) }
  (s.dropCopies b k).raise (P.BENCH b) 2

/-- An uncorrectable local-store error at a bench: its word is recorded and the bench faults (R132). -/
def benchUe (b word : Nat) (s : State) : State :=
  ((s.wr (A.BENCH_LS_UE_ADDR b) (w32 word)).raise (P.BENCH b) 1).setFault (P.BENCH b) true

/-- Run slot `k` on bench `b` (R98, R126, R131). The dispatch of an invalid job counts as a run of the bench it is given to: DISPATCHED,
AFF_HIT, AFF_MISS and JOBS, and its last bench (DESIGN CHOICE, log entry 39). -/
def startRun (b k : Nat) (d : List Nat) (s : State) : State :=
  let x := s.slot k
  let hit := x.lastBench == some b
  let miss := match x.lastBench with
    | some l => l != b && s.benchUp l && (s.bench l).job.isSome
    | none => false
  let s := s.inc A.SCHED_DISPATCHED
  let s := if hit then s.inc A.SCHED_AFF_HIT else s
  let s := if miss then s.inc A.SCHED_AFF_MISS else s
  let s := s.inc (A.BENCH_JOBS b)
  let s := s.wr (A.BENCH_STAT b) (w32 (hit.toNat * 2 ^ 30 + k))
  let s := s.wr (A.BENCH_CUR_FRAME b) (w32 s.sched.frame)
  let x := { x with lastBench := some b }
  if s.jobInvalid k d x.resume.isSome then
    let s := s.setSlot k { x with st := .idle, status := 3, resume := none }
    (s.inc A.SCHED_INVALID_CNT).raise P.SCHED 3
  else
    let ce := s.detect (P.BENCH b) 0 false
    let s := if ce.1 then (ce.2.inc (A.BENCH_LS_CE_CNT b)).raise (P.BENCH b) 0 else ce.2
    let ue := s.detect (P.BENCH b) 1 false
    let s := ue.2.setSlot k { x with st := .run }
    if ue.1 then
      let w := s.fresh 32768
      faultSlot b k (dRepeat d) s.sched.frame (benchUe b w.1 w.2)
    else
      let cached := (s.bench b).cache.contains k
      let s := if cached then s.inc (A.BENCH_STATE_HIT b) else s.inc (A.BENCH_STATE_MISS b)
      let cache := ((s.bench b).cache.filter (· != k)) ++ [k]
      let cache := if 1024 < cache.length then cache.drop 1 else cache
      let pos := match x.resume with | some r => r.2 | none => 0
      (s.setBench b ⟨some ⟨k, d, s.sched.frame, s.time.ptNow, pos, s.sched.clips⟩, cache⟩).put (A.BENCH_STAT b) F.BENCH_STAT_BUSY 1

/-- Offer bench `b` to the jobs, `fuel` times at most (R126). The flag says whether anything was done. -/
def offerBench (b : Nat) : Nat → Bool → State → Bool × State
  | 0, did, s => (did, s)
  | fuel + 1, did, s =>
    if !s.benchFree b then (did, s)
    else
      match s.sched.affinity.find? fun e => e.bench == b with
      | some e => (true, startRun b e.slot (s.slotDesc e.slot) (s.unlist e.slot))
      | none =>
        match s.sched.affinity.find? fun e => e.ended with
        | some e => (true, startRun b e.slot (s.slotDesc e.slot) (s.unlist e.slot))
        | none =>
          match s.selectJob with
          | none => (did, s)
          | some k =>
            let d := s.slotDesc k
            let s := s.unlist k
            let s := s.setSlot k { s.slot k with pflags := 0 }
            match (s.slot k).lastBench with
            | none => (true, startRun b k d s)
            | some l =>
              if s.benchFree l then (true, startRun l k d s)
              else if !s.benchUp l || s.actF A.SCHED_AFF_WINDOW ⟨15, 0⟩ == 0 || decide (16 ≤ s.sched.affinity.length) then
                (true, startRun b k d s)
              else
                let s := s.setSlot k { s.slot k with st := .affinity }
                offerBench b fuel true { s with sched := { s.sched with affinity := s.sched.affinity ++ [⟨k, l, s.nowNs, false⟩] } }

/-- One pass over the benches in increasing number. -/
def dispatchPass (s : State) : Bool × State :=
  (List.range 16).foldl (fun r b => let o := offerBench b 18 false r.2; (r.1 || o.1, o.2)) (false, s)

/-- Close the layers that are quiet and dispatch, until no bench can be given a job: a layer that closes may free a job that waits
for its source (R113). -/
def dispatchLoop : Nat → State → State
  | 0, s => closeQuiet s
  | fuel + 1, s =>
    let s := closeQuiet s
    if s.schedEn then
      let r := dispatchPass s
      if r.1 then dispatchLoop fuel r.2 else r.2
    else s

/-- What follows any change in the scheduler's cycle: layers that are quiet close, and free benches are given jobs (R123,
R126). -/
def schedKick (s : State) : State :=
  if s.sched.holding || s.sched.applying then s.occSync
  else (dispatchLoop (s.sched.ready.length + s.sched.affinity.length + 1) s).occSync

/-! ### Commands and events of the scheduler -/

/-- Report a slot command to its requester (R134). -/
def slotResult (r : Req) (res k : Nat) (s : State) : State :=
  let x := s.slot k
  let lb := match x.lastBench with | some b => 2 ^ 23 + b * 2 ^ 19 | none => 0
  s.setBank A.SCHED_SLOT_RESULT 0 r (w32 (res * 2 ^ 28 + s.slotCode k * 2 ^ 24 + lb + x.status * 2 ^ 16 + x.pflags % 256 * 2 ^ 8))

/-- SLOT_CMD ARM (R117). -/
def cmdArm (r : Req) (k : Nat) (s : State) : State :=
  let a := armSlot k s
  slotResult r a.1 k (schedKick (evalWaits a.2))

/-- SLOT_CMD CANCEL (R117). -/
def cmdCancel (r : Req) (k : Nat) (s : State) : State := slotResult r 1 k (schedKick (cancelSlot k s))

/-- SLOT_CMD PSET (R119). CANCEL, PSET and PCLR of an EMPTY slot return DONE, and PSET sets its private flags: the manual gives no other
result (DESIGN CHOICE, log entry 39). -/
def cmdPset (r : Req) (k f : Nat) (s : State) : State :=
  slotResult r 1 k (schedKick (evalWaits (s.setSlot k { s.slot k with pflags := (s.slot k).pflags ||| f % 256 })))

/-- SLOT_CMD PCLR (R119). -/
def cmdPclr (r : Req) (k f : Nat) (s : State) : State :=
  slotResult r 1 k (schedKick (evalWaits (s.setSlot k { s.slot k with pflags := (s.slot k).pflags &&& (255 - f % 256) })))

/-- SLOT_CMD QUERY (R134). -/
def cmdSlotQuery (r : Req) (k : Nat) (s : State) : State :=
  slotResult r 1 k (s.wr A.SCHED_SLOT_FRAME (w32 (s.slot k).frameLast))

/-- A write of SLOT_CMD, by its OP (R134). -/
def slotCmd (r : Req) (v : Word) (s : State) : State :=
  let k := fget v ⟨11, 0⟩
  let f := fget v ⟨23, 16⟩
  let forced := s.detect P.SCHED 31 false
  if forced.1 then slotResult r 4 k (forced.2.guard1 P.SCHED 31 0x04 (some 3))
  else match fget v ⟨31, 28⟩ with
  | 1 => cmdArm r k s
  | 2 => cmdCancel r k s
  | 3 => cmdPset r k f s
  | 4 => cmdPclr r k f s
  | 5 => cmdSlotQuery r k s
  | _ => slotResult r 4 k (s.guard1 P.SCHED 31 0x04 (some 3))

/-- A write of GSET (R119). -/
def cmdGset (v : Nat) (s : State) : State := schedKick (evalWaits (s.changeFlags 0 v))

/-- A write of GCLR (R119). -/
def cmdGclr (v : Nat) (s : State) : State := schedKick (evalWaits (s.changeFlags v 0))

/-- A race that cancel has won (R127). -/
def raceWon (s : State) : State := (s.inc A.SCHED_CANCEL_RACE).raise P.SCHED 4

/-- The completion actions of a job (R129). -/
def completionActions (d : List Nat) (s : State) : State :=
  let c := if bits (dw d 4) 23 23 = 1 then 2 ^ bits (dw d 4) 22 17 else 0
  let v := if bits (dw d 4) 30 30 = 1 then 2 ^ bits (dw d 4) 29 24 else 0
  let s := if c = 0 ∧ v = 0 then s else s.changeFlags c v
  if !dNextEn d then s
  else
    let k := dNext d
    let s := if bits (dw d 5) 18 18 = 1 then (armSlot k s).2 else s
    if s.slotEmpty k then s else s.setSlot k { s.slot k with pflags := (s.slot k).pflags ||| bits (dw d 5) 17 10 }

/-- A bench's job finishes for its frame, up to its completion actions (R129). The layer closes if it is quiet before the actions make
other jobs ready (R127). -/
def jobEnds (b : Nat) (s : State) : State :=
  match (s.bench b).job with
  | none => s
  | some j =>
    let r := runJob b j (s.slot j.slot).fresh none false true s
    let s := (r.2.benchIdle b).dropCopies b j.slot
    let s := s.setSlot j.slot { s.slot j.slot with
      st := if dRepeat j.desc then .spent else .done, status := 1, frameLast := j.frame, fresh := false, resume := none }
    completionActions j.desc (closeQuiet s)

/-- A CANCEL of slot `k` meets another event on the slot in the same cycle (R119, R127): cancel wins. A job that
finishes in that cycle has written its cells, takes no completion action, and is CANCELLED (log entry 27). Another job's completion that
meets the CANCEL is taken up to its actions; where they arm the slot or make its job ready, cancel has won a race. -/
def slotRace (r : Req) (k : Nat) (m : Meet) (s : State) : State :=
  match m with
  | .arm q =>
    slotResult q 2 k (raceWon (cmdCancel r k s))
  | .pset q f =>
    let x := s.slot k
    let ready := x.st == .wait && s.schedEn && (s.setSlot k { x with pflags := x.pflags ||| f.toNat }).waitHolds k
    let s := cmdCancel r k s
    if ready then slotResult q 1 k (raceWon s) else cmdPset q k f.toNat s
  | .gset _ f =>
    let ready := (s.slot k).st == .wait && s.schedEn && (s.changeFlags 0 f.toNat).waitHolds k
    let s := cmdGset f.toNat (cmdCancel r k s)
    if ready then raceWon s else s
  | .delay =>
    let due := s.sched.delays.any fun e => e.slot == k && e.tick
    let ready := due && s.schedEn && s.waitHolds k
    let s := cmdCancel r k s
    if ready then raceWon s else s
  | .other b =>
    let t := jobEnds b s
    let armed := decide ((t.slot k).st ≠ (s.slot k).st)
    let ready := (t.slot k).st == .wait && t.schedEn && t.waitHolds k
    let t := slotResult r 1 k (schedKick (evalWaits (cancelSlot k t)))
    if armed || ready then raceWon t else t
  | .finish =>
    match s.benchOf k with
    | none => cmdCancel r k s
    | some b =>
      match (s.bench b).job with
      | none => cmdCancel r k s
      | some j =>
        let t := (runJob b j (s.slot k).fresh none false true s).2
        let t := (t.benchIdle b).dropCopies b k
        let t := t.setSlot k { t.slot k with st := .idle, pflags := 0, status := 4, frameLast := j.frame, fresh := false, resume := none }
        raceWon (slotResult r 1 k (schedKick t))

/-- A SLOT_CMD, GSET or GCLR write: held during the boundary steps, else applied (R128). -/
def schedWrite (w : HeldWrite) (s : State) : State :=
  if w.addr = A.SCHED_SLOT_CMD then slotCmd w.r (w.val.truncate 32) s
  else if w.addr = A.SCHED_GSET_LO then cmdGset w.val.toNat s
  else cmdGclr w.val.toNat s

/-- A SLOT_CMD, GSET or GCLR write arrives. -/
def schedArrive (w : HeldWrite) (s : State) : State :=
  if s.sched.holding then { s with sched := { s.sched with held := s.sched.held ++ [w] } } else schedWrite w s

/-- A bench's job finishes for its frame (R129). -/
def jobCompleteOp (b : Nat) (s : State) : State :=
  if (s.bench b).job.isNone then s else schedKick (evalWaits (jobEnds b s))

/-- The job that bench `b` runs on layer `i` is late: it stops, and one that does not repeat resumes first of all (R124). -/
def lateOn (i : Nat) (s : State) (b : Nat) : State :=
  match (s.bench b).job with
  | none => s
  | some j =>
    if dLayer j.desc = i ∧ !dVideoClip j.desc then
      let rep := dRepeat j.desc
      let r := stopJob b (!rep) true s
      let pos := match r.1 with | some x => x.2 | none => 0
      let t := (r.2.dropCopies b j.slot).inc A.SCHED_LATE_CNT
      let t := t.raise P.SCHED 1
      let x := { t.slot j.slot with status := 2, frameLast := j.frame, fresh := false }
      if rep then t.setSlot j.slot { x with st := .spent, resume := none }
      else
        let t := t.setSlot j.slot { x with st := .ready, resume := some (j.desc, pos) }
        { t with sched := { t.sched with ready := j.slot :: t.sched.ready } }
    else s

/-- A layer's deadline (R123, R124). At the front of a ready list the jobs from AFFINITY stand first, and late jobs come in falling
order of their benches: the manual gives no order among several (DESIGN CHOICE, log entry 39). -/
def layerDeadlineOp (i : Nat) (s : State) : State :=
  if !(s.layerSt i).isOpen then s
  else
    let ready := s.sched.ready.filter fun k => dLayer (s.slotDesc k) == i && !dVideoClip (s.slotDesc k)
    let aff := s.sched.affinity.filter fun e => dLayer (s.slotDesc e.slot) == i && !dVideoClip (s.slotDesc e.slot)
    let n := ready.length + aff.length
    let s := s.add A.SCHED_DEFERRED ⟨31, 0⟩ n
    let s := s.raiseN n P.SCHED 2
    let s := (List.range 16).foldl (lateOn i) s
    let s := aff.foldl (fun t e => t.setSlot e.slot { t.slot e.slot with st := .ready }) s
    let s := { s with sched := { s.sched with
      affinity := s.sched.affinity.filter fun e => !aff.contains e, ready := aff.map (·.slot) ++ s.sched.ready } }
    schedKick (closeLayer true i s)

/-- A tick delay expires once its ticks have been counted (R121); none is counted while EN is 0 (R134). -/
def delayExpireOp (k : Nat) (s : State) : State :=
  let s := countTicks s
  if s.schedEn && s.sched.delays.any fun e => e.slot == k && e.tick && e.left == 0 then
    schedKick (evalWaits ((s.unlist k).setSlot k { s.slot k with st := .wait }))
  else s

/-- A job in AFFINITY reaches the end of its window (R126). -/
def affinityExpireOp (k : Nat) (s : State) : State :=
  schedKick { s with sched := { s.sched with
    affinity := s.sched.affinity.map fun e => if e.slot = k then { e with ended := true } else e } }

/-- A local-store error (R132). -/
def lsErrorOp (b word : Nat) (ue : Bool) (s : State) : State :=
  if !ue then (s.inc (A.BENCH_LS_CE_CNT b)).raise (P.BENCH b) 0
  else
    let s := benchUe b word s
    let r := stopJob b false false s
    match r.1 with
    | some (j, _) => schedKick (faultSlot b j.slot (dRepeat j.desc) j.frame r.2)
    | none => s

/-! ### The table check and the epoch (R97, R118) -/

/-- Check the descriptor table that the sealed epoch names (R97). -/
def tableCheck (s : State) : State :=
  let b := fget (s.pnd A.SCHED_DESC_BUF) ⟨11, 0⟩
  if b = s.actF A.SCHED_DESC_BUF ⟨11, 0⟩ then s
  else
    let n := if b = nullBuf then 0 else min 4096 (s.bufSize b / 64)
    let s := if b != nullBuf && decide (n < 4096) then s.guard1 P.SCHED 29 (openCode A.SCHED_DESC_BUF) none else s
    let d (k : Nat) : List Nat := (List.range 16).map fun i => s.mem32 (s.bufBase b + k * 64 + i * 4)
    let slots := (List.range n).filter fun k => dKind (d k) != 0
    let bad := slots.filter fun k => descInvalid (d k) || (descBufs (d k)).any fun x => s.bufState x == 0 || s.bufState x == 3
    let bufs := ((slots.filter fun k => !bad.contains k).flatMap fun k => descBufs (d k)).eraseDups
    let wins := (slots.filter fun k => decide (40 < bits (dw (d k) 0) 12 7)).length
    let s := (List.replicate wins ()).foldl (fun t _ => t.guard1 P.SCHED 30 0x05 (some 4)) s
    let s := s.release (.desc true)
    let s := bufs.foldl (fun t x => t.hold (.desc true) x) s
    { s with sched := { s.sched with nextTable := some ⟨b, bad, bufs⟩ } }

/-- The buffers the table in force holds. -/
def State.tableBufs (s : State) : List Nat := (s.lease.holds.filter fun h => h.1 == .desc false).map (·.2)

/-- Step 1 of the boundary table (R97, R118, R128): a checked table comes into force with the epoch that names it, and armed slots given
KIND 0 are cancelled. -/
def schedEpoch (s : State) : State :=
  let s := match s.sched.nextTable.filter fun t => t.buf == s.actF A.SCHED_DESC_BUF ⟨11, 0⟩ with
    | none => s
    | some t =>
      let s := s.release (.desc false)
      let holds := s.lease.holds.map (fun (h : HoldTag × Nat) => if h.1 = HoldTag.desc true then (HoldTag.desc false, h.2) else h)
      let s := { s with lease := { s.lease with holds := holds }, sched := { s.sched with table := t, nextTable := none } }
      let s := s.wr A.SCHED_TABLE_CHK
        (w32 ((!t.bad.isEmpty).toNat * 2 ^ 31 + t.bad.length * 2 ^ 16 + t.bad.headD 0))
      s.raiseIf (!t.bad.isEmpty) P.SCHED 6
  (s.sched.slots.map (·.1)).foldl (fun t k =>
    if dKind (t.desc k) = 0 then
      (if (t.slot k).st = SlotSt.idle then t
       else if (t.slot k).st = SlotSt.done then t.setSlot k { t.slot k with st := .idle }
       else cancelSlot k t)
    else t) s

/-! ### Timecode (R130) -/

/-- Two BCD digits. -/
def bcd2 (n : Nat) : Nat := n / 16 % 16 * 10 + n % 16

/-- Whether a BCD time hh:mm:ss:ff is valid, with ff below `fps`. -/
def bcdOk (w : Word) (fps : Nat) : Bool :=
  let n := w.toNat
  (List.range 8).all (fun k => decide (n / 16 ^ k % 16 < 10)) && decide (bcd2 (n / 2 ^ 24) < 24) &&
    decide (bcd2 (n / 2 ^ 16) < 60) && decide (bcd2 (n / 2 ^ 8) < 60) && decide (bcd2 n < fps)

/-- A BCD time as a frame count at a rate code (R130); drop-frame counting follows SMPTE ST 12-1. -/
def tcFrames (w : Word) (rate : Nat) : Nat :=
  let n := w.toNat
  let mins := bcd2 (n / 2 ^ 24) * 60 + bcd2 (n / 2 ^ 16)
  let secs := mins * 60 + bcd2 (n / 2 ^ 8)
  match rate with
  | 0 => secs * 24 + bcd2 n
  | 1 => secs * 25 + bcd2 n
  | 2 => secs * 30 + bcd2 n - 2 * (mins - mins / 10)
  | _ => secs * 30 + bcd2 n

/-- The frames of one day at a rate code. -/
def tcDay (rate : Nat) : Nat :=
  match rate with | 0 => 24 * 86400 | 1 => 25 * 86400 | 2 => 2589408 | _ => 30 * 86400

/-- Whether an entry with value `t` fires, `prev` and `now` being TC(N − 1) and TC(N) (R130): values are compared as frame counts. -/
def tcFires (rate jump : Nat) (prev : Option Word) (now t : Word) : Bool :=
  match prev with
  | none => tcFrames t rate == tcFrames now rate
  | some p =>
    let day := tcDay rate
    let a := tcFrames p rate
    let step := (tcFrames now rate + day - a) % day
    let off := (tcFrames t rate + day - a) % day
    step != 0 && (off == step || (decide (1 ≤ step) && decide (step ≤ jump) && decide (0 < off) && decide (off < step)))

/-- Step 4 of the boundary table: timecode entries fire in entry order (R130). -/
def tcStep (s : State) : State :=
  match s.sched.tcNow with
  | none => s
  | some now =>
    if !s.schedEn then s
    else
      let ctl := s.act A.SCHED_TC_CTRL
      let prev := s.sched.tcPrev
      let ks := s.rf.active.filterMap fun x =>
        if A.SCHED_TC_ACT 0 ≤ x.1 ∧ x.1 < A.SCHED_TC_ACT 256 ∧ x.1 % 8 = 4 ∧ bitOf x.2 31 then some ((x.1 - A.SCHED_TC_ACT 0) / 8)
        else none
      ks.foldl (fun t k =>
        if tcFires (fget ctl ⟨29, 28⟩) (fget ctl ⟨7, 0⟩) prev now (t.act (A.SCHED_TC_VAL k)) then
          let a := t.act (A.SCHED_TC_ACT k)
          let t := { t with sched := { t.sched with tcFired := t.sched.tcFired ||| 2 ^ (k / 4) } }
          let t := if bitOf a 30 then t.changeFlags 0 (2 ^ fget a ⟨17, 12⟩) else (armSlot (fget a ⟨11, 0⟩) t).2
          t.raise P.SCHED 5
        else t) s

/-! ### The boundary table (R128) -/

/-- Steps 2 to 5: SPENT jobs go to WAIT, frame delays advance, timecode fires, and wait conditions are evaluated. SPENT jobs go to WAIT
while EN is 0 too: of the slot states that R134 keeps then, it names none that step 2 would not still take on (DESIGN CHOICE, log entry
39). -/
def schedSteps (s : State) : State :=
  let s := (s.sched.slots.filter fun x => x.2.st == .spent).foldl (fun t x => t.setSlot x.1 { t.slot x.1 with st := .wait }) s
  let s := if s.schedEn then
      let due := s.sched.delays.filter fun e => !e.tick && decide (e.left ≤ 1)
      let s := { s with sched := { s.sched with
        delays := (s.sched.delays.filter fun e => e.tick || decide (1 < e.left)).map fun e =>
          if e.tick then e else { e with left := e.left - 1 } } }
      due.foldl (fun t e => t.setSlot e.slot { t.slot e.slot with st := .wait }) s
    else s
  let s := tcStep s
  evalWaits { s with sched := { s.sched with holding := false, applying := true } }

/-- Apply writes in order of arrival. Dispatch begins only after the last of them, at step 6 (R128). -/
def applyHeld : List HeldWrite → State → State
  | [], s => s
  | w :: ws, s => applyHeld ws (schedWrite w s)

/-- Step 6: every layer Marver has released opens for the frame (R122). -/
def openLayers (s : State) : State :=
  (List.range 16).foldl (fun t i =>
    let l := t.layerSt i
    if l.released && !l.opened then
      (t.setLayer i ⟨true, false, false, true⟩).put (A.SCHED_LAYER_STAT i) F.SCHED_LAYER_STAT_OPEN 1
    else t) s

/-- Console FLAGS due at this boundary join the held writes: a flag in both SET and CLEAR is set, without being cleared first (R155). -/
def consoleDue (s : State) : State :=
  { s with
    ingest := { s.ingest with conDue := [] }
    sched := { s.sched with held := s.sched.held ++ s.ingest.conDue.flatMap fun x =>
      [⟨.gaffer, A.SCHED_GCLR_LO, x.2 &&& ~~~x.1⟩, ⟨.gaffer, A.SCHED_GSET_LO, x.1⟩] } }

/-- The boundary steps of the scheduler from step 2 on: the steps, the held writes, and the opening of the layers (R128). -/
def heldWritesApplyOp (s : State) : State :=
  if !s.sched.holding then s
  else
    let s := schedSteps (consoleDue s)
    let held := s.sched.held
    let s := applyHeld held { s with sched := { s.sched with held := [] } }
    schedKick (openLayers { s with sched := { s.sched with applying := false } })

/-- CONSOLE_FLAGS_APPLY: console FLAGS due at this boundary are applied with the held writes, once (R155). -/
def consoleFlagsOp (s : State) : State := if s.sched.holding then consoleDue s else s

/-- What the scheduler does when boundary N is marked: boundary steps not yet taken are taken, its writes are held from now on,
and TC(N) is taken (R128, R130). `tc` is the value of the timecode source `src`, none while it has timed out or none is selected; a source
just selected has no TC(N − 1). -/
def schedBoundary (frame : Nat) (tc : Option Word) (src : Nat) (s : State) : State :=
  let s := countTicks (heldWritesApplyOp s)
  let s := { s with
    ingest := { s.ingest with conDue := s.ingest.conDue ++ s.ingest.conFlags, conFlags := [] }
    sched := { s.sched with
      holding := true, frame := frame, clips := [], tcFired := 0, tcPrev := if src = s.sched.tcSrc then s.sched.tcNow else none, tcNow := tc, tcSrc := src,
      layers := s.sched.layers.map fun l => { l with isOpen := false, closed := true, released := true, opened := false } } }
  let s := (List.range 16).foldl (fun t i => t.put (A.SCHED_LAYER_STAT i) F.SCHED_LAYER_STAT_OPEN 0) s
  match tc with
  | some w => s.wr A.SCHED_TC_NOW w
  | none => s

end Sys2Proof.Machine
end

