-- ==== Sys2Proof/Machine/Marver.lean ====
section
/-!
DEFINITION. The Marver compositor (06_marver.md, R167 to R185): the stacking order, coverage, blending and merging, masks,
passes and the base writer, shedding, and the cut.
-/
namespace Sys2Proof.Machine

/-- A field of layer `i`'s LCFG under the active set. -/
def State.lcfg (s : State) (i : Nat) (f : Fld) : Nat := s.actF (A.MARVER_LCFG i) f

/-- The base of the parison half of frame `n` (R79, R80). -/
def parisonBase (n : Nat) : Nat := if n % 2 = 0 then 0x20000000 else 0x28000000

/-- Cells of a layer's region in use: its cell-layer operations (R169). -/
def Region.cells (g : Region) : Nat := g.w * g.h

/-- Whether a region contains a cell. -/
def Region.has (g : Region) (c : Nat) : Bool := (g.addr c).isSome

/-- The cells of the union of regions, in increasing cell index. -/
def unionCells (gs : List Region) : List Nat :=
  let gs := gs.filter fun g => g.cells != 0
  let y0 := gs.foldl (fun m g => min m g.y0) 4096
  let y1 := gs.foldl (fun m g => max m (g.y0 + g.h)) 0
  let x0 := gs.foldl (fun m g => min m g.x0) 4096
  let x1 := gs.foldl (fun m g => max m (g.x0 + g.w)) 0
  (List.range (y1 - y0)).flatMap fun y =>
    ((List.range (x1 - x0)).map fun x => (y0 + y) * 4096 + (x0 + x)).filter fun c => gs.any fun g => g.has c

/-- The lowest cell index of a region. -/
def Region.first (g : Region) : Nat := g.y0 * 4096 + g.x0

/-! ### Reading cells (R66) -/

/-- X, Y and Z of a cell read through R66, with the substitutions recorded; an armed SUBST injection makes X count as a NaN
(R455). -/
def State.readCell (s : State) (v : Nat) : List Rat × State :=
  let inj := s.injArmed P.RASTER 1
  let s := if inj then s.injTake P.RASTER 1 else s
  let v := if inj then v / 65536 * 65536 + 0x7E00 else v
  let r := (List.range 3).map fun k => readXyz (comp16 v k)
  (r.map (·.1), s.subst (r.filter (·.2)).length)

/-! ### Masks and weights (R170, R175) -/

/-- The mask value M of layer `i` at cell `c`, with any substitution of a LUMA mask recorded (R175). -/
def maskValue (i c : Nat) (s : State) : Nat × State :=
  if s.lcfg i F.MARVER_LCFG_MASK_EN = 0 then (65535, s)
  else
    let m := s.lcfg i F.MARVER_LCFG_MASK_LAYER
    let a := if s.lcfg m F.MARVER_LCFG_EN = 1 then (s.layer m).addr c else none
    let r : Nat × State := match a with
      | none => (if s.lcfg i F.MARVER_LCFG_MASK_OUT = 1 then 65535 else 0, s)
      | some a =>
        let v := s.mem64 a
        if s.lcfg i F.MARVER_LCFG_MASK_SRC = 0 then (comp16 v 3, s)
        else
          let y := readXyz (comp16 v 1)
          ((roundEven (65535 * min y.1 1)).toNat, s.subst y.2.toNat)
    (if s.lcfg i F.MARVER_LCFG_MASK_INV = 1 then 65535 - r.1 else r.1, r.2)

/-- The coverage of a LIGHT cell: exact, rounded once to binary32 (R170). -/
def coverage (alpha opacity m : Nat) : Rat := rnd32 (((alpha * opacity * m : Nat) : Rat) / ((65535 ^ 3 : Nat) : Rat))

/-- The gate of a RAW cell, exact (R170). -/
def gate (opacity m : Nat) : Rat := ((opacity * m : Nat) : Rat) / ((65535 ^ 2 : Nat) : Rat)

/-! ### Blending and merging (R171 to R174) -/

/-- The blend modes, binary32 at each step (R171). -/
def blend (mode : Nat) (cd cs : List Rat) (a : Rat) : List Rat :=
  let each (f : Rat → Rat → Rat) : List Rat := List.zipWith f cd cs
  let cs' := cs.map fun c => rnd32 (c * a)
  match mode with
  | 0 => each fun d c => rnd32 (d + rnd32 (rnd32 (c - d) * a))
  | 1 => each fun d c => rnd32 (d + rnd32 (c * a))
  | 2 => each fun d c => rnd32 (d * rnd32 (1 + rnd32 (rnd32 (c - 1) * a)))
  | 3 => if cd.getD 1 0 < cs'.getD 1 0 then cs' else cd
  | 4 => if 0 < a ∧ cs'.getD 1 0 < cd.getD 1 0 then cs' else cd
  | _ => if 0 < a then cs else cd

/-- The result alpha (R173): every step before the final rounding, the product by 65,535 among them, is in binary32. -/
def blendAlpha (ad : Nat) (a : Rat) : Nat :=
  let d := rnd32 ((ad : Rat) / 65535)
  (roundEven (rnd32 (65535 * rnd32 (d + rnd32 (rnd32 (1 - d) * a))))).toNat

/-- One merge rule on unsigned values (R174). -/
def mergeRule (rule cd cs : Nat) (g : Rat) : Nat :=
  match rule with
  | 0 => (roundEven ((cd : Rat) + ((cs : Rat) - cd) * g)).toNat
  | 1 => max cd (roundEven ((cs : Rat) * g)).toNat
  | 2 => if 0 < g then min cd cs else cd
  | _ => cd

/-- Merge a RAW cell: four 16-bit components (RAW4) or two 32-bit words (RAW2W, by RAW0 and RAW2). -/
def mergeRaw (wide : Bool) (rules cd cs : Nat) (g : Rat) : Nat :=
  if wide then
    mergeRule (rules % 4) (cd % 2 ^ 32) (cs % 2 ^ 32) g + mergeRule (rules / 16 % 4) (cd / 2 ^ 32) (cs / 2 ^ 32) g * 2 ^ 32
  else (List.range 4).foldl (fun v k => v + mergeRule (rules / 4 ^ k % 4) (comp16 cd k) (comp16 cs k) g * 2 ^ (16 * k)) 0

/-- A cell of the parison being formed: its value and how many components were limited (R172). -/
structure CellAcc where
  val : Nat
  limits : Nat
  s : State

/-- Apply layer `i` to cell `c` of format `fmt`. -/
def applyLayer (fmt c i : Nat) (a : CellAcc) : CellAcc :=
  match (a.s.layer i).addr c with
  | none => a
  | some ad =>
    let v := a.s.mem64 ad
    let m := maskValue i c a.s
    let o := m.2.actF (A.MARVER_OPACITY i) F.MARVER_OPACITY_O
    if fmt = 0 then
      let cs := m.2.readCell v
      let cov := coverage (comp16 v 3) o m.1
      let cd := (List.range 3).map fun k => (readXyz (comp16 a.val k)).1
      let r := blend (cs.2.lcfg i F.MARVER_LCFG_MODE) cd cs.1 cov
      ⟨cellOf (enc16 (r.getD 0 0)) (enc16 (r.getD 1 0)) (enc16 (r.getD 2 0)) (blendAlpha (comp16 a.val 3) cov),
        a.limits + (r.filter fun x => (storeLight x).2).length, cs.2⟩
    else
      ⟨mergeRaw (fmt == 2) (m.2.act (A.MARVER_LCFG i)).toNat a.val v (gate o m.1), a.limits, m.2⟩

/-- The format of a cell of the map set in force; an unowned cell counts as LIGHT (R176). -/
def CellEntry.comp (e : CellEntry) : Nat := if e.owned then e.fmt else 0

/-- The base cell for a format (R176). -/
def State.baseCell (s : State) (fmt : Nat) : Nat := if fmt = 0 then 0 else s.act64 A.MARVER_BASE_RAW_LO

/-- Record components limited to 65,504 (R172). -/
def limitRecord (n : Nat) (s : State) : State :=
  if n = 0 then s
  else
    let s := (s.add A.MARVER_CLAMP_CNT ⟨31, 0⟩ n).raiseN n P.MARVER 4
    if s.marver.limited then s
    else { s with marver := { s.marver with limited := true } }.guard1 P.MARVER 30 0x52 (some 2)

/-- A pass writes one cell (R176, R178): nothing where its format is COMPANION. -/
def passCell (half : Nat) (layers earlier : List Nat) (c : Nat) (s : State) : State :=
  let fmt := (s.cellEntry (s.mapsOf (s.act A.MAPS_MAP_SET)) c).comp
  if fmt = 3 then s
  else
    let start := if earlier.any fun i => (s.layer i).has c then s.mem64 (half + c * 8) else s.baseCell fmt
    let r := layers.foldl (fun a i => applyLayer fmt c i a) ⟨start, 0, s⟩
    limitRecord r.limits (r.s.memW (half + c * 8) 8 r.val)

/-! ### The frame (R177 to R182) -/

/-- Marver's capacity for a frame (R180): f in 0.1 MHz and the period in ns. -/
def marverCap (f period limit : Nat) : Nat := 8 * (f * 100000) * period * limit / (256 * 10 ^ 9)

/-- Sort layers by increasing PRIO, then layer number (R168). -/
def State.byPrio (s : State) (ls : List Nat) : List Nat :=
  (List.range 16).flatMap fun p => ls.filter fun i => s.lcfg i F.MARVER_LCFG_PRIO == p

/-- Remove sheddable layers from the front until the load fits (R180): the layers shed. -/
def shedLayers (ops : Nat → Nat) (cap : Nat) : List Nat → Nat → List Nat
  | [], _ => []
  | i :: ls, load => if load ≤ cap then [] else i :: shedLayers ops cap ls (load - ops i)

/-- Whether a layer of the stacking order or an enabled shed layer reads layer `i` in frame N: itself, or as a mask (R179). -/
def State.layerReaders (s : State) (i : Nat) : List Nat :=
  s.marver.order.filter fun j =>
    j == i || (s.lcfg j F.MARVER_LCFG_MASK_EN == 1 && s.lcfg j F.MARVER_LCFG_MASK_LAYER == i && s.lcfg i F.MARVER_LCFG_EN == 1)

/-- Release every closed layer whose last read for the frame has been made (R179). -/
def marverRelease (s : State) : State :=
  if !s.marver.begun then s
  else
    (List.range 16).foldl (fun t i =>
      let l := t.layerSt i
      if l.closed && !l.released && (t.layerReaders i).all fun j => t.marver.applied.any fun p => p.1 == j then
        t.setLayer i { l with released := true }
      else t) s

/-- Step 1 of R177: the stacking order, the load, the capacity and planned shedding. -/
def marverBegin (s : State) : State :=
  if s.marver.begun then s
  else
    let en := s.actF A.MARVER_CTRL F.MARVER_CTRL_EN == 1
    let stack := if en then s.byPrio ((List.range 16).filter fun i =>
      s.lcfg i F.MARVER_LCFG_EN == 1 && s.lcfg i F.MARVER_LCFG_MASK_ONLY == 0) else []
    let ops (i : Nat) : Nat := (s.layer i).cells
    let load := stack.foldl (fun n i => n + ops i) 0
    let cap := marverCap (s.get A.LEHR_FREQ F.LEHR_FREQ_BENCH) s.time.period (s.actF A.MARVER_CTRL F.MARVER_CTRL_PLAN_LIMIT)
    let shed := shedLayers ops cap (stack.filter fun i => s.lcfg i F.MARVER_LCFG_SHED_EN == 1) load
    let order := stack.filter fun i => !shed.contains i
    let left := order.foldl (fun n i => n + ops i) 0
    let s := { s with marver := ⟨s.sched.frame, true, true, order, shed, [], 0, false, none, false, s.time.boundary, s.time.boundary⟩ }
    let s := s.put A.MARVER_STAT F.MARVER_STAT_BUSY 1
    let s := s.put A.MARVER_STAT F.MARVER_STAT_STACK_N order.length
    let s := s.put A.MARVER_SHED F.MARVER_SHED_SHED_MASK (shed.foldl (fun m i => m + 2 ^ i) 0)
    let s := s.wr A.MARVER_LOAD (w32 load)
    let s := s.wr A.MARVER_CAP (w32 (min cap (2 ^ 32 - 1)))
    let s := s.wr64 A.MARVER_STACK_LO (order.zipIdx.foldl (fun m x => m + x.1 * 16 ^ x.2) 0)
    let s := (List.range 16).foldl (fun t i =>
      (t.put (A.MARVER_LSTAT i) F.MARVER_LSTAT_SHED (shed.contains i).toNat).put (A.MARVER_LSTAT i) F.MARVER_LSTAT_OPS
        (if order.contains i then ops i else 0)) s
    let s := (s.add A.MARVER_SHED_CNT ⟨31, 0⟩ shed.length).raiseIf (!shed.isEmpty) P.MARVER 2
    marverRelease (s.raiseIf (decide (cap < left)) P.MARVER 3)

/-- The end of a frame's work: STAT and LSTAT report what was applied (R184, R185). -/
def marverReport (cut : Bool) (s : State) : State :=
  let m := s.marver
  let done (i : Nat) : Bool := m.applied.any fun p => p.1 == i
  let s := s.wr A.MARVER_STAT (w32 (cut.toNat * 2 ^ 30 + min m.passes 16 * 2 ^ 24 + m.order.length * 2 ^ 16 +
    m.applied.foldl (fun n p => n + 2 ^ p.1) 0))
  let s := (List.range 16).foldl (fun t i =>
    let t := t.put (A.MARVER_LSTAT i) F.MARVER_LSTAT_APPLIED (done i).toNat
    let t := t.put (A.MARVER_LSTAT i) F.MARVER_LSTAT_PASS (((m.applied.find? fun p => p.1 == i).map (·.2)).getD 0)
    if cut then t.put (A.MARVER_LSTAT i) F.MARVER_LSTAT_CUT (m.order.contains i && !done i).toNat else t) s
  ({ s with marver := { s.marver with busy := false, pass := none } }).setFault P.MARVER cut

/-- Step 5 of R177: the frame is complete once every layer is applied and the base writer has finished. -/
def marverFinish (s : State) : State :=
  let m := s.marver
  if m.busy && m.baseDone && m.pass.isNone && m.order.length == m.applied.length then
    let s := marverReport false s
    (s.wr A.MARVER_DONE_US (w32 (min 65535 ((m.doneAt - m.start) / 1000)))).raise P.MARVER 0
  else s

/-- Some of the frame's work ended at `t` (ns). -/
def workEnded (t : Nat) (s : State) : State := { s with marver := { s.marver with doneAt := max s.marver.doneAt t } }

/-- The cells whose cell-map entry's upper byte is listed in memory: every other one is unowned (R73). -/
def State.mappedCells (s : State) (m : Option (Nat × Nat)) : List Nat :=
  match m with
  | none => []
  | some b => s.mem.filterMap fun x =>
      if b.2 ≤ x.1 ∧ x.1 < b.2 + 0x4000000 ∧ (x.1 - b.2) % 4 = 3 then some ((x.1 - b.2) / 4) else none

/-- The base writer writes its cells (R176, R177): those outside the stack regions and not COMPANION; all of them, or the first
`n` in increasing cell index. -/
def baseWrite (n : Option Nat) (s : State) : State :=
  let half := parisonBase s.marver.frame
  let gs := s.marver.order.map s.layer
  let u := match n with | some _ => unionCells gs | none => []
  let maps := s.mapsOf (s.act A.MAPS_MAP_SET)
  let mine (c : Nat) : Bool := !gs.any (fun g => g.has c) &&
    (match n with | some k => decide (c - (u.filter (· < c)).length < k) | none => true) && (s.cellEntry maps c).comp != 3
  let t := { s with mem := s.mem.filter fun x => !(decide (half ≤ x.1) && decide (x.1 < half + 0x8000000) && mine ((x.1 - half) / 8)) }
  let raw := s.act64 A.MARVER_BASE_RAW_LO
  if raw = 0 then t
  else
    (s.mappedCells maps).foldl (fun t c =>
      let f := (s.cellEntry maps c).comp
      if (f == 1 || f == 2) && mine c then t.memW (half + c * 8) 8 raw else t) t

/-- The base writer of the frame in progress finishes at `t` ns (R177 step 2). -/
def baseWriterEnds (t : Nat) (s : State) : State :=
  if s.marver.busy && !s.marver.baseDone then
    let s := workEnded t (baseWrite none s)
    marverFinish { s with marver := { s.marver with baseDone := true } }
  else s

/-- The base writer finishes now. -/
def baseWriterDoneOp (s : State) : State := baseWriterEnds s.nowNs s

/-- Whether a layer is ready: it and its mask layer have closed (R178). -/
def State.layerReady (s : State) (i : Nat) : Bool :=
  (s.layerSt i).closed && (s.lcfg i F.MARVER_LCFG_MASK_EN == 0 || (s.layerSt (s.lcfg i F.MARVER_LCFG_MASK_LAYER)).closed)

/-- The layers not yet applied, from the lowest. -/
def State.unapplied (s : State) : List Nat := s.marver.order.filter fun i => !s.marver.applied.any fun p => p.1 == i

/-- A pass starts (R178): with none running, over the lowest unapplied layers that are ready. -/
def passStartOp (s : State) : State :=
  let ls := s.unapplied.takeWhile s.layerReady
  if s.marver.busy && s.marver.pass.isNone && !ls.isEmpty then
    { s with marver := { s.marver with pass := some ⟨ls, s.nowNs⟩, passes := s.marver.passes + 1 } }
  else s

/-- The work of a pass at the cells `cs`. -/
def passWork (p : Pass) (cs : List Nat) (s : State) : State :=
  let half := parisonBase s.marver.frame
  let earlier := s.marver.applied.map (·.1)
  cs.foldl (fun t c => passCell half p.layers earlier c t) s

/-- The running pass ends at `t` ns (R178, R179). -/
def passEnds (t : Nat) (s : State) : State :=
  match s.marver.pass with
  | none => s
  | some p =>
    let s := workEnded t (engineRead (s.layer (p.layers.headD 0)).base (passWork p (unionCells (p.layers.map s.layer))) s)
    let s := s.add64 A.MARVER_OPS_LO (p.layers.foldl (fun n i => n + (s.layer i).cells) 0)
    let s := { s with marver := { s.marver with
      pass := none, applied := s.marver.applied ++ p.layers.map fun i => (i, s.marver.passes - 1) } }
    marverFinish (marverRelease s)

/-- The running pass ends now. -/
def passEndOp (s : State) : State := passEnds s.nowNs s

/-- How many cells of a walk are finished within `ops` operations (R181), each cell taking one operation per layer. -/
def doneCells (gs : List Region) : List Nat → Nat → List Nat
  | [], _ => []
  | c :: cs, ops =>
    let n := (gs.filter fun g => g.has c).length
    if n ≤ ops then c :: doneCells gs cs (ops - n) else []

/-- BENCHCLK cycles since a time (log entry 13). -/
def State.benchCycles (s : State) (since : Nat) : Nat := (s.nowNs - since) * s.get A.LEHR_FREQ F.LEHR_FREQ_BENCH / 10000

/-- When a number of BENCHCLK cycles from a time on has passed, ns (log entry 13). -/
def State.afterCycles (s : State) (since cycles : Nat) : Nat := since + cycles * 10000 / s.get A.LEHR_FREQ F.LEHR_FREQ_BENCH

/-- Marver's frame is cut (R181, R182). -/
def marverCutNow (s : State) : State :=
  let s := if s.marver.baseDone then s else baseWrite (some (s.benchCycles s.marver.start * 32)) s
  let left := s.unapplied
  let r : Nat × State := match s.marver.pass with
    | some p =>
      let gs := p.layers.map s.layer
      let cs := unionCells gs
      let ops := (s.benchCycles p.start + 1) * 8
      let fin := doneCells gs cs ops
      ((cs.drop fin.length).headD 0, (engineRead (s.layer (p.layers.headD 0)).base (passWork p fin) s).add64 A.MARVER_OPS_LO ops)
    | none =>
      match left.head? with
      | some i => if (s.layer i).cells = 0 then s.fresh (2 ^ 24) else ((s.layer i).first, s)
      | none => s.fresh (2 ^ 24)
  let s := r.2.wr A.MARVER_STOP_CELL (w32 r.1)
  let s := s.put A.MARVER_SHED F.MARVER_SHED_CUT_MASK (left.foldl (fun m i => m + 2 ^ i) 0)
  let s := marverReport true s
  let s := s.wr A.MARVER_DONE_US (w32 65535)
  let s := (s.inc A.MARVER_CUT_CNT).raise P.MARVER 1
  (List.range 16).foldl (fun t i => t.setLayer i { t.layerSt i with released := true }) s

/-- Boundary N + 1 for Marver (R181): a pass and a base writer whose cycles have all passed have ended; a frame still incomplete
is cut. The next frame's step 1 is to come. -/
def marverBoundary (s : State) : State :=
  let base := 16777216 - (unionCells (s.marver.order.map s.layer)).length
  let s := if s.marver.busy && !s.marver.baseDone && decide (base ≤ s.benchCycles s.marver.start * 32) then
      baseWriterEnds (s.afterCycles s.marver.start (base / 32)) s
    else s
  let s := match s.marver.pass with
    | some p =>
      let ops := p.layers.foldl (fun n i => n + (s.layer i).cells) 0
      if ops ≤ (s.benchCycles p.start + 1) * 8 then passEnds (s.afterCycles p.start (ops / 8)) s else s
    | none => s
  let s := if s.marver.busy then marverCutNow s else s
  { s with marver := { s.marver with begun := false } }

/-- Marver is reset (R479): a frame in progress is cut as at a boundary, and its state is that after reset. -/
def marverAbort (s : State) : State :=
  let s := if s.marver.busy then marverCutNow s else s
  { s with marver := { s.marver with busy := false, order := [], shed := [], applied := [], passes := 0, pass := none } }

end Sys2Proof.Machine
end

