-- ==== Sys2Proof/Machine/LinkMap.lean ====
section
/-!
DEFINITION. What the solver and the scan engines read of the maps: link maps (R220, R221), a fixture's cells (R71, R73), and
the engines counted as enabled (R218, R222).
-/
namespace Sys2Proof.Machine

/-- A field of an RWS register read by `rd`. -/
def fldBy (rd : Nat → Word) (a : Nat) (f : Fld) : Nat := fget (rd a) f

/-- The entries in use of a link's map, and whether they were clipped (R220, R78). -/
def State.linkEntries (s : State) (rd : Nat → Word) (e j : Nat) : List Nat × Bool :=
  let b := fldBy rd (A.SCAN_LMAP_BUF e) ⟨11, 0⟩
  let n := fldBy rd (A.SCAN_LMAP_LEN e j) F.SCAN_LMAP_LEN_LEN
  let fit := if b = nullBuf then 0 else min n ((s.bufSize b - j * 8192) / 2)
  ((List.range fit).map fun i => s.mem16 (s.bufBase b + j * 8192 + i * 2) % 4096, decide (fit < n))

/-- The cells a fixture owns, in order, with their formats (R71, R73). -/
def State.fixCells (s : State) (m : Option (Nat × Nat)) (f : Nat) : List (Nat × Nat) :=
  (s.fixOf m f).cells.filterMap fun c =>
    let e := s.cellEntry m c
    if e.owned && e.owner == f then some (c, e.fmt) else none

/-- The fixtures a link's walk sends, in map order: named once, and owning a cell; with the number of entries skipped (R221). -/
def State.linkFixtures (s : State) (rd : Nat → Word) (e j : Nat) : List Nat × Nat :=
  let m := s.mapsOf (rd A.MAPS_MAP_SET)
  let ids := (s.linkEntries rd e j).1.map fun i => (8 * e + j) * 4096 + i
  let keep := ids.eraseDups.filter fun f => !(s.fixCells m f).isEmpty
  (keep, ids.length - keep.length)

/-- Whether an engine counts as enabled for the solver (R186, R222, R427). -/
def State.engineServed (s : State) (rd : Nat → Word) (e : Nat) : Bool :=
  fldBy rd (A.SCAN_CTRL e) F.SCAN_CTRL_EN == 1 && fldBy rd (A.SCAN_CTRL e) F.SCAN_CTRL_SRC == 0 && !s.offline (P.SCAN e)

/-- Whether LOCK is set for the pair of an engine, and whether the lock holds (R218). -/
def State.lockOf (_ : State) (rd : Nat → Word) (e : Nat) : Bool × Bool :=
  let c (i : Nat) (f : Fld) : Nat := fldBy rd (A.SCAN_CTRL i) f
  let a := e / 2 * 2
  let want := c a F.SCAN_CTRL_LOCK == 1
  (want, want && c a F.SCAN_CTRL_EN == 1 && c (a + 1) F.SCAN_CTRL_EN == 1 && c a F.SCAN_CTRL_CLASS == 0 &&
    c (a + 1) F.SCAN_CTRL_CLASS == 0 && c a F.SCAN_CTRL_SRC == c (a + 1) F.SCAN_CTRL_SRC)

/-- Insert by a key, after equal keys. -/
def insertBy {α : Type} (k : α → Nat) (x : α) : List α → List α
  | [] => [x]
  | y :: ys => if k x < k y then x :: y :: ys else y :: insertBy k x ys

/-- Sort by a key, keeping the order of equal keys. -/
def sortBy {α : Type} (k : α → Nat) (l : List α) : List α := l.foldl (fun acc x => insertBy k x acc) []

end Sys2Proof.Machine
end

