-- ==== Sys2Proof/Machine/Colour.lean ====
section
/-!
DEFINITION. The colour mathematics of the solver (07_colour_solver.md, R189 to R201): binary32 arithmetic, emitter tables, the
hull, the gamut rules, base_solve, and hybrid dimming. Where the manual gives an operation and not the order of its steps, the
order is a DESIGN CHOICE (log entry 15).
-/
namespace Sys2Proof.Machine

/-! ### binary32 with NaN and infinity -/

/-- A binary32 value. A zero has no sign here: it counts as +0 (R481, log entry 15). -/
inductive B32 where
  | nan
  | inf (neg : Bool)
  | fin (x : Rat)
deriving DecidableEq, Repr

/-- A binary32 constant. -/
def lit (x : Rat) : B32 := .fin x

/-- Round to binary32. -/
def b32 (x : Rat) : B32 :=
  let r := rnd32 x
  if max32 < r then .inf false else if r < -max32 then .inf true else .fin r

/-- A stored binary16 or binary32 number as a binary32 value. -/
def B32.ofFlt : Flt → B32
  | .nan => .nan
  | .inf n => .inf n
  | .fin x => .fin x

/-- The value with its sign turned. -/
def B32.neg : B32 → B32
  | .nan => .nan
  | .inf n => .inf !n
  | .fin x => .fin (-x)

/-- Whether the sign is negative. -/
def B32.isNeg : B32 → Bool
  | .nan => false
  | .inf n => n
  | .fin x => decide (x < 0)

/-- Whether the value is a finite number. -/
def B32.isFin : B32 → Bool
  | .fin _ => true
  | _ => false

/-- Sum. -/
def B32.add : B32 → B32 → B32
  | .fin x, .fin y => b32 (x + y)
  | .inf m, .inf n => if m = n then .inf m else .nan
  | .inf m, .fin _ => .inf m
  | .fin _, .inf n => .inf n
  | _, _ => .nan

/-- Difference. -/
def B32.sub (a b : B32) : B32 := a.add b.neg

/-- Product; 0 × ∞ is a NaN. -/
def B32.mul (a b : B32) : B32 :=
  match a, b with
  | .fin x, .fin y => b32 (x * y)
  | .nan, _ => .nan
  | _, .nan => .nan
  | _, _ => if a = .fin 0 ∨ b = .fin 0 then .nan else .inf (a.isNeg != b.isNeg)

/-- Quotient; 0 / 0 and ∞ / ∞ are NaNs, and any other number over 0 is infinite. -/
def B32.div (a b : B32) : B32 :=
  match a, b with
  | .fin x, .fin y => if y ≠ 0 then b32 (x / y) else if x = 0 then .nan else .inf (decide (x < 0))
  | .fin _, .inf _ => .fin 0
  | .inf m, .fin y => .inf (m != decide (y < 0))
  | _, _ => .nan

/-- The value in a comparison: a NaN counts as 0 (R195). -/
def B32.seen : B32 → B32
  | .nan => .fin 0
  | a => a

/-- Whether one value is below another in a comparison. -/
def B32.lt (a b : B32) : Bool :=
  match a.seen, b.seen with
  | .fin x, .fin y => decide (x < y)
  | .inf m, .inf n => m && !n
  | .inf m, _ => m
  | _, .inf n => !n
  | _, _ => false

/-- The larger of two values as they are compared. -/
def B32.max (a b : B32) : B32 := if a.lt b then b.seen else a.seen

/-- The smaller of two values as they are compared. -/
def B32.min (a b : B32) : B32 := if b.lt a then b.seen else a.seen

/-- Clamp between two numbers, a NaN counting as 0 (R195). -/
def B32.clamp (lo hi : Rat) (a : B32) : Rat :=
  match a.seen with
  | .fin x => clampQ lo hi x
  | .inf n => if n then lo else hi
  | .nan => lo

/-- A value known to be finite, as a number. -/
def B32.num : B32 → Rat
  | .fin x => x
  | _ => 0

/-- Three values. -/
abbrev Tri (α : Type) := α × α × α

/-- Scalar product in the order written. -/
def dot3 (a b : Tri B32) : B32 := ((a.1.mul b.1).add (a.2.1.mul b.2.1)).add (a.2.2.mul b.2.2)

/-- A determinant expanded along its first row (R193). -/
def det3 (r0 r1 r2 : Tri B32) : B32 :=
  let m (a b c d : B32) : B32 := (a.mul d).sub (b.mul c)
  ((r0.1.mul (m r1.2.1 r1.2.2 r2.2.1 r2.2.2)).sub (r0.2.1.mul (m r1.1 r1.2.2 r2.1 r2.2.2))).add
    (r0.2.2.mul (m r1.1 r1.2.1 r2.1 r2.2.1))

/-- A 3 × 3 system by Cramer's rule: its determinant and the solution (R193). Rows are the equations. -/
def cramer3 (r0 r1 r2 t : Tri B32) : B32 × Tri B32 :=
  let d := det3 r0 r1 r2
  (d, (det3 (t.1, r0.2) (t.2.1, r1.2) (t.2.2, r2.2)).div d,
    (det3 (r0.1, t.1, r0.2.2) (r1.1, t.2.1, r1.2.2) (r2.1, t.2.2, r2.2.2)).div d,
    (det3 (r0.1, r0.2.1, t.1) (r1.1, r1.2.1, t.2.1) (r2.1, r2.2.1, t.2.2)).div d)

/-- u′v′ of a colour in binary32 (R192). -/
def uv32 (t : Tri B32) : B32 × B32 :=
  let d := (t.1.add ((lit 15).mul t.2.1)).add ((lit 3).mul t.2.2)
  (((lit 4).mul t.1).div d, ((lit 9).mul t.2.1).div d)

/-- xyz(c, Y) (R193). -/
def xyzOf (c : B32 × B32) (y : B32) : Tri B32 :=
  let v4 := (lit 4).mul c.2
  ((y.mul ((lit 9).mul c.1)).div v4, y,
    (y.mul (((lit 12).sub ((lit 3).mul c.1)).sub ((lit 20).mul c.2))).div v4)

/-! ### The hull, in binary64 (R192, R193) -/

/-- A point of u′v′. -/
abbrev Pt := Rat × Rat

/-- Chromaticity in binary64. -/
def uv64 (x y z : Rat) : Pt :=
  let d := add64 (add64 x (mul64 15 y)) (mul64 3 z)
  (div64 (mul64 4 x) d, div64 (mul64 9 y) d)

/-- (a − o) × (b − o). -/
def cross64 (o a b : Pt) : Rat :=
  sub64 (mul64 (sub64 a.1 o.1) (sub64 b.2 o.2)) (mul64 (sub64 a.2 o.2) (sub64 b.1 o.1))

/-- (a − o) · (b − o). -/
def inner64 (o a b : Pt) : Rat :=
  add64 (mul64 (sub64 a.1 o.1) (sub64 b.1 o.1)) (mul64 (sub64 a.2 o.2) (sub64 b.2 o.2))

/-- Whether a → b is a side of the hull of `ps`, run anticlockwise: every point lies to its left or between its ends. -/
def hullSide (ps : List Pt) (a b : Pt) : Bool :=
  a != b && ps.all fun p => decide (0 < cross64 a b p) || (cross64 a b p == 0 && decide (inner64 p a b ≤ 0))

/-- Walk the sides from `cur` until back at `start`. -/
def hullWalk (ps : List Pt) (start : Pt) : Nat → Pt → List Pt
  | 0, _ => []
  | n + 1, cur =>
    match ps.find? (hullSide ps cur) with
    | none => []
    | some b => if b = start then [] else b :: hullWalk ps start n b

/-- The vertices anticlockwise from the one with the lowest emitter number (R192). Points come in emitter order, so of emitters
that share a vertex the lowest stands for it. -/
def hullOf (pts : List Pt) : List Pt :=
  match pts.find? fun a => pts.any (hullSide pts a) with
  | none => pts.take 1
  | some a => a :: hullWalk pts a 8 a

/-- The sides of a hull: one for a segment. -/
def hullSides (h : List Pt) : List (Pt × Pt) :=
  if h.length < 3 then h.zip (h.drop 1) else h.zip (h.drop 1 ++ h.take 1)

/-- Whether a point lies in a hull, its boundary counting as inside (R192). -/
def inHull (h : List Pt) (c : Pt) : Bool :=
  match h with
  | [] => false
  | [a] => a == c
  | [a, b] => cross64 a b c == 0 && decide (inner64 c a b ≤ 0)
  | _ => (hullSides h).all fun s => decide (0 ≤ cross64 s.1 s.2 c)

/-- The point of a side nearest to c. -/
def nearestOn (s : Pt × Pt) (c : Pt) : Pt :=
  let du := sub64 s.2.1 s.1.1
  let dv := sub64 s.2.2 s.1.2
  let t := clampQ 0 1 (div64 (inner64 s.1 c s.2) (add64 (mul64 du du) (mul64 dv dv)))
  (add64 s.1.1 (mul64 t du), add64 s.1.2 (mul64 t dv))

/-- Squared distance. -/
def dist64 (a b : Pt) : Rat := inner64 a b b

/-- The point of a hull nearest to c (R194). -/
def nearestHull (h : List Pt) (c : Pt) : Pt :=
  match h with
  | [] => c
  | [a] => a
  | _ =>
    match (hullSides h).map fun s => nearestOn s c with
    | [] => c
    | p :: ps => ps.foldl (fun q r => if dist64 c r < dist64 c q then r else q) p

/-- Where the line from the white to c meets the hull (R194): the farthest meeting between the two. -/
def towardHull (h : List Pt) (w c : Pt) : Option Pt :=
  let du := sub64 c.1 w.1
  let dv := sub64 c.2 w.2
  let ts := (hullSides h).filterMap fun s =>
    let eu := sub64 s.2.1 s.1.1
    let ev := sub64 s.2.2 s.1.2
    let den := sub64 (mul64 du ev) (mul64 dv eu)
    if den = 0 then none
    else
      let au := sub64 s.1.1 w.1
      let av := sub64 s.1.2 w.2
      let t := div64 (sub64 (mul64 au ev) (mul64 av eu)) den
      let q := div64 (sub64 (mul64 au dv) (mul64 av du)) den
      if 0 ≤ t ∧ t ≤ 1 ∧ 0 ≤ q ∧ q ≤ 1 then some t else none
  match ts with
  | [] => none
  | t :: ts =>
    let t := ts.foldl max t
    some (add64 w.1 (mul64 t du), add64 w.2 (mul64 t dv))

/-! ### Emitter tables (R189, R190, R196, R201) -/

/-- An emitter of a table. -/
structure Emitter where
  x : Rat
  y : Rat
  z : Rat
  droop : Rat
  dutyMin : Nat
  iMax : Nat
  iMin : Nat
  w : Rat
deriving DecidableEq, Repr

/-- An emitter table; `bad` is the reason of R190, 0 for a valid one. -/
structure EmitTable where
  bad : Nat
  gamut : Nat
  hybrid : Bool
  loop : Bool
  sensXyz : Bool
  white : Option Pt
  tRef : Rat
  sens : List B32
  ems : List Emitter
  hull : List Pt
deriving DecidableEq, Repr

/-- A table that cannot be used. -/
def badTable (reason : Nat) : EmitTable := ⟨reason, 0, false, false, false, none, 0, [], [], []⟩

/-- A binary16 number. -/
def half? (w : Nat) : Option Rat := match dec16 w with | .fin x => some x | _ => none

/-- A binary16 number as a binary32 value. -/
def halfB (w : Nat) : B32 := B32.ofFlt (dec16 w)

/-- A binary32 number. -/
def single? (w : Nat) : Option Rat := match dec32 w with | .fin x => some x | _ => none

/-- Read a table of 64 words (R189, R190). -/
def parseTable (ws : List Nat) : EmitTable :=
  let w (i : Nat) : Nat := ws.getD i 0
  let n := bits (w 0) 31 28
  let gamut := bits (w 0) 27 26
  let pref := bits (w 0) 25 24
  if n = 0 ∨ 8 < n then badTable 1
  else if gamut = 3 ∨ pref = 3 then badTable 2
  else
    let es := List.range n
    let prim (e k : Nat) : Option Rat := single? (w (8 + 6 * e + k))
    let bad3 := es.any fun e => (List.range 3).any fun k =>
      match prim e k with | none => true | some x => decide (x < 0) || (k == 1 && x == 0)
    let iMax (e : Nat) : Nat := bits (w (12 + 6 * e)) 27 16
    let iMin (e : Nat) : Nat := bits (w (12 + 6 * e)) 11 0
    let droop (e : Nat) : Option Rat := half? (bits (w (11 + 6 * e)) 31 16)
    let tRef := half? (bits (w 2) 15 0)
    if bad3 then badTable 3
    else if es.any fun e => iMax e == 0 || decide (iMax e < iMin e) then badTable 4
    else if tRef.isNone || es.any fun e => (droop e).isNone then badTable 5
    else
      let cost (e : Nat) : Rat :=
        match pref with
        | 0 => ((bits (w (13 + 6 * e)) 31 24 + 1 : Nat) : Rat) / 256
        | 1 => ((bits (w (13 + 6 * e)) 23 16 + 1 : Nat) : Rat) / 256
        | _ => ((bits (w (13 + 6 * e)) 15 0 + 1 : Nat) : Rat) / 65536
      let ems := es.map fun e =>
        (⟨(prim e 0).getD 0, (prim e 1).getD 0, (prim e 2).getD 0, (droop e).getD 0, bits (w (11 + 6 * e)) 15 0,
          iMax e, iMin e, cost e⟩ : Emitter)
      let hull := hullOf (ems.map fun m => uv64 m.x m.y m.z)
      let white := match half? (bits (w 1) 15 0), half? (bits (w 1) 31 16) with
        | some u, some v => some (u, v)
        | _, _ => none
      let outside := match white with | some p => !inHull hull p | none => true
      if decide (gamut < 2) && decide (3 ≤ hull.length) && outside then badTable 6
      else
        ⟨0, gamut, bits (w 0) 23 23 == 1, bits (w 0) 22 22 == 1, bits (w 0) 21 21 == 1, white, tRef.getD 0,
          (List.range 9).map fun i => halfB (bits (w (3 + i / 2)) (16 * (i % 2) + 15) (16 * (i % 2))), ems, hull⟩

/-- A table as four emitters (R194, R201). -/
def EmitTable.four (t : EmitTable) : EmitTable :=
  let ems := t.ems.take 4
  let hull := hullOf (ems.map fun m => uv64 m.x m.y m.z)
  let outside := match t.white with | some p => !inHull hull p | none => true
  { t with ems := ems, hull := hull, gamut := if decide (3 ≤ hull.length) && outside then 2 else t.gamut }

/-! ### base_solve (R195) -/

/-- An emitter as base_solve sees it: its effective primary, weight, and table chromaticity in binary32. -/
structure Prim where
  p : Tri B32
  w : B32
  uv : B32 × B32
  pt : Pt
deriving DecidableEq, Repr

/-- M = Σ P Pᵀ / w over the emitters of F (step 2), row i. -/
def normRow (f : List Prim) (i : Nat) : Tri B32 :=
  let c (p : Tri B32) (k : Nat) : B32 := match k with | 0 => p.1 | 1 => p.2.1 | _ => p.2.2
  let g (j : Nat) : B32 := f.foldl (fun (s : B32) m => s.add (((c m.p i).mul (c m.p j)).div m.w)) (lit 0)
  (g 0, g 1, g 2)

/-- The emitter with the most negative level, the lowest number of equals. -/
def worstOf : List (Nat × Rat) → Option (Nat × Rat)
  | [] => none
  | x :: xs =>
    match worstOf xs with
    | none => if x.2 < 0 then some x else none
    | some y => if x.2 < 0 ∧ x.2 ≤ y.2 then some x else some y

/-- The loop of base_solve over F, emitter numbers with their primaries; none sends it to the fallback triangle. The emitters
not in F stand at level 0, so the rest of step 1 is T. -/
def activeSolve (t : Tri B32) : Nat → List (Nat × Prim) → Option (List (Nat × B32))
  | 0, _ => none
  | n + 1, f =>
    if f.length < 3 then none
    else
      let ps := f.map (·.2)
      let r := cramer3 (normRow ps 0) (normRow ps 1) (normRow ps 2) t
      match r.1, r.2 with
      | .fin d, (.fin l0, .fin l1, .fin l2) =>
        if absQ d < pow2 (-40) then none
        else
          let lv := f.map fun x => (x.1, (dot3 x.2.p (lit l0, lit l1, lit l2)).div x.2.w)
          if lv.any fun x => !x.2.isFin then none
          else
            match worstOf (lv.map fun x => (x.1, x.2.num)) with
            | none => some lv
            | some y => activeSolve t n (f.filter fun x => x.1 != y.1)
      | _, _ => none

/-- The barycentric coordinates of c in a triangle, in binary32. -/
def baryOf (a b d c : B32 × B32) : List B32 :=
  let den := ((b.2.sub d.2).mul (a.1.sub d.1)).add ((d.1.sub b.1).mul (a.2.sub d.2))
  let l1 := (((b.2.sub d.2).mul (c.1.sub d.1)).add ((d.1.sub b.1).mul (c.2.sub d.2))).div den
  let l2 := (((d.2.sub a.2).mul (c.1.sub d.1)).add ((a.1.sub d.1).mul (c.2.sub d.2))).div den
  [l1, l2, ((lit 1).sub l1).sub l2]

/-- The least of three coordinates; a NaN stands below every number. -/
def leastB : List B32 → B32
  | [] => lit 0
  | [x] => x
  | x :: xs => if x = .nan ∨ leastB xs = .nan then .nan else x.min (leastB xs)

/-- A primary that no emitter has. -/
def noPrim : Prim := ⟨(.nan, .nan, .nan), .nan, (.nan, .nan), (0, 0)⟩

/-- The index of an emitter with a chromaticity. -/
def primAt (ps : List Prim) (p : Pt) : Nat := ps.findIdx fun m => m.pt == p

/-- The fallback triangle (R195): the levels of its three emitters, the others 0. A level that is not finite is left as a NaN: it counts
as 0 wherever it is compared, in m and by the clamp. -/
def fallbackSolve (ps : List Prim) (hull : List Pt) (t : Tri B32) (c : B32 × B32) : List (Nat × B32) :=
  let d := noPrim
  let tris := (List.range (hull.length - 2)).map fun k =>
    (primAt ps (hull.getD 0 (0, 0)), primAt ps (hull.getD (k + 1) (0, 0)), primAt ps (hull.getD (k + 2) (0, 0)))
  let least (x : Nat × Nat × Nat) : B32 :=
    leastB (baryOf (ps.getD x.1 d).uv (ps.getD x.2.1 d).uv (ps.getD x.2.2 d).uv c)
  let inside := tris.find? fun x => least x != .nan && !(least x).isNeg
  let better (a b : Nat × Nat × Nat) : Bool := least a != .nan && (least b == .nan || (least b).lt (least a))
  let x := match inside with
    | some x => x
    | none => match tris with | [] => (0, 0, 0) | y :: ys => ys.foldl (fun b a => if better a b then a else b) y
  let a := (ps.getD x.1 d).p
  let b := (ps.getD x.2.1 d).p
  let e := (ps.getD x.2.2 d).p
  let r := (cramer3 (a.1, b.1, e.1) (a.2.1, b.2.1, e.2.1) (a.2.2, b.2.2, e.2.2) t).2
  let pos (v : B32) : B32 := match v with | .fin q => lit (max 0 q) | _ => .nan
  [(x.1, pos r.1), (x.2.1, pos r.2.1), (x.2.2, pos r.2.2)]

/-- base_solve: a level for each emitter, and whether the fallback triangle was used. -/
def baseSolve (ps : List Prim) (hull : List Pt) (t : Tri B32) (c : B32 × B32) : List B32 × Bool :=
  let spread (l : List (Nat × B32)) : List B32 :=
    (List.range ps.length).map fun e => match l.find? fun x => x.1 == e with | some x => x.2 | none => lit 0
  match hull with
  | [] => (spread [], false)
  | [_] =>
    let s := ps.foldl (fun (s : B32) m => s.add ((m.p.2.1.mul m.p.2.1).div m.w)) (lit 0)
    (ps.map fun m => (t.2.1.mul (m.p.2.1.div m.w)).div s, false)
  | [a, b] =>
    let i := primAt ps a
    let j := primAt ps b
    let pa := (ps.getD i noPrim).p
    let pb := (ps.getD j noPrim).p
    let m2 (w x y z : B32) : B32 := (w.mul z).sub (x.mul y)
    let aa := dot3 pa pa
    let ab := dot3 pa pb
    let ba := dot3 pb pa
    let bb := dot3 pb pb
    let ra := dot3 pa t
    let rb := dot3 pb t
    let det := m2 aa ab ba bb
    (spread [(i, (m2 ra ab rb bb).div det), (j, (m2 aa ra ba rb).div det)], false)
  | _ =>
    match activeSolve t 8 (ps.zipIdx.map fun x => (x.2, x.1)) with
    | some l => (spread l, false)
    | none => (spread (fallbackSolve ps hull t c), true)

/-- What solving a cell gives: the eight 16-bit levels, and what is counted. -/
structure Solved where
  levels : List Nat
  chroma : Bool
  lum : Bool
  falls : Nat
deriving DecidableEq, Repr

/-- The largest level, a NaN counting as 0. -/
def maxLevel (l : List B32) : B32 := l.foldl B32.max (lit 0)

/-- The level step of R193: derating, clamp, rounding. -/
def levelOf (der : Nat) (l : B32) : Nat :=
  let k := b32 ((der : Rat) / 65535)
  let v := (l.mul k).clamp 0 1
  (roundEven ((b32 (65535 * v)).num)).toNat

/-- The solve procedure of R193 for target `t`, with effective primaries `ps`. -/
def solveCell (tab : EmitTable) (ps : List Prim) (t : Tri Rat) (der : Nat) : Solved :=
  let finish (l : List B32) : List Nat := (l.map (levelOf der) ++ List.replicate 8 0).take 8
  if t.2.1 = 0 then ⟨List.replicate 8 0, false, false, 0⟩
  else
    let t0 : Tri B32 := (lit t.1, lit t.2.1, lit t.2.2)
    let c0 := uv32 t0
    let p0 : Pt := (c0.1.num, c0.2.num)
    let out := !inHull tab.hull p0
    let moved : Pt :=
      if tab.gamut < 2 ∧ 3 ≤ tab.hull.length then
        match tab.white with
        | some w => (towardHull tab.hull w p0).getD (nearestHull tab.hull p0)
        | none => nearestHull tab.hull p0
      else nearestHull tab.hull p0
    let c : B32 × B32 := if out then (b32 moved.1, b32 moved.2) else c0
    let tt := if out then xyzOf c (lit t.2.1) else t0
    let r := baseSolve ps tab.hull tt c
    let m := maxLevel r.1
    if !(lit 1).lt m then ⟨finish r.1, out, false, r.2.toNat⟩
    else if tab.gamut = 0 ∧ 3 ≤ tab.hull.length then
      let w : B32 × B32 := match tab.white with | some p => (b32 p.1, b32 p.2) | none => (.nan, .nan)
      let o := baseSolve ps tab.hull (xyzOf w (lit t.2.1)) w
      let mw := maxLevel o.1
      let n := r.2.toNat + o.2.toNat
      if !(lit 1).lt mw then
        let ts := (r.1.zip o.1).filterMap fun x =>
          if x.2.lt x.1 then some (((lit 1).sub x.2).div (x.1.sub x.2)) else none
        let k : B32 := match ts with | [] => lit 1 | y :: ys => ys.foldl B32.min y.seen
        ⟨finish ((r.1.zip o.1).map fun x => x.2.add (k.mul (x.1.sub x.2))), out, true, n⟩
      else ⟨finish (o.1.map fun x => x.div mw), out, true, n⟩
    else ⟨finish (r.1.map fun x => x.div m), out, true, r.2.toNat⟩

/-! ### Hybrid dimming (R198, R199) -/

/-- The current code and duty of a level, and whether DUTY_MIN changed the duty. -/
def splitLevel (m : Emitter) (hybrid : Bool) (l : Nat) : Nat × Nat × Bool :=
  let cd : Nat × Nat :=
    if !hybrid then (m.iMax, l)
    else if l = 0 then (m.iMin, 0)
    else
      let c := max m.iMin ((m.iMax * l + 65534) / 65535)
      (c, (roundEven (((l * m.iMax : Nat) : Rat) / (c : Nat))).toNat)
  if 0 < cd.2 ∧ cd.2 < m.dutyMin then (cd.1, if m.dutyMin ≤ 2 * cd.2 then m.dutyMin else 0, true) else (cd.1, cd.2, false)

end Sys2Proof.Machine
end

