-- ==== Sys2Proof/Machine/Solver.lean ====
section
/-!
DEFINITION. The frame of the colour solver (07_colour_solver.md, R186 to R188, R191, R197, R200 to R206) and the colour loop
(R207 to R213). The solver works on frame N during frame N + 1, so it reads the set that governs the frame before the one in
progress (R14). Cells are written as the frontier passes them (log entry 12).
-/
namespace Sys2Proof.Machine

/-! ### Tables, temperatures, derating and gains (R189 to R191, R197, R207) -/

/-- A field of the set that governs the solver's frame. -/
def State.sv (s : State) (a : Nat) (f : Fld) : Nat := s.prvF a f

/-- The maps of the solver's frame. -/
def State.solverMaps (s : State) : Option (Nat × Nat) := s.mapsOf (s.prv A.MAPS_MAP_SET)

/-- The emitter table of a fixture in the solver's frame, and its number (R189, R190). -/
def State.emitTable (s : State) (fix : Nat) : EmitTable × Nat :=
  let t := (s.fixOf s.solverMaps fix).table
  let b := s.sv A.SOLVER_ETAB_BUF ⟨11, 0⟩
  if t = 0xFFFF then (badTable 8, t)
  else if b = nullBuf ∨ s.bufSize b < (t + 1) * 256 then (badTable 7, t)
  else (parseTable ((List.range 64).map fun i => s.mem32 (s.bufBase b + t * 256 + i * 4)), t)

/-- The derating factor of a fixture in force (R197, R399). -/
def State.derOf (s : State) (fix : Nat) : Nat :=
  let b := s.actF A.LEHR_DER_BUF ⟨11, 0⟩
  if s.actF A.LEHR_CTRL F.LEHR_CTRL_EN = 0 ∨ b = nullBuf ∨ s.bufSize b < (fix + 1) * 4 then 65535
  else if s.actF (A.LEHR_PROF_A (s.mem32 (s.bufBase b + fix * 4) % 16)) F.LEHR_PROF_A_EN = 0 then 65535
  else amGet (fun _ => 65535) s.lehr.der fix

/-- The emitter temperature of a fixture in a store of binary16 codes; T_REF where it has none (R191). -/
def tempOf (m : AMap Nat) (fix e : Nat) (tRef : Rat) : Rat :=
  let c := amGet (fun _ => 65536) m (fix * 8 + e)
  if c = 65536 then tRef else num16 tRef c

/-- The droop factor of an emitter, and whether it was clamped (R191). -/
def droopOf (m : Emitter) (t tRef : Rat) : Rat × Bool :=
  let d := (b32 (t - tRef)).num
  let h := ((lit 1).sub ((lit m.droop).mul (lit d))).num
  (clampQ (1 / 2) (3 / 2) h, decide (h < 1 / 2) || decide (3 / 2 < h))

/-- The address of a fixture's entry in a gain store (R207). -/
def State.gainEntry (s : State) (buf fix : Nat) : Option Nat :=
  if buf = nullBuf ∨ s.bufSize buf < (fix + 1) * 64 then none else some (s.bufBase buf + fix * 64)

/-- The gain store of the solver's frame. -/
def State.gainBuf (s : State) : Nat := s.sv A.CLOOP_GAIN_BUF ⟨11, 0⟩

/-- The gain of a code (R207). -/
def gainOf (code : Nat) : Rat := 1 + ((signedN 16 code : Int) : Rat) / 262144

/-- The effective primaries of a fixture from its gains and a temperature store, and how many droop factors were clamped. -/
def effective (tab : EmitTable) (gains : List Rat) (temps : AMap Nat) (fix : Nat) : List Prim × Nat :=
  let hs := tab.ems.zipIdx.map fun x => droopOf x.1 (tempOf temps fix x.2 tab.tRef) tab.tRef
  let ps := tab.ems.zipIdx.map fun x =>
    let g := lit (gains.getD x.2 1)
    let h := lit ((hs.getD x.2 (1, false)).1)
    let c (v : Rat) : B32 := ((lit v).mul g).mul h
    (⟨(c x.1.x, c x.1.y, c x.1.z), lit x.1.w, uv32 (lit x.1.x, lit x.1.y, lit x.1.z), uv64 x.1.x x.1.y x.1.z⟩ : Prim)
  (ps, (hs.filter (·.2)).length)

/-! ### Served cells (R186) -/

/-- A served cell: its fixture and format, the COMPANION that is written with a LIGHT cell, and the cell whose write carries it
(itself, or the LIGHT cell before a COMPANION). -/
structure SCell where
  cell : Nat
  fix : Nat
  fmt : Nat
  comp : Option Nat
  lead : Nat
deriving DecidableEq, Repr

/-- The served cells of one fixture, from its cells in order. -/
def fixServed (fix : Nat) : Option Nat → List (Nat × Nat) → List SCell
  | _, [] => []
  | _, (c, 0) :: l =>
    let comp := match l with | (d, 3) :: _ => some d | _ => none
    ⟨c, fix, 0, comp, c⟩ :: fixServed fix (some c) l
  | prev, (c, 3) :: l => ⟨c, fix, 3, none, prev.getD c⟩ :: fixServed fix none l
  | _, (c, f) :: l => ⟨c, fix, f, none, c⟩ :: fixServed fix none l

/-- The fixtures the solver serves in its frame. -/
def State.servedFixtures (s : State) : List Nat :=
  ((List.range 8).filter (s.engineServed s.prv)).flatMap fun e =>
    (List.range 8).flatMap fun j => (s.linkFixtures s.prv e j).1

/-- The served cells of the solver's frame, in increasing cell index. -/
def State.servedCells (s : State) : List SCell :=
  sortBy SCell.cell (s.servedFixtures.flatMap fun f => fixServed f none (s.fixCells s.solverMaps f))

/-! ### Writing one cell (R186 to R188, R191, R193, R198 to R201, R204) -/

/-- The solver frame in progress, or the last. -/
def State.solving (s : State) : SolvedFrame := s.solver.frames.headD ⟨0, 0, nullBuf, nullBuf, 0, 1⟩

/-- Write an `n`-byte value into a buffer, where it fits. -/
def bufWrite (b off n v : Nat) (s : State) : State :=
  if b = nullBuf ∨ s.bufSize b < off + n then s else s.memW (s.bufBase b + off) n v

/-- Read an `n`-byte value from a buffer of an earlier frame; 0 where there is none or it does not hold it (R204). -/
def State.oldRead (s : State) (cur : Bool) (off n : Nat) : Nat :=
  match s.solver.old with
  | none => 0
  | some p =>
    let b := if cur then p.2 else p.1
    if b = nullBuf ∨ s.bufSize b < off + n then 0 else leNat (s.memRead (s.bufBase b + off) n)

/-- Note the levels delivered to a fixture with one LIGHT cell (R208). -/
def loopDelivered (fix : Nat) (levels : List Nat) (s : State) : State :=
  match s.gainEntry s.gainBuf fix with
  | none => s
  | some a =>
    let old := (List.range 8).map fun e => s.mem16 (a + 0x20 + 2 * e)
    if old = levels then s
    else
      let s := levels.zipIdx.foldl (fun t x => t.memW (a + 0x20 + 2 * x.2) 2 x.1) s
      s.memW (a + 0x30) 4 s.solving.frame

/-- The gains of a fixture in the solver's frame; gain 1 where it has no entry, recorded once a frame for a short store (R207). -/
def solverGains (fix : Nat) (s : State) : List Rat × State :=
  match s.gainEntry s.gainBuf fix with
  | some a => ((List.range 8).map fun e => gainOf (s.mem16 (a + 2 * e)), s)
  | none =>
    (List.replicate 8 1,
      if s.gainBuf = nullBuf ∨ s.solver.gainSeen then s
      else { s with solver := { s.solver with gainSeen := true } }.guard1 P.CLOOP 29 0x7A (some 2))

/-- A LIGHT cell whose table is invalid: zero drive and current, counted with its COMPANION (R190). -/
def solveBad (x : SCell) (bad table : Nat) (s : State) : State :=
  let n := if x.comp.isSome then 2 else 1
  let s := s.add A.SOLVER_BAD_TABLE ⟨31, 0⟩ n
  let s := s.wr A.SOLVER_BAD_LAST (w32 (bad * 2 ^ 28 + table))
  if s.solver.badSeen then s else { s with solver := { s.solver with badSeen := true } }.raise P.SOLVER 4

/-- What solving a LIGHT cell gives: its two drive cells and its current codes, with the counts recorded. -/
def solveLight (x : SCell) (lights : Nat) (s : State) : (Nat × Nat × Nat) × State :=
  let tt := s.emitTable x.fix
  if tt.1.bad ≠ 0 then ((0, 0, 0), solveBad x tt.1.bad tt.2 s)
  else
    let nocomp := decide (4 < tt.1.ems.length) && x.comp.isNone
    let tab := if nocomp then tt.1.four else tt.1
    let s := if !nocomp then s
      else
        let s := (s.inc A.SOLVER_NOCOMP).wr A.SOLVER_NOCOMP_FIX (w32 x.fix)
        if s.solver.nocompSeen then s else { s with solver := { s.solver with nocompSeen := true } }.raise P.SOLVER 5
    let g := solverGains x.fix s
    let eff := effective tab g.1 g.2.solver.latT x.fix
    let again := g.2.solver.droopFix.contains x.fix
    let s := if again then g.2
      else { g.2 with solver := { g.2.solver with droopFix := x.fix :: g.2.solver.droopFix } }.add A.SOLVER_DROOP_CLAMP ⟨31, 0⟩ eff.2
    let s := if eff.2 = 0 ∨ s.solver.droopSeen then s
      else { s with solver := { s.solver with droopSeen := true } }.guard1 P.SOLVER 30 0x72 (some 2)
    let v := s.readCell (s.mem64 (parisonBase s.solving.frame + x.cell * 8))
    let r := solveCell tab eff.1 (v.1.getD 0 0, v.1.getD 1 0, v.1.getD 2 0) (amGet (fun _ => 65535) v.2.solver.latD x.fix)
    let s := v.2.add A.SOLVER_GAMUT_CHROMA ⟨31, 0⟩ r.chroma.toNat
    let s := s.add A.SOLVER_GAMUT_LUM ⟨31, 0⟩ r.lum.toNat
    let s := s.add A.SOLVER_FALLBACK ⟨31, 0⟩ r.falls
    let sp := tab.ems.zipIdx.map fun m => splitLevel m.1 (tab.hybrid && lights == 1) (r.levels.getD m.2 0)
    let s := s.add A.SOLVER_DUTY_LOW ⟨31, 0⟩ (sp.filter (·.2.2)).length
    let s := if lights = 1 then
        loopDelivered x.fix ((List.range 8).map fun e =>
          match sp[e]?, tab.ems[e]? with
          | some c, some m => (roundEven (((c.1 * c.2.1 : Nat) : Rat) / (m.iMax : Nat))).toNat
          | _, _ => 0) s
      else s
    let pack (l : List Nat) : Nat := l.zipIdx.foldl (fun v y => v + y.1 * 2 ^ (16 * y.2)) 0
    let ds := sp.map (·.2.1)
    ((pack (ds.take 4), pack (ds.drop 4), pack (sp.map (·.1))), s)

/-- Write one served cell of the solver's frame, and what is written with it. `fs` are the served cells of its fixture. -/
def solveOne (x : SCell) (fs : List SCell) (s : State) : State :=
  let f := s.solving
  let lights := fs.filter fun y => y.fmt == 0
  if x.fmt = 3 then
    if x.lead = x.cell then
      let v := s.fresh (2 ^ 64)
      bufWrite f.drv (x.cell * 8) 8 v.1 v.2
    else s
  else if x.fmt ≠ 0 then
    let s := bufWrite f.drv (x.cell * 8) 8 (s.mem64 (parisonBase f.frame + x.cell * 8)) s
    if lights.isEmpty && fs.all fun y => decide (x.cell ≤ y.cell) then bufWrite f.cur (x.fix * 16) 16 0 s else s
  else if s.solver.shed.contains x.cell then
    let s := bufWrite f.drv (x.cell * 8) 8 (s.oldRead false (x.cell * 8) 8) s
    let s := match x.comp with
      | some d => bufWrite f.drv (d * 8) 8 (s.oldRead false (d * 8) 8) s
      | none => s
    if lights.all fun y => decide (x.cell ≤ y.cell) then
      bufWrite f.cur (x.fix * 16) 16 (s.oldRead true (x.fix * 16) 16) s
    else s
  else
    let r := solveLight x lights.length s
    let s := bufWrite f.drv (x.cell * 8) 8 r.1.1 r.2
    let s := match x.comp with
      | some d => bufWrite f.drv (d * 8) 8 r.1.2.1 s
      | none => s
    let s := if lights.all fun y => decide (x.cell ≤ y.cell) then bufWrite f.cur (x.fix * 16) 16 r.1.2.2 s else s
    s.add64 A.SOLVER_CELLS_LO 1

/-- The frontier when LIGHT and RAW cells below `p` have been taken: the first served cell not written (R202). -/
def frontierAt (l : List SCell) (p : Nat) : Nat :=
  match l.find? fun x => decide (p ≤ x.lead) with
  | some x => x.cell
  | none => 16777216

/-- Take the LIGHT and RAW cells below `p` (R202 step 2). The parison is read from the first of them on (R91). -/
def solveTo (p : Nat) (s : State) : State :=
  if !s.solver.busy then s
  else
    let l := s.servedCells
    let from0 := s.solver.pos
    let todo := l.filter fun x => decide (from0 ≤ x.cell) && decide (x.cell < p)
    let s := match todo with
      | [] => s
      | x :: _ => engineRead (parisonBase s.solving.frame + x.cell * 8)
          (fun u => todo.foldl (fun t x => solveOne x (l.filter fun y => y.fix == x.fix) t) u) s
    let fr := frontierAt l (max from0 p)
    let s := s.wr A.SOLVER_FRONTIER (w32 fr)
    match s.solver.frames with
    | [] => s
    | f :: fs => { s with solver := { s.solver with pos := max from0 p, frames := { f with frontier := fr } :: fs } }

/-- How far the walk of LIGHT and RAW cells must come for the frontier to pass cell `c`. -/
def solveLead (l : List SCell) (c : Nat) : Nat :=
  l.foldl (fun m x => if x.cell ≤ c then max m (x.lead + 1) else m) (c + 1)

/-- Mark the frame in progress as finished: 1 done, 2 cut. -/
def solverFin (fin : Nat) (s : State) : State :=
  match s.solver.frames with
  | [] => s
  | f :: fs => { s with solver := { s.solver with busy := false, frames := { f with fin := fin } :: fs } }

/-- PAGE_STAT.FAULT of the SOLVER page follows STAT.CUT and STAT.SKIPPED. -/
def solverFault (s : State) : State :=
  s.setFault P.SOLVER (s.get A.SOLVER_STAT F.SOLVER_STAT_CUT == 1 || s.get A.SOLVER_STAT F.SOLVER_STAT_SKIPPED == 1)

/-- Step 3 (R202), `ns` nanoseconds after the boundary at which the frame began: every served cell is written. -/
def solverDone (ns : Nat) (s : State) : State :=
  if !s.solver.busy then s
  else
    let s := solveTo 16777216 s
    let s := solverFin 1 s
    let s := s.wr A.SOLVER_STAT (w32 (s.solver.k * 2 ^ 24))
    let s := s.wr A.SOLVER_FRONTIER (w32 16777216)
    (solverFault (s.wr A.SOLVER_DONE_US (w32 (min 65535 (ns / 1000))))).raise P.SOLVER 0

/-- The frame is cut where the frontier stands (R205). -/
def solverCutNow (s : State) : State :=
  if !s.solver.busy then s
  else
    let fr := s.solving.frontier
    let s := solverFin 2 s
    let s := s.wr A.SOLVER_STOP_CELL (w32 fr)
    let s := s.wr A.SOLVER_STAT (w32 (2 ^ 30 + s.solver.k * 2 ^ 24))
    let s := (s.wr A.SOLVER_DONE_US (w32 65535)).inc A.SOLVER_CUT_CNT
    (solverFault s).raise P.SOLVER 2

/-- Solve slots since the frame began (R203, log entry 12). -/
def State.solveSlots (s : State) : Nat := 2 * ((s.nowNs - s.solver.start) * s.get A.LEHR_FREQ F.LEHR_FREQ_SOLVE / 10000)

/-- The time that `n` solve slots take, two to a cycle, in ns (R203, log entry 12). -/
def State.solveTime (s : State) (n : Nat) : Nat := (n + 1) / 2 * 10000 / max 1 (s.get A.LEHR_FREQ F.LEHR_FREQ_SOLVE)


/-! ### The change-over of the loop's gains (R211) and RESET_ALL (R212) -/

/-- Reset one entry. -/
def resetEntry (a : Nat) (s : State) : State :=
  (s.memW (a + 0x10) 16 0).memW (a + 0x34) 4 ((s.mem32 (a + 0x34) ||| 1) &&& 0xFFFFFFFD)

/-- The entries of a gain store. -/
def State.gainEntries (s : State) (b : Nat) : Nat := if b = nullBuf then 0 else min (s.bufSize b / 64) 262144

/-- RESET_ALL reaches every entry below the `n`-th, one after another (R212). -/
def resetTo (n : Nat) (s : State) : State :=
  match s.loop.resetting with
  | none => s
  | some b =>
    let i := s.loop.resetAt
    let s := (List.range (n - i)).foldl (fun t j => resetEntry (t.bufBase b + (i + j) * 64) t) s
    { s with loop := { s.loop with resetAt := max i n } }

/-- RESET_ALL, while it runs, has come some way further: how far is open (R212, log entry 15). -/
def resetSome (s : State) : State :=
  match s.loop.resetting with
  | none => s
  | some b =>
    let r := s.fresh (s.gainEntries b + 1 - s.loop.resetAt)
    resetTo (s.loop.resetAt + r.1) r.2

/-- The addresses of the gain-store entries with PEND = 1. -/
def State.pendEntries (s : State) (buf : Nat) : List Nat :=
  let b := s.bufBase buf
  let n := if buf = nullBuf then 0 else min (s.bufSize buf) (262144 * 64) / 64 * 64
  s.mem.filterMap fun x =>
    if b ≤ x.1 ∧ x.1 < b + n ∧ (x.1 - b) % 64 = 0x34 ∧ x.2.toNat % 2 = 1 then some (x.1 - 0x34) else none

/-- STAT.PENDING of the loop. -/
def loopPending (s : State) : State :=
  s.put A.CLOOP_STAT F.CLOOP_STAT_PENDING (min (s.pendEntries s.gainBuf).length 131071)

/-- The change-over, where it is due: every entry with PEND = 1 takes its pending gains (R211). -/
def loopChangeover (s : State) : State :=
  if !s.loop.due || s.isPartner then s
  else
    let s := resetSome s
    let es := s.pendEntries s.gainBuf
    let s := es.foldl (fun t a =>
      let t := t.memW a 16 (leNat (t.memRead (a + 0x10) 16))
      let t := t.memW (a + 0x34) 4 (t.mem32 (a + 0x34) &&& 0xFFFFFFFE)
      t.memW (a + 0x30) 4 t.loop.dueFrame) s
    loopPending ({ s with loop := { s.loop with due := false } }.raiseIf (!es.isEmpty) P.CLOOP 0)

/-- Boundary N + 2 for the frame in progress (R202 step 4): the cells whose slots have passed are written; the frame is done where
that is every cell, and cut otherwise. Its own change-over has come first (R211). -/
def solverEnd (s : State) : State :=
  let s := loopChangeover s
  if !s.solver.busy then s
  else
    let l := s.servedCells
    let solved := l.filter fun x => x.fmt == 0 && !s.solver.shed.contains x.cell
    match solved[s.solveSlots]? with
    | none => solverDone (s.solveTime solved.length) s
    | some x => solverCutNow (solveTo (max s.solver.pos x.cell) s)

/-! ### Step 1 (R202, R203, R206) -/

/-- The rank of a cell: its place in the stacking order of the highest layer whose region contains it, from 1; 0 in no region
(R203). -/
def State.cellRank (s : State) (order : List Nat) (c : Nat) : Nat :=
  (order.zipIdx.filter fun x => (s.regionBy s.prv x.1).has c).foldl (fun m x => max m (x.2 + 1)) 0

/-- The solver's capacity (R203): f in 0.1 MHz, the period in ns. -/
def solverCap (f period limit : Nat) : Nat := 2 * (f * 100000) * period * limit / (256 * 10 ^ 9)

/-- Whether a buffer is still leased for a frame before frame `n` that has not reached step 8 (R206). -/
def State.drvBusy (s : State) (n b : Nat) : Bool := s.lease.frames.any fun x => x.frame != n && x.bufs.contains b

/-- Step 1 of frame `frame`, taken at the boundary at which the device begins the frame after it; `order` is Marver's stacking
order for the frame, `period` the period between the two boundaries. The governing set has just become the previous one. -/
def solverBegin (frame period : Nat) (order : List Nat) (s : State) : State :=
  let ep := s.rd A.SYS_EPOCH_APPLIED
  let s := (s.wr (H.EPOCH_SEEN P.SOLVER) ep).wr (H.EPOCH_SEEN P.CLOOP) ep
  let k := (s.solver.k + 1) % 3
  let drv := s.sv (A.SOLVER_DRV_BUF k) ⟨11, 0⟩
  let cur := s.sv (A.SOLVER_CUR_BUF k) ⟨11, 0⟩
  let inj := s.injArmed P.SOLVER 3
  let s := if inj then s.injTake P.SOLVER 3 else s
  let skip := inj || s.sv A.SOLVER_CTRL F.SOLVER_CTRL_EN == 0 || drv == nullBuf || cur == nullBuf || s.drvBusy frame drv || s.drvBusy frame cur
  let s := { s with
    loop := { s.loop with
      due := s.loop.due || s.loop.epoch != ep, epoch := ep, dueFrame := if s.loop.epoch != ep then frame else s.loop.dueFrame }
    solver := { s.solver with
      k := k, start := s.nowNs, pos := 0, shed := [], latT := s.solver.temps, latD := [], badSeen := false, nocompSeen := false,
      droopSeen := false, gainSeen := false, droopFix := [] } }
  let s := s.wr A.SOLVER_FRAME (w32 frame)
  let cut := s.get A.SOLVER_STAT F.SOLVER_STAT_CUT
  if skip then
    let s := s.wr A.SOLVER_STAT (w32 (cut * 2 ^ 30 + 2 ^ 29 + k * 2 ^ 24))
    (solverFault (s.inc A.SOLVER_SKIP_CNT)).raise P.SOLVER 3
  else
    let s := s.wr A.SOLVER_STAT (w32 (2 ^ 31 + cut * 2 ^ 30 + k * 2 ^ 24))
    let l := s.servedCells
    let lights := l.filter fun x => x.fmt == 0
    let cap := solverCap (s.get A.LEHR_FREQ F.LEHR_FREQ_SOLVE) period (s.sv A.SOLVER_CTRL F.SOLVER_CTRL_SOLVE_LIMIT)
    let shed := ((sortBy (fun x => s.cellRank order x.cell) lights).take (lights.length - cap)).map (·.cell)
    let fixes := (l.map (·.fix)).eraseDups
    let ders := fixes.foldl (fun m f => amSet (fun _ => 65535) m f (s.derOf f)) []
    let s := { s with solver := { s.solver with
      busy := true, shed := shed, latD := ders, old := s.solver.last, last := some (drv, cur),
      frames := ⟨frame, k, drv, cur, 0, 0⟩ :: s.solver.frames.take 3 } }
    let s := s.leaseAlso frame [drv, cur]
    let s := s.wr A.SOLVER_SERVED (w32 (min lights.length (2 ^ 25 - 1)))
    let s := s.wr A.SOLVER_CAP (w32 (min cap (2 ^ 32 - 1)))
    let s := s.wr A.SOLVER_SHED_CELLS (w32 shed.length)
    let s := if shed.isEmpty then s else (s.inc A.SOLVER_SHED_CNT).raise P.SOLVER 1
    let clip := l.any (fun x => decide (s.bufSize drv < x.cell * 8 + 8)) || fixes.any fun f => decide (s.bufSize cur < f * 16 + 16)
    let s := if clip then s.guard1 P.SOLVER 29 0x71 (some 1) else s
    let s := s.wr A.SOLVER_FRONTIER (w32 (frontierAt l 0))
    solverFault s

/-- SOLVER_FRAME_DONE: the solver has written every served cell (R202). -/
def solverFrameDoneOp (s : State) : State := solverDone (s.nowNs - s.solver.start) (loopChangeover s)

/-- Advance the solver until its frontier has passed cell `c`, after a change-over that is due. -/
def solverPass (c : Nat) (s : State) : State :=
  let s := loopChangeover s
  if s.solver.busy then solveTo (solveLead s.servedCells c) s else s

/-! ### Reports (R209, R210, R213) -/

/-- A report arrives at the loop's queue (R213). -/
def loopArrive (r : LoopReport) (s : State) : State :=
  let inj := s.injArmed P.CLOOP 2
  let s := if inj then s.injTake P.CLOOP 2 else s
  if inj || decide (4096 ≤ s.loop.queue.length) then (s.inc A.CLOOP_DROPPED).raise P.CLOOP 2
  else { s with loop := { s.loop with queue := s.loop.queue ++ [r] } }

/-- A report is rejected (R209). -/
def loopReject (r : LoopReport) (reason : Nat) (s : State) : State :=
  (s.inc A.CLOOP_REJECTED).wr A.CLOOP_REJ_LAST (w32 (reason * 2 ^ 28 + r.fix))

/-- The measured light of a report as XYZ (R209); none where a value, as reported or as the sensor matrix gives it, is negative, NaN or
infinite. -/
def reportXyz (tab : EmitTable) (r : LoopReport) : Option (Tri Rat) :=
  let v (i : Nat) : Option Rat := if r.xyz then single? (r.vals.getD i 0) else some (rnd32 (r.vals.getD i 0 : Nat))
  match v 0, v 1, v 2 with
  | some a, some b, some c =>
    if a < 0 ∨ b < 0 ∨ c < 0 then none
    else if r.xyz then some (a, b, c)
    else
      let row (i : Nat) : B32 := dot3 ((tab.sens.getD (3 * i) .nan), (tab.sens.getD (3 * i + 1) .nan),
        (tab.sens.getD (3 * i + 2) .nan)) (lit a, lit b, lit c)
      match row 0, row 1, row 2 with
      | .fin x, .fin y, .fin z => if x < 0 ∨ y < 0 ∨ z < 0 then none else some (x, y, z)
      | _, _, _ => none
  | _, _, _ => none

/-- The pending gain code that a gain, computed but not yet clamped, gives (R210 step 6): a NaN gives a free code, for the manual states
none (log entry 15). -/
def gainCode (g : B32) (s : State) : Nat × State :=
  match g with
  | .nan => s.fresh (2 ^ 16)
  | g =>
    let v := (((lit (g.clamp (7 / 8) (rnd32 (1124996 / 1000000)))).sub (lit 1)).mul (lit 262144)).num
    (wrapN 16 (max (-32768) (min 32767 (roundEven v))), s)

/-- An accepted report updates the pending gains (R210). `rs`: the level fractions; `ps`: the effective primaries. -/
def loopUpdate (r : LoopReport) (a : Nat) (rs : List B32) (ps : List Prim) (q pr : Tri B32) (s : State) : State :=
  let err : Tri B32 := (q.1.sub pr.1, q.2.1.sub pr.2.1, q.2.2.sub pr.2.2)
  let act (e : Nat) : Bool := decide ((1 : Rat) / 64 ≤ (rs.getD e .nan).num) && decide (e < ps.length)
  let av (e : Nat) : Tri B32 :=
    match ps[e]? with
    | some m => ((rs.getD e .nan).mul m.p.1, (rs.getD e .nan).mul m.p.2.1, (rs.getD e .nan).mul m.p.2.2)
    | none => (.nan, .nan, .nan)
  let es := (List.range 8).filter act
  let sum := es.foldl (fun (t : B32) e => t.add (dot3 (av e) (av e))) (lit 0)
  let tau := s.sv A.CLOOP_CTRL F.CLOOP_CTRL_TAU_S
  let dt : Int := (r.arrived : Int) - (s.mem64 (a + 0x38) : Int)
  let alpha : B32 := lit (min 1 (b32 ((dt : Rat) / ((tau * 10 ^ 9 : Nat) : Rat))).num)
  let s := (List.range 8).foldl (fun t e =>
    if !act e then t.memW (a + 0x10 + 2 * e) 2 (t.mem16 (a + 2 * e))
    else
      let d := (dot3 (av e) err).div sum
      let g := (lit (gainOf (t.mem16 (a + 2 * e)))).mul ((lit 1).add (alpha.mul d))
      let k := gainCode g t
      let t := k.2.memW (a + 0x10 + 2 * e) 2 k.1
      if k.1 = 0x8000 ∨ k.1 = 0x7FFF then
        ((t.inc A.CLOOP_LIMIT_CNT).wr A.CLOOP_LIMIT_EMIT (w32 (r.fix * 8 + e))).raise P.CLOOP 1
      else t) s
  let s := s.memW (a + 0x34) 4 (s.mem32 (a + 0x34) ||| 1)
  s.memW (a + 0x38) 8 r.arrived

/-- Judge one report (R209). `inFallback`: whether the fixture's fail-together set is in fallback. -/
def loopJudge (inFallback : Bool) (r : LoopReport) (s : State) : State :=
  let tab := (s.emitTable r.fix).1
  match s.gainEntry s.gainBuf r.fix with
  | none => loopReject r 1 s
  | some a =>
    if s.sv A.CLOOP_CTRL F.CLOOP_CTRL_EN = 0 ∨ tab.bad ≠ 0 ∨ !tab.loop then loopReject r 1 s
    else if 1 < ((s.fixCells s.solverMaps r.fix).filter fun c => c.2 == 0).length then loopReject r 2 s
    else match reportXyz tab r with
      | none => loopReject r 3 (s.guard1 P.CLOOP 31 0x7B (some 3))
      | some q =>
        if inFallback then loopReject r 6 s
        else if earlier r.frame (s.mem32 (a + 0x30)) then s.inc A.CLOOP_STALE
        else if s.mem32 (a + 0x34) % 2 = 1 ∨ 65536 ≤ (s.pendEntries s.gainBuf).length then s.inc A.CLOOP_HELD
        else
          let gains := (List.range 8).map fun e => gainOf (s.mem16 (a + 2 * e))
          let ps := (effective tab gains s.solver.temps r.fix).1
          let rs := (List.range 8).map fun e => b32 ((s.mem16 (a + 0x20 + 2 * e) : Rat) / 65535)
          let sum (f : Tri B32 → B32) : B32 :=
            ps.zipIdx.foldl (fun (t : B32) x => t.add ((rs.getD x.2 .nan).mul (f x.1.p))) (lit 0)
          let pr : Tri B32 := (sum (·.1), sum (·.2.1), sum (·.2.2))
          let minY := halfB (s.sv A.CLOOP_CTRL F.CLOOP_CTRL_MIN_Y)
          if pr.2.1.lt minY then loopReject r 4 s
          else if !(List.range ps.length).any fun e => decide ((1 : Rat) / 64 ≤ (rs.getD e .nan).num) then loopReject r 5 s
          else
            let s := s.inc A.CLOOP_ACCEPTED
            if s.mem32 (a + 0x34) / 2 % 2 = 0 then
              (s.memW (a + 0x34) 4 (s.mem32 (a + 0x34) ||| 2)).memW (a + 0x38) 8 r.arrived
            else loopPending (loopUpdate r a rs ps (lit q.1, lit q.2.1, lit q.2.2) pr s)

/-! ### RESET_FIX and RESET_ALL (R212) -/

/-- The gain store named by the active set. -/
def State.gainActive (s : State) : Nat := s.actF A.CLOOP_GAIN_BUF ⟨11, 0⟩

/-- CLOOP.CMD RESET_FIX. -/
def resetFixOp (fix : Nat) (s : State) : State :=
  match s.gainEntry s.gainActive fix with
  | some a => loopPending (resetEntry a s)
  | none => s

/-- CLOOP.CMD RESET_ALL begins. -/
def resetAllOp (s : State) : State :=
  let b := s.gainActive
  let s := { s with loop := { s.loop with resetting := some b, resetAt := 0 } }
  loopPending (resetSome ((s.hold .resetAll b).put A.CLOOP_STAT F.CLOOP_STAT_BUSY 1))

/-- RESET_ALL has rewritten every entry. -/
def resetAllDoneOp (s : State) : State :=
  match s.loop.resetting with
  | none => s
  | some b =>
    let s := resetTo (s.gainEntries b) s
    let s := ({ s with loop := { s.loop with resetting := none } }.release .resetAll).put A.CLOOP_STAT F.CLOOP_STAT_BUSY 0
    loopPending s

/-- A write of CLOOP.CMD (R212, R215). -/
def cloopCmd (v : Word) (s : State) : State :=
  let op := fget v ⟨31, 28⟩
  let bad := s.loop.resetting.isSome || (op != 1 && op != 2)
  let inj := s.injArmed P.CLOOP 31
  let s := if inj then s.injTake P.CLOOP 31 else s
  if bad || inj then s.guard1 P.CLOOP 31 0x79 (some 1)
  else if op = 1 then resetFixOp (fget v ⟨17, 0⟩) s
  else resetAllOp s

end Sys2Proof.Machine
end

