-- ==== Sys2Proof/Machine/Queues.lean ====
section
/-!
DEFINITION. The cullet queues (R318 to R324), the frames a port begins and sends (R301, R305, R306), and PAUSE (R308, R309).
The words of a queue stand in the queue; what its spill region holds of them is not laid out by the manual and is not written.
-/
namespace Sys2Proof.Machine

/-! ### Ports: status -/

/-- A port nothing has used. -/
def PortSt.init : PortSt := ⟨[], [], [], [], none, none, none, 0, 0, none, 0, 0, none, false, 0, none, 0, [], false, [], []⟩

/-- Port `p` as the model holds it. -/
def State.port (s : State) (p : Nat) : PortSt :=
  amGet (fun _ => PortSt.init) s.net.ports p

/-- Set port `p`. -/
def State.setPort (s : State) (p : Nat) (x : PortSt) : State :=
  { s with net := { s.net with ports := amSet (fun _ => PortSt.init) s.net.ports p x } }

/-- Whether a port is enabled and in service (R301, R302). -/
def State.portOn (s : State) (p : Nat) : Bool :=
  s.actF (A.PORT_MAC_CTRL p) F.PORT_MAC_CTRL_EN == 1 && !s.offline (P.PORT p)

/-- Whether a port's link is up. -/
def State.linkUp (s : State) (p : Nat) : Bool := s.get (A.PORT_STAT p) F.PORT_STAT_LINK_UP == 1

/-- Whether the clock that CLK measures is a link clock whose link is down, or which is stopped (R7). -/
def State.freqDown (s : State) : Bool :=
  let d := s.get A.CLK_FREQ_SEL F.CLK_FREQ_SEL_DOMAIN
  let p := s.get A.CLK_FREQ_SEL F.CLK_FREQ_SEL_PORT
  (d == 7 || d == 8) && (!s.linkUp p || s.commit.stopped.contains (P.PORT p))

/-- FREQ_HZ is 0 while the clock measured is stopped or its link is down (R7). -/
def freqSync (s : State) : State := if s.freqDown then s.wr A.CLK_FREQ_HZ 0 else s

/-- Whether a rate renegotiation runs on a link (R313). -/
def State.inReneg (s : State) (p : Nat) : Bool := decide (p < 64) && s.get (A.PORT_RATE_STAT p) F.PORT_RATE_STAT_STATE == 2

/-- PAGE_STAT.FAULT of a port page: enabled with its link down, except during a rate change. -/
def portFault (p : Nat) (s : State) : State :=
  s.setFault (P.PORT p) (s.actF (A.PORT_MAC_CTRL p) F.PORT_MAC_CTRL_EN == 1 && !s.linkUp p && !s.inReneg p)

/-- The octets of an address held in 48 bits, the first on the wire first (R299). -/
def macBytes (a : Nat) : List Byte := (leBytes 6 a).reverse

/-- A port's address. -/
def State.macAddr (s : State) (p : Nat) : Nat :=
  (s.act (A.PORT_MAC_ADDR_LO p)).toNat + (s.act (A.PORT_MAC_ADDR_HI p)).toNat % 65536 * 2 ^ 32

/-- Big-endian bytes of a number. -/
def beBytes (n v : Nat) : List Byte := (leBytes n v).reverse

/-- Seconds and nanoseconds of a time in whole ns. -/
def secOf (t : Nat) : Nat := t / 10 ^ 9
def nsOf (t : Nat) : Nat := t % 10 ^ 9

/-! ### Beginning a frame (R238, R256, R263, R305) -/

/-- The scan engine of a number. -/
def State.engine (s : State) (e : Nat) : EngSt :=
  s.scan.engines.getD e ⟨none, (nullBuf, nullBuf), none, [], none, none, [], none, 0⟩

/-- Set a scan engine. -/
def State.setEngine (s : State) (e : Nat) (x : EngSt) : State :=
  { s with scan := { s.scan with engines := s.scan.engines.set e x } }

/-- Change one link walk of an engine frame. -/
def EngFrame.setLink (f : EngFrame) (j : Nat) (g : LinkWalk → LinkWalk) : EngFrame :=
  { f with links := f.links.map fun l => if l.j = j then g l else l }

/-- Change a link walk of engine frame `num` of engine `e`, where it is the one in progress. -/
def State.onLink (s : State) (e j num : Nat) (g : LinkWalk → LinkWalk) : State :=
  match (s.engine e).cur with
  | some f => if f.num = num then s.setEngine e { s.engine e with cur := some (f.setLink j g) } else s
  | none => s

/-- The SEQ counter of a link (R256). -/
def State.seqOf (s : State) (l : Nat) : Nat := amGet (fun _ => 0) s.tuiper.seq l

/-- Set the SEQ counter of a link. -/
def State.setSeq (s : State) (l v : Nat) : State :=
  { s with tuiper := { s.tuiper with seq := amSet (fun _ => 0) s.tuiper.seq l (v % 2 ^ 32) } }

/-- No entry counts as sent. -/
def CurSt.init : CurSt := ⟨none, 0, 0, 0⟩

/-- The current entry kept for a fixture (R263). -/
def State.curOf (s : State) (fix : Nat) : CurSt := amGet (fun _ => CurSt.init) s.tuiper.curs fix

/-- Set the current entry kept for a fixture. -/
def State.setCur (s : State) (fix : Nat) (c : CurSt) : State :=
  { s with tuiper := { s.tuiper with curs := amSet (fun _ => CurSt.init) s.tuiper.curs fix c } }

/-- One bit into the CRC-64 of R314 and R364. -/
def crcBit (c : Cell) (b : Bool) : Cell := if (c.getLsbD 63).xor b then (c <<< 1) ^^^ 0x42F0E1EBA9EA3693 else c <<< 1

/-- `n` bits of a number into a CRC-64, the most significant first. -/
def crcBits (n v : Nat) (c : Cell) : Cell := (List.range n).foldl (fun c i => crcBit c (v / 2 ^ (n - 1 - i) % 2 == 1)) c

/-- 32-bit words into a CRC-64. -/
def crcWords (ws : List Nat) (c : Cell) : Cell := ws.foldl (fun c w => crcBits 32 w c) c

/-- What a frame of an engine frame does when it begins. -/
def engBegin (p : Nat) (x : EngTx) (seq : Nat) (s : State) : State :=
  let s := s.add (A.SCAN_SENT_FIX x.e x.j) ⟨31, 0⟩ x.level
  let s := s.add64 (A.SCAN_CELLS_LO x.e) x.cells
  let s := s.add A.TUIPER_STRIKE_CNT ⟨31, 0⟩ x.strikes
  let s := s.add A.TUIPER_CUR_CNT ⟨31, 0⟩ x.currents
  let s := x.curs.foldl (fun t c => t.setCur c.1 c.2) s
  let now := s.nowNs
  let s := s.onLink x.e x.j x.num fun l =>
    { l with begun := l.begun ++ x.starts, firstSeq := some (l.firstSeq.getD seq), frames := l.frames + 1, lastTx := some now }
  s.setPort p { s.port p with crc := crcWords x.crc (s.port p).crc, moved := (s.port p).moved || x.change }

/-- The words of a Tuiper message with SEQ filled in, and FIRST_SEQ and NFRAMES of a PRESENT frame (R256, R261). -/
def seqWords (s : State) (ws : List Word) (x : Option EngTx) (seq : Nat) : List Word :=
  let ws := ws.set 1 (w32 seq)
  match x with
  | some e =>
    if e.present then
      let l := ((s.engine e.e).cur.map fun f => f.links.find? fun l => l.j == e.j).join
      let first := (l.map fun l => l.firstSeq.getD seq).getD seq
      let n := (l.map (·.frames)).getD 0
      (ws.set 8 (w32 first)).set 9 (w32 (n % 65536))
    else ws
  | none => ws

/-- The type of a Tuiper message (R254). -/
def tuiperType (ws : List Word) : Nat := fget (ws.getD 0 0) ⟨27, 24⟩

/-- Set a PTP domain. -/
def State.setDom (s : State) (d : Nat) (x : PtpDom) : State := { s with time := { s.time with doms := s.time.doms.set d x } }

/-- A domain that has heard nothing. -/
def PtpDom.init : PtpDom := PtpDom.initial

/-- A PTP domain. -/
def State.dom (s : State) (d : Nat) : PtpDom := s.time.doms.getD d PtpDom.init

/-- The Krafohel time in 2⁻¹⁶ ns. -/
def State.now16 (s : State) : Int := ((s.time.t / 65536 : Nat) : Int)

/-- The Delay_Req of sequence `seq` of instance `d` leaves port `p`: its transmit stamp, or none where the port's queue is full (R344). -/
def dreqStamp (p d seq : Nat) (s : State) : State :=
  let x := s.dom d
  let mine (q : Nat × Option Int) : Bool := q.1 == seq
  if (s.port p).tsq.length < 64 then
    s.setDom d { x with dreq := x.dreq.map fun q => if mine q then (q.1, some s.now16) else q }
  else
    ((s.setDom d { x with dreq := x.dreq.filter fun q => !mine q }).add64 (A.PORT_TS_DROP_LO p) 1).inc (A.PTP_NOSTAMP d)

/-- The request of R282 ends: TX_STAT reports the result. -/
def txResult (res : Nat) (s : State) : State :=
  ({ s with tuiper := { s.tuiper with req := none } }.wr A.TUIPER_TX_STAT (w32 (res * 2 ^ 28))).raise P.TUIPER 3

/-- Whether TIME words are a SYNC (R274). -/
def isSync (ws : List Word) : Bool := tuiperType ws == 9 && fget (ws.getD 8 0) ⟨31, 28⟩ == 1

/-- A SYNC with its time of departure written into it, kept for the requests that name it (R275). -/
def stampSync (l : Nat) (ws : List Word) (s : State) : List Word × State :=
  let now := s.nowNs
  let ws := ((ws.set 9 (w32 (secOf now / 2 ^ 32))).set 10 (w32 (secOf now))).set 11 (w32 (nsOf now))
  let tseq := fget (ws.getD 8 0) ⟨15, 0⟩
  (ws, { s with tuiper := { s.tuiper with syncs := (l, tseq, now) :: s.tuiper.syncs.take 4159 } })

/-- A frame begins on port `p`: a Tuiper frame other than TIME takes the next SEQ of its link (R256). -/
def beginFrame (p : Nat) (f : TxFrame) (s : State) : TxFrame × State :=
  let s := match f.ptp with
    | some d => dreqStamp p d.1 d.2 s
    | none => s
  match f.body with
  | .tuiper l ws =>
    let s := s.add64 A.TUIPER_TX_FRAMES_LO 1
    if tuiperType ws == 9 then
      if isSync ws then
        let r := stampSync l ws s
        ({ f with body := .tuiper l r.1 }, r.2)
      else (f, s)
    else
      let seq := s.seqOf l
      let ws := seqWords s ws f.eng seq
      let s := s.setSeq l (seq + 1)
      let s := match f.eng with
        | some x => if x.present then s.onLink x.e x.j x.num fun w => { w with lastTx := some s.nowNs } else engBegin p x seq s
        | none => s
      ({ f with body := .tuiper l ws }, if f.req then txResult 1 s else s)
  | _ => (f, s)

/-- Whether preemption is active on a link (R311). -/
def State.preemptOn (s : State) (p : Nat) : Bool :=
  decide (p < 64) && s.get (A.PORT_PREEMPT_STAT p) F.PORT_PREEMPT_STAT_ACTIVE == 1

/-- A hold that waited for the frame in progress begins (R308). -/
def beginHold (p : Nat) (s : State) : State :=
  let x := s.port p
  match x.hold with
  | some _ =>
    if x.cur.isNone && x.susp.isNone then
      ((s.setPort p { x with hold := none }).put (A.PORT_STAT p) F.PORT_STAT_HELD 1).raise (P.PORT p) 5
    else s
  | none => s

/-- Whether Tuiper is enabled in the active set (R296). -/
def State.tuiperOn (s : State) : Bool := s.actF A.TUIPER_CTRL F.TUIPER_CTRL_EN == 1

/-- Whether a received PAUSE holds the port. -/
def State.portHeld (s : State) (p : Nat) : Bool := s.get (A.PORT_STAT p) F.PORT_STAT_HELD == 1

/-- Whether a frame may begin: no Tuiper frame is sent while Tuiper is disabled, and one that waits goes on waiting (R296). -/
def TxFrame.mayBegin (tuiper : Bool) (f : TxFrame) : Bool :=
  match f.body with
  | .tuiper .. => tuiper
  | _ => true

/-- The first frame of a class that may begin, and the class without it. -/
def takeFirst (ok : TxFrame → Bool) : List TxFrame → Option (TxFrame × List TxFrame)
  | [] => none
  | f :: l => if ok f then some (f, l) else (takeFirst ok l).map fun r => (r.1, f :: r.2)

/-- The frame the transmitter takes next, and the port without it (R305): PAUSE, express, then preemptable. Between the fragments of
a preempted frame only express frames go: that frame is the frame in progress for a PAUSE or a hold (R308, R309). -/
def nextFrame (tuiper held : Bool) (x : PortSt) : Option (TxFrame × PortSt) :=
  let first (l : List TxFrame) : Option (TxFrame × List TxFrame) := takeFirst (·.mayBegin tuiper) l
  match (if x.susp.isSome then none else first x.pauses) with
  | some r => some (r.1, { x with pauses := r.2 })
  | none =>
    match (if held then none else first x.express) with
    | some r => some (r.1, { x with express := r.2 })
    | none =>
      match (if held || x.susp.isSome then none else first x.pre) with
      | some r => some (r.1, { x with pre := r.2 })
      | none => none

/-- The bytes of a frame from the destination address to the FCS, as far as they decide whether it can be fragmented: a Tuiper message
with its encapsulation. -/
def TxFrame.size (udp vlan : Bool) (f : TxFrame) : Nat :=
  match f.body with
  | .bytes d => max 64 (d.length + 4)
  | .tuiper _ ws => max 64 (4 * ws.length + 18 + (if udp then 28 else if vlan then 4 else 0))
  | _ => 64

/-- Whether a preemptable frame is long enough to be cut into a first fragment of the size that ADD_FRAG sets and a rest (R311). -/
def State.canCut (s : State) (p : Nat) (f : TxFrame) : Bool :=
  decide (64 * (1 + s.actF (A.PORT_PREEMPT_CFG p) F.PORT_PREEMPT_CFG_ADD_FRAG) - 4 + 64 ≤
    f.size (s.actF A.TUIPER_CTRL F.TUIPER_CTRL_UDP == 1) (s.actF A.TUIPER_CTRL F.TUIPER_CTRL_VLAN_EN == 1))

/-- Begin the next frame where the transmitter is free; a preempted frame goes on when nothing goes before it. With preemption
active an express frame interrupts a preemptable one where the fragments allow it (R311): a frame too short to be cut goes on whole, and
of a longer one that may already be in its last fragment, whether it can still be cut is free. -/
def portKick (p : Nat) (s : State) : State :=
  let s := beginHold p s
  let x := s.port p
  let start (x : PortSt) : State :=
    match nextFrame s.tuiperOn (s.portHeld p) x with
    | some (f, y) =>
      let r := beginFrame p f (s.setPort p y)
      r.2.setPort p { r.2.port p with cur := some r.1 }
    | none =>
      match x.susp with
      | some f => s.setPort p { x with cur := some f, susp := none }
      | none => s
  match x.cur with
  | none => start x
  | some f =>
    if s.preemptOn p && !f.express && !f.pause && x.susp.isNone && s.canCut p f then
      match nextFrame s.tuiperOn (s.portHeld p) { x with cur := none, susp := some f } with
      | some (g, z) =>
        let free := s.fresh 2
        if free.1 = 0 then free.2
        else
          let r := beginFrame p g ((free.2.add64 (A.PORT_TX_FRAGS_LO p) 1).setPort p z)
          r.2.setPort p { r.2.port p with cur := some r.1 }
      | none => s
    else s

/-- Whether a frame belongs to an engine frame. -/
def TxFrame.ofEng (f : TxFrame) (e num : Nat) : Bool :=
  match f.eng with | some x => x.e == e && x.num == num | none => false

/-- Whether the port still holds a frame of an engine frame's local link. -/
def PortSt.holds (x : PortSt) (e num : Nat) : Bool :=
  (x.express ++ x.pre ++ x.cur.toList ++ x.susp.toList).any fun f => f.ofEng e num

/-! ### Handing frames over (R301) -/

/-- Frames discarded at a port that is down: counted, and the event raised. -/
def txDown (p n : Nat) (s : State) : State :=
  if n = 0 then s else (s.add64 (A.PORT_TX_DOWN_LO p) n).raiseN n (P.PORT p) 6

/-- Hand a frame to a port. It is discarded at once where the link is down or the port is not enabled (R301). -/
def handOver (p : Nat) (f : TxFrame) (s : State) : State :=
  if !s.linkUp p || !s.portOn p then
    let s := txDown p 1 s
    if f.req then txResult 3 s else s
  else
    let x := s.port p
    let x := if f.pause then { x with pauses := x.pauses ++ [f] }
      else if f.express then { x with express := x.express ++ [f] } else { x with pre := x.pre ++ [f] }
    portKick p (s.setPort p x)

/-- A plain frame. -/
def plainFrame (express : Bool) (b : TxBody) : TxFrame := ⟨express, b, none, false, none, false⟩

/-- Discard every frame that waits at a port (R301); a frame in progress is lost too where `lost`. -/
def discardWaiting (p : Nat) (lost : Bool) (s : State) : State :=
  let x := s.port p
  let n := x.pauses.length + x.express.length + x.pre.length
  let x := { x with pauses := [], express := [], pre := [], cur := if lost then none else x.cur,
                    susp := if lost then none else x.susp, hold := none }
  let req := (s.port p).pre.any (·.req)
  let s := txDown p n (s.setPort p x)
  if req then txResult 3 s else s

/-! ### PAUSE (R308, R309) -/

/-- A PAUSE frame of the port with pause time `q`. -/
def pauseFrame (s : State) (p q : Nat) : TxFrame :=
  ⟨true, .bytes (macBytes 0x0180C2000001 ++ macBytes (s.macAddr p) ++ beBytes 2 0x8808 ++ beBytes 2 1 ++ beBytes 2 q ++
    List.replicate 42 0), none, true, none, false⟩

/-- Bring a port's XOFF state up to date with the queues it selects (R309). -/
def xoffPort (p : Nat) (s : State) : State :=
  let en := s.actF (A.PORT_MAC_CTRL p) F.PORT_MAC_CTRL_TX_PAUSE_EN == 1 && s.portOn p
  let qs := (List.range 16).filter fun q =>
    bitOf (s.act (A.PORT_PAUSE_CFG p)) q && s.actF (A.Q_CTRL q) F.Q_CTRL_EN == 1
  let occ (q : Nat) : Nat := s.get (A.Q_OCC q) F.Q_OCC_WORDS
  let isX := s.get (A.PORT_STAT p) F.PORT_STAT_XOFF == 1
  if !isX && en && qs.any fun q => decide (s.actF (A.Q_HIGH_WM q) F.Q_HIGH_WM_WORDS ≤ occ q) then
    let s := (s.put (A.PORT_STAT p) F.PORT_STAT_XOFF 1).raise (P.PORT p) 4
    handOver p (pauseFrame s p (s.actF (A.PORT_PAUSE_CFG p) F.PORT_PAUSE_CFG_QUANTA)) s
  else if isX && (!en || qs.all fun q => decide (occ q < s.actF (A.Q_LOW_WM q) F.Q_LOW_WM_WORDS)) then
    let s := s.put (A.PORT_STAT p) F.PORT_STAT_XOFF 0
    if en then handOver p (pauseFrame s p 0) s else s
  else s

/-- Every port's XOFF state. -/
def xoffSync (s : State) : State := (List.range 71).foldl (fun t p => xoffPort p t) s

/-- XOFF_PAUSE_REFRESH: half of QUANTA has passed since the last PAUSE in XOFF (R309). -/
def xoffRefreshOp (p : Nat) (s : State) : State :=
  if s.get (A.PORT_STAT p) F.PORT_STAT_XOFF = 1 then
    handOver p (pauseFrame s p (s.actF (A.PORT_PAUSE_CFG p) F.PORT_PAUSE_CFG_QUANTA)) s
  else s

/-- A received PAUSE with pause time `q` (R308). -/
def pauseReceived (p q : Nat) (s : State) : State :=
  let s := s.add64 (A.PORT_PAUSE_RX_LO p) 1
  if s.actF (A.PORT_MAC_CTRL p) F.PORT_MAC_CTRL_RX_PAUSE_EN = 0 then s
  else if q = 0 then
    portKick p ((s.setPort p { s.port p with hold := none }).put (A.PORT_STAT p) F.PORT_STAT_HELD 0)
  else if s.portHeld p then s
  else beginHold p (s.setPort p { s.port p with hold := some q })

/-- PAUSE_HOLD_END: the hold's quanta have passed (R308). -/
def pauseHoldEndOp (p : Nat) (s : State) : State :=
  if s.portHeld p then portKick p (s.put (A.PORT_STAT p) F.PORT_STAT_HELD 0) else s

/-! ### Queues (R318 to R324) -/

/-- An empty queue. -/
def QueueSt.init : QueueSt := ⟨[], false, false, false⟩

/-- Queue `q`. -/
def State.queue (s : State) (q : Nat) : QueueSt := amGet (fun _ => QueueSt.init) s.net.queues q

/-- Set queue `q`, with OCC and PKTS; watermark events and XOFF follow (R309, R324). -/
def State.setQueue (s : State) (q : Nat) (x : QueueSt) : State :=
  let was := s.get (A.Q_OCC q) F.Q_OCC_WORDS
  let n := x.words.length
  let hi := s.actF (A.Q_HIGH_WM q) F.Q_HIGH_WM_WORDS
  let lo := s.actF (A.Q_LOW_WM q) F.Q_LOW_WM_WORDS
  let rose := decide (was < hi) && decide (hi ≤ n)
  let fell := x.high && decide (n < lo)
  let x := { x with high := (x.high || rose) && !fell }
  let s := { s with net := { s.net with queues := amSet (fun _ => QueueSt.init) s.net.queues q x } }
  let s := s.wr (A.Q_OCC q) (w32 n)
  let s := s.wr (A.Q_PKTS q) (w32 (x.words.filter (·.eop)).length)
  let s := (s.raiseIf (was == 0 && n != 0) (P.Q q) 0).raiseIf rose (P.Q q) 1
  xoffSync (s.raiseIf fell (P.Q q) 2)

/-- The largest spill region of a queue (R318). -/
def maxSpill : Nat := 0x10000000

/-- The capacity of a queue in words (R318). -/
def State.queueCap (s : State) (q : Nat) : Nat :=
  128 + min (s.bufSize (s.actF (A.Q_SPILL_BUF q) F.Q_SPILL_BUF_BUF)) maxSpill / 8


/-- The words of a packet (R319): `src`, `kind`, `flags` in [51:37], `flow`, and its bytes, which arrived at `now`. -/
def packetWords (now src kind flags flow : Nat) (data : List Byte) : List Nat :=
  let n := data.length
  (src * 2 ^ 56 + kind * 2 ^ 52 + flags * 2 ^ 37 + flow * 2 ^ 40 + n % 65536) ::
    (secOf now % 2 ^ 32 * 2 ^ 32 + nsOf now) ::
    (List.range ((n + 7) / 8)).map fun i => leNat ((data.drop (8 * i)).take 8)

/-- A checked packet enters a queue, or is discarded where the queue is disabled or has no room (R319, R320). `flags` counts from
bit 37; `at_` is when it arrived (ns). -/
def queuePacket (q src kind flags flow : Nat) (data : List Byte) (at_ : Nat) (s : State) : State :=
  if s.actF (A.Q_CTRL q) F.Q_CTRL_EN = 0 ∨ s.offline (P.Q q) then s
  else
    let ws := packetWords at_ src kind flags flow data
    let x := s.queue q
    if s.queueCap q < x.words.length + ws.length then (s.inc (A.Q_OVF_DROP q)).raise (P.Q q) 3
    else
      let inj := s.injArmed (P.Q q) 4
      let s := if inj then s.injTake (P.Q q) 4 else s
      let n := ws.length
      let qs := ws.zipIdx.map fun y => (⟨BitVec.ofNat 64 y.1, y.2 == 0, y.2 + 1 == n, inj && y.2 == 0⟩ : QWord)
      (s.inc (A.Q_PKT_IN q)).setQueue q { x with words := x.words ++ qs }

/-- Whether a requester owns a queue (R321). -/
def State.ownsQueue (s : State) (r : Req) (q : Nat) : Bool := s.actF (A.Q_CTRL q) F.Q_CTRL_OWNER == reqIdx r

/-- A read of DATA_LO (R321, R322): the word's low half, and the state after. -/
def queuePop (r : Req) (q : Nat) (s : State) : Word × State :=
  if !s.ownsQueue r q then (0, s.guard1 (P.Q q) 31 0xC0 (some 0))
  else
    let x := s.queue q
    match x.words with
    | [] => (0, s.setBank (A.Q_TAG q) 0 r 0)
    | w :: ws =>
      let pp := w.bad || (!w.sop && x.poisoned)
      let tag := w32 (2 ^ 31 + w.sop.toNat * 2 ^ 30 + w.eop.toNat * 2 ^ 29 + w.bad.toNat * 2 ^ 28 + pp.toNat * 2 ^ 27)
      let s := s.setBank (A.Q_TAG q) 0 r tag
      let s := s.setBank (A.Q_DATA_HI q) 0 r (w.w.extractLsb' 32 32)
      let s := if w.bad then (s.inc (A.Q_POISON_CNT q)).raise (P.Q q) 4 else s
      (w.w.extractLsb' 0 32, s.setQueue q { x with words := ws, popped := !w.eop, poisoned := pp && !w.eop })

/-- Report a queue command. -/
def queueResult (q res n : Nat) (s : State) : State := s.wr (A.Q_CMD_RESULT q) (w32 (res * 2 ^ 28 + n))

/-- CMD DROP_PKT (R323). -/
def queueDrop (q : Nat) (s : State) : State :=
  let x := s.queue q
  if !x.popped then queueResult q 2 0 s
  else
    let rest := x.words.dropWhile fun w => !w.eop
    let ws := rest.drop 1
    queueResult q 1 (x.words.length - ws.length) (s.setQueue q { x with words := ws, popped := false, poisoned := false })

/-- CMD FLUSH (R323). -/
def queueFlush (q : Nat) (s : State) : State :=
  let x := s.queue q
  queueResult q 1 x.words.length (s.setQueue q { x with words := [], popped := false, poisoned := false })

/-- A write of Q.CMD (R323, R331). -/
def queueCmd (r : Req) (q : Nat) (v : Word) (s : State) : State :=
  let op := fget v ⟨3, 0⟩
  let inj := s.injArmed (P.Q q) 31
  let s := if inj then s.injTake (P.Q q) 31 else s
  if inj || !s.ownsQueue r q || (op != 1 && op != 2) then queueResult q 3 0 (s.guard1 (P.Q q) 31 0xC0 (some 0))
  else if op = 1 then queueDrop q s else queueFlush q s

/-- The queue is reset (R479): it is emptied without count, and a port that is in XOFF for it may leave XOFF. -/
def queueAbort (q : Nat) (s : State) : State :=
  xoffSync { s with net := { s.net with queues := amSet (fun _ => QueueSt.init) s.net.queues q QueueSt.init } }

end Sys2Proof.Machine
end

