-- ==== Sys2Proof/Machine/Ports.lean ====
section
/-!
DEFINITION. The ports: receiving (R302 to R304), flow matching (R137), links coming up and going down (R298, R301, R310), rate
step-down (R313 to R317), and frames leaving (R305 to R307).
-/
namespace Sys2Proof.Machine

/-! ### Bytes of a frame -/

/-- `n` bytes of a frame from offset `i` as a number, the first most significant. -/
def beAt (d : List Byte) (i n : Nat) : Nat := leNat ((d.drop i).take n).reverse

/-- A received frame's offset of its EtherType, behind an IEEE 802.1Q tag where it has one. -/
def etOff (d : List Byte) : Nat := if beAt d 12 2 = 0x8100 then 16 else 12

/-- A frame's EtherType (or length). -/
def etherType (d : List Byte) : Nat := beAt d (etOff d) 2

/-- The IPv4 header's offset, and the offset of what it carries. -/
def ipOff (d : List Byte) : Nat := etOff d + 2
def ipBody (d : List Byte) : Nat := ipOff d + beAt d (ipOff d) 1 % 16 * 4

/-- Whether a frame carries IPv4 with protocol `p`. -/
def isIp (d : List Byte) (p : Nat) : Bool :=
  etherType d == 0x0800 && beAt d (ipOff d) 1 / 16 == 4 && beAt d (ipOff d + 9) 1 == p

/-- Whether a frame carries IPv6 UDP. -/
def isUdp6 (d : List Byte) : Bool := etherType d == 0x86DD && beAt d (ipOff d + 6) 1 == 17

/-- The UDP destination port of a frame. -/
def udpPort (d : List Byte) : Nat := if isIp d 17 then beAt d (ipBody d + 2) 2 else beAt d (ipOff d + 42) 2

/-- Whether a frame carries UDP. -/
def isUdp (d : List Byte) : Bool := isIp d 17 || isUdp6 d

/-- The Internet checksum over bytes. -/
def ipSum (d : List Byte) : Nat :=
  let t := (List.range ((d.length + 1) / 2)).foldl (fun n i => n + (beAt (d ++ [0]) (2 * i) 2)) 0
  let t := t % 65536 + t / 65536
  65535 - (t % 65536 + t / 65536) % 65536

/-! ### The address filter (R303) -/

/-- One bit of an octet into the hash of R303. -/
def hashBit (c : Nat) (b : Nat) : Nat :=
  let m := (c / 2 ^ 31 + b) % 2
  let c := c * 2 % 2 ^ 32
  if m = 1 then c ^^^ 0x04C11DB7 else c

/-- The hash bin of a destination address. -/
def hashBin (dst : List Byte) : Nat :=
  dst.foldl (fun c d => (List.range 8).foldl (fun c k => hashBit c (d.toNat / 2 ^ k)) c) 0xFFFFFFFF / 2 ^ 23

/-- The Ethernet address of an IPv4 group. -/
def groupMac (ip : Nat) : Nat := 0x01005E000000 + ip % 2 ^ 23

/-- The group addresses whose bins the Krafohel sets for itself (R303). The PTP addresses are those of IEEE 1588 (PRESUMED). -/
def State.ownGroups (s : State) (p : Nat) : List Nat :=
  0x0180C2000001 ::
    ((if 64 ≤ p then [0x011B19000000, groupMac 0xE0000181] else []) ++
     (s.ingest.groups.filter fun g => g.1 == p).map fun g => groupMac g.2.1.toNat)

/-- Whether a destination passes the address filter of a port. -/
def State.passesFilter (s : State) (p : Nat) (d : List Byte) : Bool :=
  let dst := beAt d 0 6
  let ctl := s.act (A.PORT_MAC_CTRL p)
  let uc (k : Nat) : Bool :=
    let hi := s.act (A.PORT_UC_HI p k)
    bitOf hi 31 && hi.toNat % 65536 * 2 ^ 32 + (s.act (A.PORT_UC_LO p k)).toNat == dst
  let bin := hashBin (d.take 6)
  bitOf ctl 29 || dst == s.macAddr p || (List.range 16).any uc ||
    (if dst = 0xFFFFFFFFFFFF then bitOf ctl 28
     else dst / 2 ^ 40 % 2 == 1 &&
      (bitOf (s.act (A.PORT_GHASH p (bin / 32))) (bin % 32) || (s.ownGroups p).any fun g => hashBin (macBytes g) == bin))

/-! ### Delivery (R304) -/

/-- Bytes of a port's receive buffer (R302). -/
def rxCapacity (p : Nat) : Nat := if 64 ≤ p ∧ p < 70 then 512 * 1024 else 32 * 1024

/-- Whether a frame is Tuiper by R250. -/
def State.isTuiper (s : State) (d : List Byte) : Bool :=
  if s.actF A.TUIPER_CTRL F.TUIPER_CTRL_UDP = 1 then isIp d 17 && udpPort d == s.actF A.TUIPER_UDP_CFG F.TUIPER_UDP_CFG_PORT
  else etherType d == s.actF A.TUIPER_CTRL F.TUIPER_CTRL_ETYPE

/-- Whether a frame waits in the receive buffer for a consumer that has commands of its own: Tuiper, PTP, punty traffic, or flow
matching and the mailbox (R304). -/
def State.waitsForConsumer (s : State) (p : Nat) (d : List Byte) : Bool :=
  if p < 64 then s.isTuiper d
  else
    etherType d == 0x88F7 || (isUdp d && (udpPort d == 319 || udpPort d == 320)) ||
      ((p == 68 || p == 69) && etherType d == s.actF A.TWIN_PUNTY F.TWIN_PUNTY_ETYPE) ||
      ((p < 68 || p == 70) && isUdp d)

/-- When the oldest frame of a receive buffer arrived (2⁻³² ns); now where a message reaches its consumer without one. -/
def State.rxT (s : State) (p : Nat) : Nat := ((s.port p).rx.head?.map (·.2)).getD s.time.t

/-- The same in ns. -/
def State.rxAt (s : State) (p : Nat) : Nat := s.rxT p / 2 ^ 32

/-- The bytes that a receive buffer holds. -/
def PortSt.rxBytes (x : PortSt) : Nat := x.rx.foldl (fun n f => n + f.1) 0

/-- Whether the UDP checksum of an IPv4 frame is 0 or right (R252). -/
def udpOk (d : List Byte) : Bool :=
  let u := ipBody d
  let n := beAt d (u + 4) 2
  beAt d (u + 6) 2 == 0 ||
    ipSum ((d.drop (ipOff d + 12)).take 8 ++ [0, 17] ++ beBytes 2 n ++ (d.drop u).take n) == 0

/-- The oldest frame of a receive buffer is taken by its consumer. -/
def takeRx (p : Nat) (s : State) : State := s.setPort p { s.port p with rx := (s.port p).rx.drop 1 }

/-- The address an answer to `ip` goes to (R300): the asker's where it is inside the prefix, and otherwise what ARP resolves for
GW, which is outside the device: a free value. -/
def answerMac (p ip : Nat) (asker : List Byte) (s : State) : List Byte × State :=
  let own := (s.act (A.PORT_IPV4 p)).toNat
  let plen := 32 - s.actF (A.PORT_IPV4_CFG p) F.PORT_IPV4_CFG_PREFIX
  if own / 2 ^ plen = ip / 2 ^ plen then (asker, s)
  else
    let r := s.fresh (2 ^ 48)
    (macBytes r.1, r.2)

/-- An ARP request for the port is answered (R300). -/
def arpAnswer (p : Nat) (d : List Byte) (s : State) : State :=
  let o := etOff d + 2
  let asker := (d.drop (o + 8)).take 6
  let r := answerMac p (beAt d (o + 14) 4) asker s
  let own := beBytes 4 (s.act (A.PORT_IPV4 p)).toNat
  let me := macBytes (s.macAddr p)
  handOver p (plainFrame false (.bytes (r.1 ++ me ++ beBytes 2 0x0806 ++ beBytes 2 1 ++ beBytes 2 0x0800 ++ [6, 4] ++
    beBytes 2 2 ++ me ++ own ++ asker ++ (d.drop (o + 14)).take 4))) r.2

/-- An IPv4 header without options; identification and flags are free. -/
def ipHeader (dscp ttl proto src dst len : Nat) (s : State) : List Byte × State :=
  let r := s.fresh (2 ^ 16)
  let q := r.2.fresh 2
  let h (c : Nat) : List Byte := [0x45, BitVec.ofNat 8 (dscp * 4)] ++ beBytes 2 (20 + len) ++ beBytes 2 r.1 ++
    beBytes 2 (q.1 * 0x4000) ++ [BitVec.ofNat 8 ttl, BitVec.ofNat 8 proto] ++ beBytes 2 c ++ beBytes 4 src ++ beBytes 4 dst
  (h (ipSum (h 0)), q.2)

/-- An ICMP echo request to the port is answered (R300). The TTL of the answer is free. -/
def icmpAnswer (p : Nat) (d : List Byte) (s : State) : State :=
  let src := beAt d (ipOff d + 12) 4
  let r := answerMac p src ((d.drop 6).take 6) s
  let n := beAt d (ipOff d + 2) 2 - (ipBody d - ipOff d)
  let body := ((d.drop (ipBody d)).take n).drop 4
  let icmp (c : Nat) : List Byte := [0, 0] ++ beBytes 2 c ++ body
  let t := r.2.fresh 256
  let h := ipHeader 0 t.1 1 (s.act (A.PORT_IPV4 p)).toNat src n t.2
  handOver p (plainFrame false (.bytes (r.1 ++ macBytes (s.macAddr p) ++ beBytes 2 0x0800 ++ h.1 ++ icmp (ipSum (icmp 0))))) h.2

/-- A delivered frame goes to its consumer (R304). A Tuiper datagram whose UDP checksum is wrong is discarded (R252). IGMP queries are answered by a report (R138). -/
def deliver (p : Nat) (d : List Byte) (s : State) : State :=
  let own := (s.act (A.PORT_IPV4 p)).toNat
  let unclaimed := s.add64 (A.PORT_RX_UNCLAIMED_LO p) 1
  if etherType d = 0x8808 then
    if beAt d (etOff d + 2) 2 = 1 then pauseReceived p (beAt d (etOff d + 4) 2) s else unclaimed
  else if s.waitsForConsumer p d then
    if p < 64 ∧ (!s.tuiperOn ∨ (s.actF A.TUIPER_CTRL F.TUIPER_CTRL_UDP = 1 ∧ !udpOk d)) then s
    else s.setPort p { s.port p with rx := (s.port p).rx ++ [(d.length, s.time.t)] }
  else if etherType d = 0x0806 ∧ own ≠ 0 ∧ beAt d (etOff d + 26) 4 = own then
    if beAt d (etOff d + 8) 2 = 1 then arpAnswer p d s else s
  else if isIp d 1 ∧ own ≠ 0 ∧ beAt d (ipOff d + 16) 4 = own ∧ beAt d (ipBody d) 1 = 8 then icmpAnswer p d s
  else if isIp d 2 ∧ s.ingest.groups.any (fun g => g.1 == p) then
    if beAt d (ipBody d) 1 = 0x11 then
      (s.ingest.groups.filter fun g => g.1 == p).foldl (fun (t : State) g => handOver p (plainFrame false (.igmp true g.2.1 g.2.2)) t) s
    else s
  else unclaimed

/-! ### Preemption (R310 to R312) -/

/-- Set the verify state of a fixture link, with ACTIVE (R311). -/
def preemptState (p v : Nat) (s : State) : State :=
  let cfg := s.act (A.PORT_PREEMPT_CFG p)
  let was := s.get (A.PORT_PREEMPT_STAT p) F.PORT_PREEMPT_STAT_VERIFY
  let on := bitOf cfg 31 && (v == 3 || (bitOf cfg 30 && s.linkUp p))
  let s := s.wr (A.PORT_PREEMPT_STAT p) (w32 (on.toNat * 2 ^ 31 + v))
  s.raiseIf (v != was) (P.PORT p) 7

/-- The preemption settings of a port after an epoch: DISABLED without a handshake, INITIAL until the link next comes up. -/
def preemptEpoch (p : Nat) (s : State) : State :=
  let cfg := s.act (A.PORT_PREEMPT_CFG p)
  let v := s.get (A.PORT_PREEMPT_STAT p) F.PORT_PREEMPT_STAT_VERIFY
  if bitOf cfg 31 && !bitOf cfg 30 then preemptState p (if v = 0 then 1 else v) s else preemptState p 0 s

/-- The handshake begins when the link comes up: the first verify mPacket is sent. -/
def preemptUp (p : Nat) (s : State) : State :=
  let cfg := s.act (A.PORT_PREEMPT_CFG p)
  if bitOf cfg 31 && !bitOf cfg 30 then preemptState p 2 (s.setPort p { s.port p with tries := 1 }) else preemptState p 0 s

/-- A link that goes down returns the state to INITIAL. -/
def preemptDown (p : Nat) (s : State) : State :=
  let cfg := s.act (A.PORT_PREEMPT_CFG p)
  preemptState p (if bitOf cfg 31 && !bitOf cfg 30 then 1 else 0) s

/-- An mPacket of the handshake arrives: a verify is answered, a respond ends the handshake. -/
def mPacket (p : Nat) (respond : Bool) (s : State) : State :=
  if 64 ≤ p ∨ !bitOf (s.act (A.PORT_PREEMPT_CFG p)) 31 then s
  else if respond then
    if s.get (A.PORT_PREEMPT_STAT p) F.PORT_PREEMPT_STAT_VERIFY = 2 then preemptState p 3 s else s
  else s.setPort p { s.port p with responds := (s.port p).responds + 1 }

/-- VERIFY_TIMEOUT: another verify after VERIFY_MS, or FAILED after three (R310). -/
def verifyTimeoutOp (p : Nat) (s : State) : State :=
  if p < 64 ∧ s.get (A.PORT_PREEMPT_STAT p) F.PORT_PREEMPT_STAT_VERIFY = 2 then
    if (s.port p).tries < 3 then s.setPort p { s.port p with tries := (s.port p).tries + 1 } else preemptState p 4 s
  else s

/-! ### Receiving (R302) -/

/-- A bad frame: counted once, as an FCS, alignment or length error in that order of precedence, and placed in BAD_Q with all its error
flags where KEEP_BAD is 1. -/
def badFrame (p : Nat) (d : List Byte) (trunc fcs align len : Bool) (s : State) : State :=
  let a := if fcs then A.PORT_RX_FCS_ERR_LO p else if align then A.PORT_RX_ALIGN_ERR_LO p else A.PORT_RX_LEN_ERR_LO p
  let s := (s.add64 a 1).raise (P.PORT p) 1
  if s.actF (A.PORT_MAC_CTRL p) F.PORT_MAC_CTRL_KEEP_BAD = 1 then
    let flags := trunc.toNat * 2 ^ 14 + fcs.toNat * 2 ^ 13 + align.toNat * 2 ^ 12 + len.toNat * 2 ^ 11
    queuePacket (s.actF (A.PORT_MAC_CTRL p) F.PORT_MAC_CTRL_BAD_Q) p 0 flags 0xFF d s.nowNs s
  else s

/-- Whether a length/type field of 46 to 1,500 disagrees with the data received. -/
def lenError (d : List Byte) : Bool :=
  let n := beAt d 12 2
  decide (46 ≤ n) && decide (n ≤ 1500) && n != d.length - 14

/-- PORT_FRAME_RECEIVE (R302): the checks in order, and delivery. -/
def portReceiveOp (p : Nat) (f : RxFrame) (s : State) : State :=
  if 71 ≤ p ∨ !s.portOn p then s
  else
    match f.kind with
    | .verify => mPacket p false s
    | .respond => mPacket p true s
    | .frame =>
      if f.asmErr && decide (p < 64) && bitOf (s.act (A.PORT_PREEMPT_CFG p)) 31 then s.add64 (A.PORT_RX_ASM_ERR_LO p) 1
      else
        let n := f.data.length + 4
        let s := (s.add64 (A.PORT_RX_FRAMES_LO p) 1).add64 (A.PORT_RX_BYTES_LO p) n
        let mx := s.actF (A.PORT_MAC_CTRL p) F.PORT_MAC_CTRL_MAX_FRAME
        if n < 18 then (s.add64 (A.PORT_RX_RUNT_LO p) 1).raise (P.PORT p) 1
        else
          let trunc := decide (mx < n)
          let d := f.data.take mx
          let s := if trunc then (s.add64 (A.PORT_RX_TRUNC_LO p) 1).raise (P.PORT p) 2 else s
          let r := s.detect (P.PORT p) 1 f.fcsErr
          if r.1 || f.alignErr || lenError f.data then badFrame p d trunc r.1 f.alignErr (lenError f.data) r.2
          else if !r.2.passesFilter p d then r.2.add64 (A.PORT_RX_FILTERED_LO p) 1
          else
            let q := r.2.detect (P.PORT p) 3 (rxCapacity p < (r.2.port p).rxBytes + d.length)
            if q.1 then (q.2.add64 (A.PORT_RX_OVF_LO p) 1).raise (P.PORT p) 3
            else deliver p d q.2

/-! ### Flow matching (R137) -/

/-- Whether a context of types 1, 2, 3 and 5 matches a datagram. -/
def State.flowMatches (s : State) (f p : Nat) (d : Datagram) : Bool :=
  let cfg := s.act (A.FLOW_CFG f)
  let ty := s.flowType f
  let vlan := fget cfg ⟨11, 0⟩
  (ty == 1 || ty == 2 || ty == 3 || ty == 5) && (if p = 70 then bitOf cfg 19 else bitOf cfg (20 + (p - 64))) &&
    (vlan == 0 || vlan == d.vlan) &&
    (s.act (A.FLOW_DST_IP f) == d.dstIp || (s.act (A.FLOW_DST_IP2 f) == d.dstIp && s.act (A.FLOW_DST_IP2 f) != 0)) &&
    s.actF (A.FLOW_PORT f) F.FLOW_PORT_DST_PORT == d.dstPort &&
    (s.act (A.FLOW_SRC_IP f) == 0 || s.act (A.FLOW_SRC_IP f) == d.srcIp)

/-- The membership of groups after an epoch (R138): a report joins a group that a context newly names, and a group that none names any
longer is left. -/
def groupsEpoch (s : State) : State :=
  let old := s.ingest.groups
  let want := s.wantedGroups
  let send (join : Bool) (l : List (Nat × Word × Word)) (s : State) : State :=
    l.foldl (fun (t : State) g => handOver g.1 (plainFrame false (.igmp join g.2.1 g.2.2)) t) s
  let s := send false (old.filter fun g => !want.contains g) s
  send true (want.filter fun g => !old.contains g) { s with ingest := { s.ingest with groups := want } }

/-- FLOW_MATCH: PTP messages never reach flow matching; the first matching context takes the datagram (R137); a truncated one is discarded and counted in its flow's DISCARD
(R304). A QUEUE flow's datagram goes to its queue; those of other types act by their own commands. -/
def flowMatchOp (p : Nat) (d : Datagram) (s : State) : State :=
  if !((64 ≤ p ∧ p < 68) ∨ p = 70) ∨ !s.portOn p then s
  else
    let at_ := s.rxAt p
    let s := takeRx p s
    if !s.ingestEn || d.dstPort == 319 || d.dstPort == 320 then s
    else
      let hit := if d.ipv6 then none else (s.flowsLive.filter fun f => s.flowMatches f p d).head?
      match hit with
      | some f =>
        if d.trunc then s.flowDiscard f
        else if s.flowType f = 5 then
          queuePacket (s.actF (A.FLOW_CFG f) F.FLOW_CFG_QUEUE) p 1 0 f d.payload at_ (s.flowUnit f)
        else if s.flowType f = 3 ∧ beAt d.payload 3 1 = 4 then
          { s with ingest := { s.ingest with userAt := s.ingest.userAt ++ [(f, at_)] } }
        else s
      | none =>
        let s := (s.inc A.INGEST_UNMATCHED).raise P.INGEST 0
        if s.actF A.INGEST_CTRL F.INGEST_CTRL_DQ_EN = 1 then
          queuePacket (s.actF A.INGEST_CTRL F.INGEST_CTRL_DEFAULT_Q) p 1 (d.trunc.toNat * 2 ^ 14 + 4) 0xFF d.payload at_ s
        else s

/-- USER: an accepted console datagram goes whole to the flow's queue (R155), with the time of its arrival. -/
def userOp (f : Nat) (ws : List Word) (bytes : Nat) (s : State) : State :=
  let at_ := ((s.ingest.userAt.find? fun u => u.1 == f).map (·.2)).getD s.nowNs
  let s := { s with ingest := { s.ingest with userAt := s.ingest.userAt.eraseP fun u => u.1 == f } }
  let r := consoleAccept f 4 ws bytes s
  match r.1 with
  | none => r.2
  | some _ => queuePacket (r.2.actF (A.FLOW_CFG f) F.FLOW_CFG_QUEUE) 0xFF 1 0 f ((wordBytes ws).take bytes) at_ r.2

/-! ### Rates (R298, R313) -/

/-- Mb/s of a rate code. -/
def rateMbps (c : Nat) : Nat :=
  match c with
  | 1 => 1000
  | 2 => 2500
  | 3 => 5000
  | 4 => 10000
  | 5 => 25000
  | 6 => 100
  | 7 => 10
  | _ => 0

/-- Whether a port or its lane is withdrawn from service: its link is then down (R404, R427). -/
def State.portOut (s : State) (p : Nat) : Bool := s.offline (P.PORT p) || (decide (p < 70) && s.offline (P.LANE p))

/-- Whether a port comes up at a rate (R298). -/
def State.rateOk (s : State) (p rate : Nat) : Bool :=
  let mode := s.actF (A.PORT_PHY_CFG p) F.PORT_PHY_CFG_MODE
  if p < 64 then
    if mode = 0 then decide (1 ≤ rate) && decide (rate ≤ 4) && bitOf (s.act (A.PORT_PHY_CFG p)) (23 + rate)
    else if mode = 1 then rate == 4 else mode == 2 && rate == 1
  else if p < 70 then (if mode = 2 then rate == 4 else mode != 3 && rate == 5)
  else rate == 1 || rate == 6 || rate == 7

/-- Whether both ends advertise a rate code. -/
def State.bothAdv (s : State) (p c : Nat) : Bool :=
  bitOf (s.act (A.PORT_PHY_CFG p)) (23 + c) && (s.port p).partner / 2 ^ (c - 1) % 2 == 1

/-- The highest rate both ends advertise (R313); in other modes the rate the link is up at. -/
def State.rateMax (s : State) (p rate : Nat) : Nat :=
  if s.actF (A.PORT_PHY_CFG p) F.PORT_PHY_CFG_MODE = 0 then
    ([4, 3, 2, 1].filter fun c => s.bothAdv p c).headD rate
  else rate

/-- Clear the path-delay values of every fixture of a link that comes up (R346): STATUS and VALUES of its entries. -/
def pathClear (p : Nat) (s : State) : State :=
  let b := s.actF A.TIME_PATH_BUF ⟨11, 0⟩
  let base := s.bufBase b + p * 4096 * 64
  let lim := s.bufBase b + s.bufSize b
  let hit (a : Nat) : Bool :=
    let o := (a - base) % 64
    decide (base ≤ a) && decide (a < base + 4096 * 64) && decide (a < lim) &&
      ((decide (4 ≤ o) && decide (o < 8)) || (decide (16 ≤ o) && decide (o < 48)))
  let s := if b = nullBuf then s else { s with mem := s.mem.filter fun x => !hit x.1 }
  let s := { s with time := { s.time with mpdRuns := s.time.mpdRuns.filter fun x => x.1 / 4096 != p } }
  s.inc A.TIME_LINK_CLEAR

/-- The receiver of a port's lane is locked while its link is up (R408; log entry 25). MG0 has no lane. -/
def laneLock (p v : Nat) (s : State) : State := if p < 70 then s.put (A.LANE_STAT p) F.LANE_STAT_LOCKED v else s

/-- A port's link comes up at a rate: STAT, the verify handshake, and on a fixture link the path-delay store. -/
def linkIsUp (p rate : Nat) (s : State) : State :=
  let s := laneLock p 1 (s.put (A.PORT_STAT p) F.PORT_STAT_LINK_UP 1)
  let s := s.put (A.PORT_STAT p) F.PORT_STAT_RATE rate
  let s := s.raise (P.PORT p) 0
  let s := s.setPort p { s.port p with upAt := s.nowNs, upTrig := false }
  let s := if p < 64 then pathClear p (preemptUp p (s.put (A.PORT_RATE_STAT p) F.PORT_RATE_STAT_UP_WANT 0)) else s
  portFault p s

/-- The state of R313 once a link is up outside a renegotiation, or at the end of one. -/
def rateState (p rate : Nat) (s : State) : State :=
  s.put (A.PORT_RATE_STAT p) F.PORT_RATE_STAT_STATE
    (if rate < s.get (A.PORT_RATE_STAT p) F.PORT_RATE_STAT_RATE_MAX then 1 else 0)

/-- A renegotiation fails (R317): the Jack core renegotiates with the full ADV, and no step-down follows for a while. -/
def renegFail (p : Nat) (s : State) : State :=
  let s := (s.inc (A.PORT_RENEG_FAIL p)).raise (P.PORT p) 9
  s.setPort p { s.port p with target := none, noStep := some (s.actF (A.PORT_RATE_CFG p) F.PORT_RATE_CFG_REST_WINDOW) }

/-- LINK_UP: a link comes up at a rate that the port allows (R298); the end or failure of a renegotiation (R317). -/
def linkUpOp (p rate adv : Nat) (s : State) : State :=
  if 71 ≤ p ∨ s.linkUp p ∨ !s.rateOk p rate ∨ s.portOut p then s
  else
    let s := s.setPort p { s.port p with partner := adv }
    if 64 ≤ p then linkIsUp p rate s
    else if s.inReneg p then
      match (s.port p).target with
      | some t =>
        if rate = t then
          let up := rate == s.get (A.PORT_RATE_STAT p) F.PORT_RATE_STAT_RATE_MAX
          let s := if up then s.inc (A.PORT_STEP_UP p) else s.inc (A.PORT_STEP_DOWN p)
          let s := rateState p rate (s.setPort p { s.port p with target := none })
          (linkIsUp p rate s).raise (P.PORT p) 8
        else renegFail p s
      | none =>
        let s := s.put (A.PORT_RATE_STAT p) F.PORT_RATE_STAT_RATE_MAX (s.rateMax p rate)
        (linkIsUp p rate (rateState p rate s)).raise (P.PORT p) 8
    else
      let s := s.put (A.PORT_RATE_STAT p) F.PORT_RATE_STAT_RATE_MAX (s.rateMax p rate)
      linkIsUp p rate (rateState p rate s)

/-- A port's link goes down (R301): frames waiting are discarded, one being sent is lost. -/
def linkIsDown (p : Nat) (s : State) : State :=
  let s := laneLock p 0 (s.put (A.PORT_STAT p) F.PORT_STAT_LINK_UP 0)
  let s := s.put (A.PORT_STAT p) F.PORT_STAT_RATE 0
  let s := s.put (A.PORT_STAT p) F.PORT_STAT_HELD 0
  let s := discardWaiting p true (s.raise (P.PORT p) 0)
  freqSync (portFault p (if p < 64 then preemptDown p s else s))

/-- LINK_DOWN. -/
def linkDownOp (p : Nat) (s : State) : State := if 71 ≤ p ∨ !s.linkUp p then s else linkIsDown p s

/-- RENEG_TIMEOUT: the link has not come up at its target within 3 s (R317). -/
def renegTimeoutOp (p : Nat) (s : State) : State :=
  if p < 64 ∧ s.inReneg p ∧ (s.port p).target.isSome then renegFail p s else s

/-- The Jack core begins a renegotiation to a rate: the link goes down (R317). -/
def renegBegin (p target : Nat) (s : State) : State :=
  let s := s.put (A.PORT_RATE_STAT p) F.PORT_RATE_STAT_STATE 2
  let s := s.put (A.PORT_RATE_STAT p) F.PORT_RATE_STAT_UP_WANT 0
  linkIsDown p (s.setPort p { s.port p with target := some target })

/-- The books of an engine frame on a fixture link are closed at its latch point: REST_CNT and LOAD (R314, R315). `sent`: the engine
sent on the link; `gap`: the frame is counted in GAP_CNT. -/
def restClose (p period : Nat) (loss sent gap : Bool) (s : State) : State :=
  let x := s.port p
  let changed := loss || x.moved || (sent && (match x.lastCrc with | some c => c != x.crc | none => true))
  let win := s.actF (A.PORT_RATE_CFG p) F.PORT_RATE_CFG_REST_WINDOW
  let loads := (x.bytes :: x.loads).take win
  let rest := s.get (A.PORT_RATE_STAT p) F.PORT_RATE_STAT_REST_CNT
  let s := if gap then s
    else s.put (A.PORT_RATE_STAT p) F.PORT_RATE_STAT_REST_CNT (if changed then 0 else min 65535 (rest + 1))
  let mbps := loads.foldl max 0 * 8 * 1000 / period
  let s := s.wr (A.PORT_LOAD p) (w32 (min mbps (2 ^ 21 - 1)))
  let full := s.get (A.PORT_STAT p) F.PORT_STAT_RATE == s.get (A.PORT_RATE_STAT p) F.PORT_RATE_STAT_RATE_MAX && s.linkUp p
  let trig := (!gap && changed) ||
    decide (7 * rateMbps (s.get (A.PORT_STAT p) F.PORT_STAT_RATE) ≤ 10 * mbps)
  s.setPort p { x with loads := loads, bytes := 0, crc := 0, moved := false, lastCrc := if sent then some x.crc else x.lastCrc,
                       noStep := if full then (match x.noStep with | some (n + 1) => some n | _ => none) else x.noStep,
                       upTrig := x.upTrig || (s.linkUp p && trig) }

/-- The Jack core's decision at a latch point (R316), none while the core is being reloaded (R422). `inSet`: a fixture of the link is a member of an enabled set. -/
def rateDecide (p period : Nat) (inSet : Bool) (s : State) : State :=
  let x := s.port p
  let st := s.get (A.PORT_RATE_STAT p) F.PORT_RATE_STAT_STATE
  let rate := s.get (A.PORT_STAT p) F.PORT_STAT_RATE
  let cfg := s.act (A.PORT_RATE_CFG p)
  let dwell := decide (x.upAt + 2 * 10 ^ 9 ≤ s.nowNs)
  let load := x.loads.foldl max 0 * 8 * 1000
  if !s.linkUp p || st == 2 || bitOf (s.rd A.GAFFER_JACK_STAT) (8 + p / 8) then s
  else if st == 1 && x.upTrig then
    if dwell then renegBegin p (s.get (A.PORT_RATE_STAT p) F.PORT_RATE_STAT_RATE_MAX) s
    else s.put (A.PORT_RATE_STAT p) F.PORT_RATE_STAT_UP_WANT 1
  else
    match ([4, 3, 2, 1].filter fun c => decide (c < rate) && s.bothAdv p c).head? with
    | some c =>
      if bitOf cfg 31 && s.actF (A.PORT_PHY_CFG p) F.PORT_PHY_CFG_MODE == 0 && decide (fget cfg F.PORT_RATE_CFG_RATE_MIN ≤ c) &&
          decide (fget cfg F.PORT_RATE_CFG_REST_WINDOW ≤ s.get (A.PORT_RATE_STAT p) F.PORT_RATE_STAT_REST_CNT) &&
          decide (10 * load < 4 * rateMbps c * period) && dwell && !inSet && x.noStep.isNone then renegBegin p c s
      else s
    | none => s

/-! ### A frame leaves (R305 to R307) -/

/-- Tuiper words in their encapsulation (R251, R252). -/
def tuiperBytes (p l : Nat) (ws : List Word) (s : State) : List Byte × State :=
  let me := macBytes (s.macAddr p)
  let body := wordBytes ws
  let ctl := s.act A.TUIPER_CTRL
  if bitOf ctl 30 then
    let g := (s.act A.TUIPER_UDP_GROUP).toNat + l
    let cfg := s.act A.TUIPER_UDP_CFG
    let port := fget cfg F.TUIPER_UDP_CFG_PORT
    let udp := beBytes 2 port ++ beBytes 2 port ++ beBytes 2 (8 + body.length) ++ beBytes 2 0 ++ body
    let ty := tuiperType ws
    let h := ipHeader (if ty = 2 ∨ ty = 9 then 46 else 34) (fget cfg F.TUIPER_UDP_CFG_TTL) 17 (s.act (A.PORT_IPV4 p)).toNat g
      udp.length s
    (macBytes (groupMac g) ++ me ++ beBytes 2 0x0800 ++ h.1 ++ udp, h.2)
  else
    let da := (s.actF A.TUIPER_DA_HI F.TUIPER_DA_HI_OCT01 * 2 ^ 24 + s.actF A.TUIPER_DA_LO F.TUIPER_DA_LO_OCT234) * 256 + l
    let tag := if bitOf ctl 29 then beBytes 2 0x8100 ++ beBytes 2 (fget ctl F.TUIPER_CTRL_VLAN) else []
    (macBytes da ++ me ++ tag ++ beBytes 2 (fget ctl F.TUIPER_CTRL_ETYPE) ++ body, s)

/-- The bytes of a frame from the destination address on, padded to the minimum, and its length with the FCS. -/
def frameBytes (p : Nat) (f : TxFrame) (s : State) : (List Byte × Nat) × State :=
  let pad (d : List Byte) : List Byte := d ++ List.replicate (60 - d.length) 0
  match f.body with
  | .bytes d => ((pad d, (pad d).length + 4), s)
  | .tuiper l ws =>
    let r := tuiperBytes p l ws s
    ((pad r.1, (pad r.1).length + 4), r.2)
  | .delayReq _ _ ether _ => (([], if ether then 64 else 90), s)
  | .igmp .. | .standard =>
    let r := s.fresh (1522 - 63)
    (([], 64 + r.1), r.2)

/-- The frame in progress has left its port: counters, truncation to MAX_FRAME bytes before the FCS (R306) and what the rate decisions
count. -/
def frameLeft (p : Nat) (f : TxFrame) (s : State) : State :=
  let r := frameBytes p f s
  let s := r.2
  let mx := s.actF (A.PORT_MAC_CTRL p) F.PORT_MAC_CTRL_MAX_FRAME
  let n := min (mx + 4) r.1.2
  let s := (s.add64 (A.PORT_TX_FRAMES_LO p) 1).add64 (A.PORT_TX_BYTES_LO p) n
  let s := if mx + 4 < r.1.2 then s.add64 (A.PORT_TX_TRUNC_LO p) 1 else s
  let s := if f.pause then s.add64 (A.PORT_PAUSE_TX_LO p) 1 else s
  s.setPort p { s.port p with cur := none, last := r.1.1.take mx, bytes := (s.port p).bytes + n + 20 }

/-- The frame in progress of a port leaves, an interrupted one goes on, and the next begins. -/
def portSentNow (p : Nat) (s : State) : State :=
  match (s.port p).cur with
  | some f =>
    let s := frameLeft p f s
    portKick p s
  | none => s

/-! ### The DMX ports -/

/-- A DMX port nothing has used. -/
def DmxPort.init : DmxPort := ⟨[], false, [], none, 0, false, false⟩

/-- DMX port `n`. -/
def State.dmxPort (s : State) (n : Nat) : DmxPort := amGet (fun _ => DmxPort.init) s.net.dmx n

/-- Set DMX port `n`. -/
def State.setDmx (s : State) (n : Nat) (x : DmxPort) : State :=
  { s with net := { s.net with dmx := amSet (fun _ => DmxPort.init) s.net.dmx n x } }

end Sys2Proof.Machine
end

