-- ==== Sys2Proof/Machine/Scan.lean ====
section
/-!
DEFINITION. The scan engines (R216 to R249) and the packing of engine frames (R254, R256, R258 to R267, R293, R294).
A walk runs as far as cells are available, waits there, and goes on when a command says so.
-/
namespace Sys2Proof.Machine

/-! ### Krafohel time -/

/-- Let TIMECLK run until the first tick at or after `target` (2⁻³² ns). -/
def advanceT (target : Nat) (s : State) : State :=
  let n := (target - s.time.t + s.time.incr - 1) / s.time.incr
  { s with time := { s.time with t := s.time.t + n * s.time.incr, ticks := s.time.ticks + n } }

/-- Let TIMECLK run until the first tick at or after a time in ns. -/
def advanceNs (target : Nat) (s : State) : State := advanceT (target * 2 ^ 32) s

/-! ### Sets, as the engines read them (R292 to R294) -/

/-- A set that is NORMAL. -/
def SetSt.init : SetSt := ⟨0, 0, 0, 0, none⟩

/-- The state of a set. -/
def State.setOf (s : State) (i : Nat) : SetSt := amGet (fun _ => SetSt.init) s.tuiper.setSt i

/-- The set a fixture is a member of, where it is an enabled one. -/
def State.setOfFix (s : State) (fix : Nat) : Option SetDef := s.tuiper.sets.find? fun d => d.members.contains fix

/-- Whether a set applies its fallback: by its own state, or in a partner as the HEAD in use gives it (R369). -/
def State.setDown (s : State) (i : Nat) : Bool :=
  match s.twin.usedHead with
  | some h => bitOf (h.getD (4 + 74 + i / 32) 0) (i % 32)
  | none => (s.setOf i).state != 0

/-- The set whose fallback a fixture shows, if any. -/
def State.fallback (s : State) (fix : Nat) : Option SetDef :=
  match s.setOfFix fix with
  | some d => if s.setDown d.id then some d else none
  | none => none

/-- The fallback of a set for a cell of format `fmt` (R294). -/
def SetDef.cell (d : SetDef) (fmt : Nat) : Nat :=
  let w (i : Nat) : Nat := d.words.getD i 0
  if fmt = 1 ∨ fmt = 2 then w 5 % 2 ^ 32 * 2 ^ 32 + w 4
  else if w 0 / 2 ^ 30 % 2 = 0 then 0
  else
    let base := if fmt = 3 then 4 else 0
    (List.range 4).foldl (fun v e => v + (if w 2 / 2 ^ (24 + base + e) % 2 = 1 then w 3 / 2 ^ 16 else 0) * 2 ^ (16 * e)) 0

/-- The fallback current codes of a set. -/
def SetDef.codes (d : SetDef) : List Nat :=
  let w (i : Nat) : Nat := d.words.getD i 0
  (List.range 8).map fun e => if w 0 / 2 ^ 30 % 2 = 1 ∧ w 2 / 2 ^ (24 + e) % 2 = 1 then w 3 % 4096 else 0

/-! ### Path delays (R245, R346) -/

/-- The address of a fixture's entry in the path-delay store, where it fits. -/
def State.pathEntry (s : State) (fix : Nat) : Option Nat :=
  let b := s.actF A.TIME_PATH_BUF ⟨11, 0⟩
  if b = nullBuf ∨ s.bufSize b < fix * 64 + 64 then none else some (s.bufBase b + fix * 64)

/-- A fixture's measurement, where its entry is VALID. -/
def State.pathDelay (s : State) (fix : Nat) : Option Nat :=
  match s.pathEntry fix with
  | none => none
  | some a =>
    let st := s.mem32 (a + 4)
    let age := (secOf s.nowNs + 2 ^ 32 - s.mem32 (a + 8)) % 2 ^ 32
    if 4 ≤ st / 2 ^ 24 % 16 ∧ st % 2 ^ 24 ≤ s.actF A.TIME_MPD_SPREAD F.TIME_MPD_SPREAD_NS ∧
        age ≤ s.actF A.TIME_FM_CFG F.TIME_FM_CFG_MPD_AGE_S then some (s.mem32 a) else none

/-- The larger of two path delays. -/
def maxOpt (a b : Option Nat) : Option Nat :=
  match a, b with
  | some x, some y => some (max x y)
  | some x, none => some x
  | none, b => b

/-- PATH_DLY of one link, as its register shows it. -/
def State.pathReg (s : State) (e j : Nat) : Option Nat :=
  let w := s.rd (A.SCAN_PATH_DLY e j)
  if bitOf w 31 then some (fget w ⟨23, 0⟩) else none

/-- VALID of every path-delay entry that holds values, brought up to date as age and the limits of R346 say. -/
def pathAges (s : State) : State :=
  let b := s.actF A.TIME_PATH_BUF ⟨11, 0⟩
  if b = nullBuf then s
  else
    let lo := s.bufBase b
    let cells := s.mem.filter fun c => decide (lo ≤ c.1) && decide (c.1 < lo + 2 ^ 24) && (c.1 - lo) % 64 == 7
    cells.foldl (fun t c =>
      t.memWB c.1 (BitVec.ofNat 8 (c.2.toNat % 128 + (s.pathDelay ((c.1 - lo) / 64)).isSome.toNat * 128))) s

/-- PATH_DLY of every link, taken at a boundary (R245). -/
def pathBoundary (rd : Nat → Word) (s : State) : State :=
  let s := pathAges s
  (List.range 64).foldl (fun t l =>
    let e := l / 8
    let j := l % 8
    let fs := (t.linkEntries rd e j).1.eraseDups.map fun i => l * 4096 + i
    let m := fs.foldl (fun m f => maxOpt m (t.pathDelay f)) none
    t.wr (A.SCAN_PATH_DLY e j) (match m with
      | some d => w32 (2 ^ 31 + d % 2 ^ 24)
      | none => 0)) s

/-! ### Engines: settings -/

/-- The settings an engine runs by: a device-rate engine those of frame N, an own-rate engine those taken at its latch point. -/
def State.engRd (s : State) (e : Nat) (own : Bool) : Nat → Word :=
  if own then amGet resetOf (s.engine e).set else s.prv

/-- Whether settings make an engine own-rate. -/
def ownRate (rd : Nat → Word) (e : Nat) : Bool :=
  fldBy rd (A.SCAN_CTRL e) F.SCAN_CTRL_SYNC == 1 && fldBy rd (A.SCAN_CTRL e) F.SCAN_CTRL_CLASS == 1

/-- Whether settings enable an engine. -/
def engOn (rd : Nat → Word) (e : Nat) : Bool := fldBy rd (A.SCAN_CTRL e) F.SCAN_CTRL_EN == 1

/-- LATCH_USED at a boundary: the target against its minimum, and falls of at most F/2 (R16, R242). -/
def latchStep (old : Option Nat) (want least period : Nat) : Nat :=
  let tgt := max want least
  match old with
  | some o => if tgt < o then max tgt (o - period / 2) else tgt
  | none => tgt

/-- PATH_MAX and LATCH_USED of the frame that begins (R241, R242): `rd` reads the settings that govern it. -/
def latchBoundary (rd : Nat → Word) (frame period : Nat) (s : State) : State :=
  let s := pathBoundary rd s
  let ls := (List.range 64).filter fun l =>
    engOn rd (l / 8) && !ownRate rd (l / 8) && !s.offline (P.SCAN (l / 8)) && !(s.linkEntries rd (l / 8) (l % 8)).1.isEmpty
  let best := ls.foldl (fun b l =>
    match s.pathReg (l / 8) (l % 8), b with
    | some d, some (_, v) => if v < d then some (l, d) else b
    | some d, none => some (l, d)
    | none, b => b) (none : Option (Nat × Nat))
  let s := s.wr A.SCAN0_PATH_MAX (match best with | some (l, d) => w32 (l * 2 ^ 24 + d) | none => 0)
  let least := 2 * period + (match best with | some (_, d) => d | none => 0)
  let want := (rd A.SCAN0_LATCH_DELAY).toNat
  let clip := decide (want < least)
  let old := s.scan.latchUsed
  let used := latchStep old want least period
  let rose := match old with | some o => clip && decide (o < used) | none => false
  let s := if clip then s.guard1 (P.SCAN 0) 29 0x87 (some 7) else s
  let s := s.raiseIf rose (P.SCAN 0) 6
  let s := s.wr A.SCAN0_LATCH_USED (w32 used)
  { s with scan := { s.scan with latchUsed := some used, latchClip := clip, pts := (frame, s.time.boundary + used) :: s.scan.pts.take 15 }
           time := { s.time with ptNow := s.time.boundary + used } }

/-- PT(N) of a frame. -/
def State.ptOf (s : State) (frame : Nat) : Nat :=
  match s.scan.pts.find? fun p => p.1 == frame with
  | some p => p.2
  | none => s.time.boundary + (s.rd A.SCAN0_LATCH_USED).toNat

/-- Whether the lock of the pair of engine `e` is asked for and fails (R218). -/
def State.lockBad (s : State) (e : Nat) : Bool := (s.lockOf s.act e).1 && !(s.lockOf s.act e).2

/-- STAT of the pair of engines `e` and `e + 1` shows its lock (R218). -/
def lockShow (e : Nat) (s : State) : State :=
  let on := (s.lockOf s.act e).2.toNat
  let bad := s.lockBad e
  let s := s.put (A.SCAN_STAT e) F.SCAN_STAT_LOCK_BAD bad.toNat
  let s := (s.put (A.SCAN_STAT e) F.SCAN_STAT_LOCKED on).put (A.SCAN_STAT (e + 1)) F.SCAN_STAT_LOCKED on
  s.setFault (P.SCAN e) (bad || s.get (A.SCAN_STAT e) F.SCAN_STAT_LOSS == 1)

/-- The lock of each pair after an epoch (R218). -/
def lockEpoch (s : State) : State :=
  [0, 2, 4, 6].foldl (fun t e =>
    lockShow e (if t.lockBad e then (t.guard1 (P.SCAN e) 31 0x86 (some 6)).raise (P.SCAN e) 5 else t)) s

/-- LMAP_USED of every link after an epoch (R220). -/
def lmapEpoch (s : State) : State :=
  (List.range 64).foldl (fun t l =>
    let r := t.linkEntries t.act (l / 8) (l % 8)
    let t := t.wr (A.SCAN_LMAP_USED (l / 8) (l % 8)) (w32 r.1.length)
    if r.2 then t.guard1 (P.SCAN (l / 8)) 29 0x85 (some 5) else t) s

/-! ### Walks: small operations -/

/-- No walk. -/
def LinkWalk.init (j : Nat) (todo : List Nat) : LinkWalk :=
  ⟨j, todo, none, none, none, none, none, [], none, 0, none, false, false, false, false⟩

/-- The walk of a link in the engine frame in progress. -/
def State.walk (s : State) (e j : Nat) : LinkWalk :=
  match (s.engine e).cur with
  | some f => (f.links.find? fun l => l.j == j).getD (LinkWalk.init j [])
  | none => LinkWalk.init j []

/-- Change the engine frame in progress. -/
def State.onFrame (s : State) (e : Nat) (g : EngFrame → EngFrame) : State :=
  match (s.engine e).cur with
  | some f => s.setEngine e { s.engine e with cur := some (g f) }
  | none => s

/-- Change the walk of a link. -/
def State.onWalk (s : State) (e j : Nat) (g : LinkWalk → LinkWalk) : State := s.onFrame e fun f => f.setLink j g

/-- The presentation time carried on a link: PT + LINK_TRIM (R244). -/
def State.ptLink (s : State) (rd : Nat → Word) (e j pt : Nat) : Nat :=
  let _ := s
  ((pt : Int) + fgetS (rd (A.SCAN_LINK_TRIM e j)) F.SCAN_LINK_TRIM_NS).toNat

/-- What an open frame of an engine frame does when it begins: nothing yet. -/
def EngTx.init (e j num : Nat) : EngTx := ⟨e, j, num, [], [], 0, 0, [], 0, 0, false, false, []⟩

/-- A frame without records. -/
def OpenFrame.init (e j num : Nat) : OpenFrame := ⟨[], 0, EngTx.init e j num⟩

/-- Whether an engine frame in progress is own-rate. -/
def State.curOwn (s : State) (e : Nat) : Bool :=
  match (s.engine e).cur with
  | some _ => !(s.engine e).set.isEmpty
  | none => false

/-- The settings of the engine frame in progress. -/
def State.curRd (s : State) (e : Nat) : Nat → Word := s.engRd e (s.curOwn e)

/-- The header of a frame of an engine frame (R254), with SEQ to be filled in. -/
def engHeader (s : State) (e j type len count : Nat) (f : EngFrame) : List Word :=
  let pt := s.ptLink (s.curRd e) e j f.pt
  [w32 (2 ^ 28 + type * 2 ^ 24 + f.partner.toNat * 2 ^ 17 + len), 0,
   w32 (s.get A.TUIPER_SESSION F.TUIPER_SESSION_SESSION * 65536 + (8 * e + j) * 256),
   w32 (secOf pt / 2 ^ 32), w32 (secOf pt), w32 (nsOf pt), w32 f.fld, w32 (count * 65536)]

/-- Hand a frame of an engine frame to its port; nothing is begun after the send end (R238) or on a muted link (R370). -/
def sendFrame (e j type : Nat) (o : OpenFrame) (s : State) : State :=
  match (s.engine e).cur with
  | none => s
  | some f =>
    let w := s.walk e j
    if w.ended || w.muted || f.mute then s
    else
      let ws := engHeader s e j type (32 + 4 * o.body.length) o.count f ++ o.body
      handOver (8 * e + j) ⟨type == 2, .tuiper (8 * e + j) ws, some o.tx, false, none, false⟩ s

/-- Close the open CURRENT frame of a link and hand it over. -/
def closeCur (e j : Nat) (s : State) : State :=
  match (s.walk e j).curF with
  | some o => sendFrame e j 5 o (s.onWalk e j fun w => { w with curF := none })
  | none => s

/-- Close the open LEVEL frame of a link; the CURRENT frame goes before it (R264). -/
def closeLevel (e j : Nat) (s : State) : State :=
  match (s.walk e j).levF with
  | some o => sendFrame e j 1 o ((closeCur e j s).onWalk e j fun w => { w with levF := none })
  | none => s

/-- Close the open HOLD frame of a link. -/
def closeHold (e j : Nat) (s : State) : State :=
  match (s.walk e j).holdF with
  | some o => sendFrame e j 3 o (s.onWalk e j fun w => { w with holdF := none })
  | none => s

/-- Bytes of records a frame holds (R265). -/
def State.frameCap (s : State) (e : Nat) : Nat := fldBy (s.curRd e) A.TUIPER_TX_PAYLOAD F.TUIPER_TX_PAYLOAD_BYTES - 32

/-- Four words of current codes (R262). -/
def codeWords (c : List Nat) : List Word := (List.range 4).map fun i => w32 (c.getD (2 * i) 0 % 4096 * 65536 + c.getD (2 * i + 1) 0 % 4096)

/-- The words of cells, upper half first (R253). -/
def cellWords (vs : List Nat) : List Word := vs.flatMap fun v => [w32 (v / 2 ^ 32), w32 v]

/-- A record of R258 or, with current codes, R259. -/
def recordWords (fix gen first : Nat) (isEnd : Bool) (codes : Option (List Nat)) (vs : List Nat) : List Word :=
  [w32 (fix % 4096 * 2 ^ 20 + isEnd.toNat * 2 ^ 19 + vs.length), w32 (gen * 2 ^ 12 + first)] ++
    (match codes with | some c => codeWords c | none => []) ++ cellWords vs

/-- The CRC contribution of words (R314). -/
def crcOf (ws : List Word) : List Nat := ws.map (·.toNat)

/-! ### Current codes (R188, R232, R262, R263) -/

/-- A fixture's entry in the frame's current buffer: none where the buffer is null or too small; and whether it is too small. -/
def State.curEntry (s : State) (f : EngFrame) (fix : Nat) : Option (List Nat) × Bool :=
  if f.cur = nullBuf then (none, false)
  else if s.bufSize f.cur < fix * 16 + 16 then (none, true)
  else (some ((List.range 8).map fun i => s.mem16 (s.bufBase f.cur + fix * 16 + 2 * i) % 4096), false)

/-- The generation a fixture's records carry in an engine frame, and the entry to send where a CURRENT record goes out. -/
def curDecide (s : State) (e num fix : Nat) (entry : Option (List Nat)) : Nat × Option CurSt :=
  let old := s.curOf fix
  let cfg := s.curRd e A.TUIPER_CUR_CFG
  let refresh := fget cfg F.TUIPER_CUR_CFG_REFRESH
  match entry with
  | none => (old.gen, none)
  | some c =>
    if old.codes ≠ some c then
      let g := if old.gen = 0 ∨ 15 ≤ old.gen then 1 else old.gen + 1
      (g, some ⟨some c, g, fget cfg F.TUIPER_CUR_CFG_REPEAT, num⟩)
    else if 0 < old.left then (old.gen, some { old with left := old.left - 1, last := num })
    else if refresh ≠ 0 ∧ refresh ≤ (num + 2 ^ 32 - old.last) % 2 ^ 32 then (old.gen, some { old with last := num })
    else (old.gen, none)

/-- Note once in an engine frame that a buffer is too small (R232). -/
def engClip (e : Nat) (f : EngFrame) (s : State) : State :=
  if f.clipped then s else (s.onFrame e fun f => { f with clipped := true }).guard1 (P.SCAN e) 29 0x85 (some 5)

/-- Put a CURRENT record into the open CURRENT frame, closing it when it is full. -/
def addCurrent (e j num fix : Nat) (c : CurSt) (s : State) : State :=
  let room := match (s.walk e j).curF with
    | some o => decide (4 * o.body.length + 20 ≤ s.frameCap e)
    | none => true
  let s := if room then s else closeCur e j s
  let o := (s.walk e j).curF.getD (OpenFrame.init e j num)
  let codes := codeWords (c.codes.getD [])
  let ws := w32 (fix % 4096 * 2 ^ 20 + c.gen * 2 ^ 12) :: codes
  let o := { o with
    body := o.body ++ ws
    count := o.count + 1
    tx := { o.tx with curs := o.tx.curs ++ [(fix, c)], currents := o.tx.currents + 1, crc := o.tx.crc ++ crcOf codes } }
  s.onWalk e j fun w => { w with curF := some o }

/-- Put a LEVEL record into the open LEVEL frame (R265); the fixture's first record follows its CURRENT record. -/
def addLevel (e j num fix first : Nat) (vs : List Nat) (isFirst isEnd : Bool) (s : State) : State :=
  let size := 8 + 8 * vs.length
  let room := match (s.walk e j).levF with
    | some o => decide (4 * o.body.length + size ≤ s.frameCap e) && isFirst
    | none => true
  let s := if room then s else closeLevel e j s
  match (s.engine e).cur with
  | none => s
  | some f =>
    let ent := s.curEntry f fix
    let s := if ent.2 then engClip e f s else s
    let g := curDecide s e num fix ent.1
    -- every engine frame in which the fixture is packed uses up one of the frames that repeat a change (R263)
    let s := if isFirst then s.setCur fix { s.curOf fix with left := (s.curOf fix).left - 1 } else s
    let s := match isFirst, g.2 with
      | true, some c => addCurrent e j num fix c s
      | _, _ => s
    let o := (s.walk e j).levF.getD (OpenFrame.init e j num)
    let o := { o with
      body := o.body ++ recordWords fix g.1 first isEnd none vs
      count := o.count + 1
      tx := { o.tx with
        starts := if isFirst then o.tx.starts ++ [fix] else o.tx.starts
        conts := if isFirst then o.tx.conts else o.tx.conts ++ [fix]
        level := o.tx.level + isFirst.toNat
        cells := o.tx.cells + vs.length
        crc := o.tx.crc ++ crcOf (cellWords vs) } }
    s.onWalk e j fun w => { w with levF := some o }

/-- Cover a fixture by HOLD (R260): a record that follows on the last one extends it. -/
def addHold (e j num fix : Nat) (s : State) : State :=
  let o := (s.walk e j).holdF.getD (OpenFrame.init e j num)
  let tx := { o.tx with starts := o.tx.starts ++ [fix], change := true }
  let idx := fix % 4096
  let last := o.body.getLast?
  let ext := match last with
    | some w => decide (fget w ⟨31, 20⟩ + fget w ⟨12, 0⟩ = idx) && decide (fget w ⟨12, 0⟩ < 4096)
    | none => false
  if ext then
    let w := last.getD 0
    s.onWalk e j fun x => { x with holdF := some { o with body := o.body.dropLast ++ [w + 1], tx := tx } }
  else
    let o := { o with body := o.body ++ [w32 (idx * 2 ^ 20 + 1)], count := o.count + 1, tx := tx }
    let s := s.onWalk e j fun x => { x with holdF := some o }
    if s.frameCap e < 4 * o.body.length + 4 then closeHold e j s else s

/-! ### STRIKE frames (R259, R264, R294) -/

/-- STRIKE records of one fixture, split as R265 splits records. -/
def strikeParts (cap : Nat) : Nat → Nat → List Nat → List (Nat × List Nat)
  | 0, _, _ => []
  | fuel + 1, first, vs =>
    let n := (cap - 24) / 8
    if vs.length ≤ n ∨ n = 0 then [(first, vs)] else (first, vs.take n) :: strikeParts cap fuel (first + n) (vs.drop n)

/-- Send the open STRIKE frame. -/
def flushStrike (e j : Nat) (o : OpenFrame) (s : State) : State := if o.count = 0 then s else sendFrame e j 2 o s

/-- Pack the fallback of one fixture. -/
def strikeFix (e j num : Nat) (m : Option (Nat × Nat)) (x : OpenFrame × State) (fix : Nat) : OpenFrame × State :=
  match x.2.fallback fix with
  | none => x
  | some d =>
    let vs := (x.2.fixCells m fix).map fun c => d.cell c.2
    let cap := x.2.frameCap e
    let parts := strikeParts cap 1024 0 vs
    parts.zipIdx.foldl (fun (y : OpenFrame × State) p =>
      let isFirst := p.2 == 0
      let isEnd := p.2 + 1 == parts.length
      let ws := recordWords fix 0 p.1.1 isEnd (some d.codes) p.1.2
      let fits := decide (4 * y.1.body.length + 4 * ws.length ≤ cap) && isFirst
      let y := if fits then y else (OpenFrame.init e j num, flushStrike e j y.1 y.2)
      ({ y.1 with
        body := y.1.body ++ ws
        count := y.1.count + 1
        tx := { y.1.tx with
          starts := if isFirst then y.1.tx.starts ++ [fix] else y.1.tx.starts
          conts := if isFirst then y.1.tx.conts else y.1.tx.conts ++ [fix]
          cells := y.1.tx.cells + p.1.2.length
          strikes := y.1.tx.strikes + 1
          change := true
          crc := y.1.tx.crc ++ crcOf (codeWords d.codes ++ cellWords p.1.2) } }, y.2)) x

/-- The STRIKE frames of a link, at step 1. -/
def strikeLink (e j num : Nat) (m : Option (Nat × Nat)) (fixes : List Nat) (s : State) : State :=
  let r := fixes.foldl (strikeFix e j num m) (OpenFrame.init e j num, s)
  flushStrike e j r.1 r.2

/-! ### The walk (R221, R226, R228, R234 to R236) -/

/-- Whether a solver frame has passed a cell (R228). -/
def State.solverPast (s : State) (frame c : Nat) : Bool :=
  match s.solver.frames.find? fun f => f.frame == frame with
  | some f => f.fin == 1 || decide (c < f.frontier)
  | none => false

/-- Whether a drive buffer holds a cell (R232). -/
def State.drvHas (s : State) (f : EngFrame) (c : Nat) : Bool := decide (c * 8 + 8 ≤ s.bufSize f.drv)

/-- Whether a cell is available, with for a fixture's first cell its current entry (R228). -/
def State.cellReady (s : State) (e : Nat) (f : EngFrame) (cells : List (Nat × Nat)) (o c : Nat) : Bool :=
  let lead := match (sortBy (fun x => x) ((cells.filter fun x => x.2 == 0).map (·.1))).head? with
    | some l => l
    | none => ((sortBy (fun x => x) (cells.map (·.1))).head?).getD c
  let solved (x : Nat) : Bool := f.direct || s.curOwn e || s.solverPast (f.src.getD 0) x
  s.drvHas f c && solved c && (o != 0 || solved lead)

/-- Count an underrunning cell or a held fixture; the event once in an engine frame (R236). -/
def underrun (e : Nat) (f : EngFrame) (a : Nat) (s : State) : State :=
  let s := s.inc a
  if f.urRaised then s else (s.onFrame e fun f => { f with urRaised := true }).raise (P.SCAN e) 1

/-- The frames of an engine frame that wait at a link's port and are not begun. -/
def withdraw (e num p : Nat) (s : State) : List TxFrame × State :=
  let x := s.port p
  let mine (f : TxFrame) : Bool := f.ofEng e num
  (x.express.filter mine ++ x.pre.filter mine,
    s.setPort p { x with express := x.express.filter fun f => !mine f, pre := x.pre.filter fun f => !mine f })

/-- A partner's link underruns: it begins no further frame (R370). -/
def muteLink (e j : Nat) (f : EngFrame) (s : State) : State :=
  if f.partner && !(s.walk e j).muted then
    let r := withdraw e f.num (8 * e + j) s
    (r.2.onWalk e j fun w => { w with muted := true }).inc A.TWIN_MUTE_UR
  else s

/-- Pack a fixture whose cells have all been taken: the whole record, or what is left of one that spans frames (R265). -/
def packRest (e j num fix done : Nat) (vs : List Nat) (cap : Nat) : Nat → State → State
  | 0, s => s
  | fuel + 1, s =>
    let n := (cap - 8) / 8
    let rest := vs.drop done
    if rest.length ≤ n ∨ n = 0 then addLevel e j num fix done rest (done == 0) true s
    else packRest e j num fix (done + n) vs cap fuel (addLevel e j num fix done (rest.take n) (done == 0) false s)

/-- Take the cells of one fixture from where its walk stands: `got` the cells taken (order, format, value). Answers the state and
whether the walk goes on with the next fixture. -/
def walkCells (e j : Nat) (cells : List (Nat × Nat)) (fix : Nat) (got : List (Nat × Nat × Nat)) :
    List (Nat × Nat × Nat) → State → State × Bool
  | [], s =>
    match (s.engine e).cur with
    | none => (s, false)
    | some f =>
      let cap := s.frameCap e
      let n := (cap - 8) / 8
      let vs := got.map (·.2.2)
      let split := decide (n < vs.length) && n != 0
      let done := if split && !f.lamp then (vs.length - 1) / n * n else 0
      (packRest e j f.num fix done vs cap 1024 (s.onWalk e j fun w => { w with fixture := none, waiting := none }), true)
  | (o, c, fmt) :: rest, s =>
    match (s.engine e).cur with
    | none => (s, false)
    | some f =>
      let cap := s.frameCap e
      let n := (cap - 8) / 8
      let s := if s.drvHas f c then s else engClip e f s
      let low := (f.links.filter fun l => !l.gap && !l.closed).map (·.j)
      let inj := f.injUr && low.headD j == j
      let ready := !inj && s.cellReady e f cells o c
      let take (v : Nat) (s : State) : State × Bool :=
        let got := got ++ [(o, fmt, v)]
        -- a fixture that spans frames is sent as its frames fill (R265), but by a LAMP engine only whole (R235)
        let full := !f.lamp && n != 0 && decide (n < cells.length) && got.length % n == 0 && !rest.isEmpty
        let s := if full then
            let d := got.length - n
            addLevel e j f.num fix d ((got.drop d).map (·.2.2)) (d == 0) false s
          else s
        walkCells e j cells fix got rest s
      if ready then take (s.mem64 (s.bufBase f.drv + c * 8)) s
      else if !f.urDone then
        (s.onWalk e j fun w => { w with fixture := some ⟨fix, got, (o, c, fmt) :: rest⟩, waiting := some c }, false)
      else
        let s := if inj then s.onFrame e fun f => { f with injUr := false } else s
        let s := muteLink e j f (underrun e f (A.SCAN_UNDERRUN e) s)
        if f.lamp || o == 0 then
          let s := s.inc (A.SCAN_HOLD_FIX e)
          (addHold e j f.num fix (s.onWalk e j fun w => { w with fixture := none, waiting := none }), true)
        else
          let v := match (got.reverse.find? fun g => g.2.1 == fmt) with
            | some g => g.2.2
            | none => 0
          take v s

/-- The end of a link's map: open frames are closed and PRESENT is handed over (R261, R266). -/
def walkEnd (e j : Nat) (s : State) : State :=
  let s := closeHold e j (closeCur e j (closeLevel e j s))
  match (s.engine e).cur with
  | none => s
  | some f =>
    let o : OpenFrame := ⟨[0, 0], 0, { EngTx.init e j f.num with present := true }⟩
    (sendFrame e j 4 o s).onWalk e j fun w => { w with closed := true, waiting := none }

/-- Take the fixtures of a link in map order. -/
def walkFixes (e j : Nat) (m : Option (Nat × Nat)) : List Nat → State → State
  | [], s => walkEnd e j (s.onWalk e j fun w => { w with todo := [] })
  | fix :: fs, s =>
    match (s.engine e).cur with
    | none => s
    | some f =>
      if f.loss || f.again then
        walkFixes e j m fs (addHold e j f.num fix (s.onWalk e j fun w => { w with todo := fs }))
      else
        let cells := s.fixCells m fix
        let r := walkCells e j cells fix [] (cells.zipIdx.map fun x => (x.2, x.1.1, x.1.2)) (s.onWalk e j fun w => { w with todo := fs })
        if r.2 then walkFixes e j m fs r.1 else r.1

/-- Go on with a link's walk. -/
def walkRun (e j : Nat) (s : State) : State :=
  match (s.engine e).cur with
  | none => s
  | some f =>
    let w := s.walk e j
    if w.closed || w.ended || f.wait || f.mute then s
    else
      let m := s.mapsOf (s.curRd e A.MAPS_MAP_SET)
      match w.fixture with
      | some x =>
        let r := walkCells e j (s.fixCells m x.fix) x.fix x.got x.rest s
        if r.2 then walkFixes e j m (r.1.walk e j).todo r.1 else r.1
      | none => walkFixes e j m w.todo s

/-! ### Bases of DIRECT engines (R230, R231) -/

/-- The base of a DIRECT engine: that of engine 2m in a locked pair. -/
def State.baseOf (s : State) (rd : Nat → Word) (e : Nat) : Nat × Nat :=
  if (s.lockOf rd e).2 then (s.engine (e / 2 * 2)).base else (s.engine e).base

/-- Bring the block's holds on an engine's bases up to date. -/
def baseHolds (e : Nat) (s : State) : State :=
  let x := s.engine e
  let s := (s.release (.direct e)).release (.base e)
  let add (t : State) (b : Nat × Nat) (tag : HoldTag) : State :=
    [b.1, b.2].foldl (fun t i => if i = nullBuf then t else t.hold tag i) t
  let s := match x.next with
    | some b => add s b (.direct e)
    | none => s
  let s := add s x.base (.base e)
  x.olds.foldl (fun t o => add t o.1 (.base e)) s

/-- Engine `x` still carries engine frame `num`. -/
def State.carries (s : State) (x num : Nat) : Bool :=
  match (s.engine x).cur with
  | some f => f.num == num && !f.carried
  | none => false

/-- Replaced bases that no engine frame reads any longer are released. -/
def baseSweep (e : Nat) (s : State) : State :=
  let x := s.engine e
  baseHolds e (s.setEngine e { x with olds := x.olds.filter fun o => s.carries o.2.1 o.2.2 })

/-- BASE_NOW of engine `e`: in a locked pair both engines use the base of engine 2m (R218, R247). -/
def baseShow (e : Nat) (s : State) : State :=
  let b := s.baseOf s.prv e
  s.wr (A.SCAN_BASE_NOW e) (w32 (b.2 * 65536 + b.1))

/-- The waiting base is taken; engine frame `first` is the first to use it. Its hold lasts while an engine frame that read it is carried:
the engine's own, or in a locked pair that of the other engine. -/
def takeBase (e first : Nat) (s : State) : State :=
  let x := s.engine e
  match x.next with
  | none => s
  | some b =>
    let readers := [e, e / 2 * 2 + 1].eraseDups.filterMap fun y =>
      match (s.engine y).cur with
      | some f => if f.carried || !f.direct || (f.drv, f.cur) != x.base then none else some (x.base, y, f.num)
      | none => none
    let s := s.setEngine e { x with base := b, next := none, olds := readers ++ x.olds }
    let s := s.wr (A.SCAN_BASE_TAKEN e) (w32 first)
    let s := baseShow (e / 2 * 2 + 1) (baseShow e s)
    baseSweep e (s.raise (P.SCAN e) 4)

/-- An accepted write of DIRECT_BASE (R230): the base waits, and an earlier one not taken is dropped. -/
def directBaseOp (e : Nat) (v : Word) (s : State) : State :=
  let x := s.engine e
  let s := if x.next.isSome then s.inc (A.SCAN_BASE_DROP e) else s
  baseHolds e (s.setEngine e { x with next := some (fget v ⟨11, 0⟩, fget v ⟨27, 16⟩) })

/-! ### Carriage and step 8 (R240) -/

/-- An engine no longer carries a frame; the frame reaches step 8 when no engine does. -/
def carryEnd (frame e : Nat) (s : State) : State :=
  let was := s.scan.carry.any fun c => c.1 == frame
  let l := s.scan.carry.filter fun c => !(c.1 == frame && c.2 == e)
  let s := { s with scan := { s.scan with carry := l } }
  if was && !(l.any fun c => c.1 == frame) then s.step8 frame else s

/-- Carriage of an engine's frame ends. -/
def carriageEnd (e : Nat) (s : State) : State :=
  match (s.engine e).cur with
  | none => s
  | some f =>
    if f.carried || f.wait then s
    else
      let s := (List.range 8).foldl (fun t j =>
        t.wr (A.SCAN_LAST_TX e j) (w32 (match (f.links.find? fun l => l.j == j).bind (·.lastTx) with
          | some at0 => min 65535 ((at0 - f.start) / 1000)
          | none => 65535))) s
      let s := s.onFrame e fun f => { f with carried := true }
      let s := (s.put (A.SCAN_STAT e) F.SCAN_STAT_RUNNING 0).raise (P.SCAN e) 0
      let s := carryEnd (if s.curOwn e then f.src.getD f.num else f.num) e s
      baseSweep (e / 2 * 2) (baseSweep e s)

/-- Carriage ends where every link's walk has ended and no frame of the engine frame is at its port. -/
def carriageCheck (e : Nat) (s : State) : State :=
  match (s.engine e).cur with
  | none => s
  | some f =>
    if f.carried || f.wait then s
    else if f.links.all fun l => (l.closed || l.ended || l.muted || f.mute) && !(s.port (8 * e + l.j)).holds e f.num then
      carriageEnd e s
    else s

/-! ### An engine frame starts (R223 to R233, R239) -/

/-- An engine with no frame in progress and no base. -/
def EngSt.init : EngSt := ⟨none, (nullBuf, nullBuf), none, [], none, none, [], none, 0⟩

/-- E_l, the send end of a link (R238), in ns; a link without a valid path delay counts none. -/
def State.sendEndAt (s : State) (e j : Nat) (f : EngFrame) : Int :=
  let rd := s.curRd e
  let guard := fldBy rd A.SCAN0_ARRIVE_GUARD F.SCAN0_ARRIVE_GUARD_US * 1000
  min ((f.start + f.latch : Nat) : Int) ((s.ptLink rd e j f.pt : Int) - (s.pathReg e j).getD 0 - guard)

/-- The send end of a link (R238, R267): frames not begun are withdrawn; fixtures not begun are late, those begun and not finished
are cut. -/
def sendEndOp (e j : Nat) (s : State) : State :=
  match (s.engine e).cur with
  | none => s
  | some f =>
    let w := s.walk e j
    if f.latched || w.ended || !(f.links.any fun l => l.j == j) || f.wait then s
    else
      let r := withdraw e f.num (8 * e + j) s
      let w := r.2.walk e j
      let fixes := (r.2.linkFixtures (r.2.curRd e) e j).1
      let late := (fixes.filter fun x => !w.begun.contains x).length
      let open0 := r.1.flatMap (fun t => match t.eng with | some x => x.conts | none => []) ++
        (match w.levF with | some o => o.tx.conts | none => []) ++
        (match w.fixture with | some x => [x.fix] | none => [])
      let cut := (open0.eraseDups.filter fun x => w.begun.contains x).length
      let s := r.2.onWalk e j fun w => { w with ended := true, waiting := none }
      let quiet := f.mute || w.muted
      let s := if late = 0 ∨ quiet then s
        else ((s.add (A.SCAN_LATE_FIX e j) ⟨31, 0⟩ late).add (A.SCAN_LATE_CNT e) ⟨31, 0⟩ late).raise (P.SCAN e) 3
      let s := if cut = 0 ∨ quiet then s else (s.add A.TUIPER_SPLIT_CUT ⟨31, 0⟩ cut).raise P.TUIPER 2
      carriageCheck e s

/-- Begin the walks of an engine frame: STRIKE frames first, then each link. A link whose send end has passed begins nothing. -/
def engineGo (e : Nat) (s : State) : State :=
  match (s.engine e).cur with
  | none => s
  | some f =>
    let rd := s.curRd e
    let m := s.mapsOf (rd A.MAPS_MAP_SET)
    let s := s.onFrame e fun f => { f with wait := false }
    let s := f.links.foldl (fun t l => if t.sendEndAt e l.j f ≤ t.nowNs then sendEndOp e l.j t else t) s
    let s := f.links.foldl (fun t l =>
      let all := l.todo
      let t := strikeLink e l.j f.num m all t
      let t := t.onWalk e l.j fun w => { w with todo := all.filter fun x => (t.fallback x).isNone }
      walkRun e l.j t) s
    carriageCheck e s

/-- The links of an engine frame: those whose map names fixtures; one whose MAC renegotiates sends nothing and counts a gap. -/
def engineLinks (rd : Nat → Word) (e : Nat) (s : State) : List LinkWalk × State :=
  (List.range 8).foldl (fun (x : List LinkWalk × State) j =>
    let r := x.2.linkFixtures rd e j
    let t := x.2.add (A.SCAN_SKIP_ENTRY e) ⟨31, 0⟩ r.2
    if (t.linkEntries rd e j).1.isEmpty then (x.1, t)
    else if t.inReneg (8 * e + j) then
      (x.1 ++ [{ LinkWalk.init j [] with closed := true, ended := true, gap := true }], t.inc (A.SCAN_GAP_CNT e j))
    else (x.1 ++ [LinkWalk.init j r.1], t)) ([], s)

/-- Show an engine frame in the engine's registers. -/
def engineRegs (e k : Nat) (f : EngFrame) (latchUsed : Nat) (s : State) : State :=
  let s := s.put (A.SCAN_STAT e) F.SCAN_STAT_RUNNING 1
  let s := s.put (A.SCAN_STAT e) F.SCAN_STAT_LOSS f.loss.toNat
  let s := s.put (A.SCAN_STAT e) F.SCAN_STAT_BUF k
  let s := s.wr (A.SCAN_ENG_FRAME e) (w32 f.num)
  let s := match f.src with
    | some n => s.wr (A.SCAN_SRC_FRAME e) (w32 n)
    | none => s
  let s := s.wr64 (A.SCAN_PT_SEC_LO e) (secOf f.pt)
  let s := s.wr (A.SCAN_PT_NS e) (w32 (nsOf f.pt))
  let s := s.wr (A.SCAN_LATCH_USED e) (w32 latchUsed)
  let s := if f.loss then (s.inc (A.SCAN_LOSS_CNT e)).raise (P.SCAN e) 2 else s
  let s := if f.again then s.inc (A.SCAN_REPEAT_CNT e) else s
  s.setFault (P.SCAN e) (f.loss || s.get (A.SCAN_STAT e) F.SCAN_STAT_LOCK_BAD == 1)

/-- The engine frame `num` of the other engine of a locked pair, where it has begun. -/
def State.mate (s : State) (e : Nat) (locked : Bool) (num : Nat) : Option EngFrame :=
  if !locked then none
  else
    let o := s.engine (if e % 2 = 0 then e + 1 else e - 1)
    o.cur.filter fun f => f.num == num && o.set.isEmpty

/-- Whether an engine frame without a drive buffer of its own, or with an injected loss, has frame-level loss. The engines of a locked
pair have it together: the one that begins first judges both, and the other follows it (R218, R233, R455). -/
def State.frameLoss (s : State) (e : Nat) (locked : Bool) (num : Nat) (none0 : Bool) : Bool × State :=
  match s.mate e locked num with
  | some f => (f.loss, s)
  | none =>
    let r := s.detect (P.SCAN e) 2 none0
    let q := if locked then r.2.detect (P.SCAN (if e % 2 = 0 then e + 1 else e - 1)) 2 false else (false, r.2)
    (r.1 || q.1, q.2)

/-- No engine frame of the engine is in progress: STAT.LOSS, which describes that frame, reads 0 (R247). -/
def lossEnd (e : Nat) (s : State) : State :=
  let s := s.put (A.SCAN_STAT e) F.SCAN_STAT_LOSS 0
  s.setFault (P.SCAN e) (s.get (A.SCAN_STAT e) F.SCAN_STAT_LOCK_BAD == 1)

/-- Whether an engine frame of a pair waits for a HEAD, or sends nothing (R368, R370, R371). -/
def State.twinWait (s : State) (own : Bool) : Bool × Bool :=
  if !s.twinOn || s.twinSt == 0 then (false, false)
  else if s.twinSt == 1 then (false, true)
  else if s.isPartner then (!own, own)
  else (false, false)

/-- Create the engine frame of a device-rate engine for frame `num`. -/
def deviceFrame (e num : Nat) (s : State) : State :=
  let rd := s.prv
  let locked := (s.lockOf rd e).2
  let tim := if locked then e / 2 * 2 else e
  let direct := fldBy rd (A.SCAN_CTRL e) F.SCAN_CTRL_SRC == 1
  let fresh0 := match (s.engine e).cur with
    | some f => f.num != (num + 2 ^ 32 - 1) % 2 ^ 32
    | none => true
  let s := if direct && fresh0 && (!locked || e % 2 == 0) then takeBase e num s else s
  let b := match s.mate e locked num with
    | some f => if f.direct then (f.drv, f.cur) else s.baseOf rd e
    | none => s.baseOf rd e
  let sf := s.solver.frames.find? fun f => f.frame == num
  let drv := if direct then b.1 else (sf.map (·.drv)).getD nullBuf
  let cur := if direct then b.2 else (sf.map (·.cur)).getD nullBuf
  let q := s.frameLoss e locked num (drv == nullBuf)
  let loss := q.1
  let inj := q.2.injArmed (P.SCAN e) 1
  let s := if inj then q.2.injTake (P.SCAN e) 1 else q.2
  let per := s.time.period
  let s := s.setEngine e { s.engine e with set := [] }
  let ls := if fldBy rd A.TUIPER_CTRL F.TUIPER_CTRL_EN = 0 then ([], s) else engineLinks rd e s
  let w := ls.2.twinWait false
  let f : EngFrame := {
    num := num, start := s.time.boundary, pt := s.ptOf num, period := per
    latch := per * fldBy rd (A.SCAN_CTRL tim) F.SCAN_CTRL_ACTIVE / 256
    ur := per * fldBy rd (A.SCAN_CTRL tim) F.SCAN_CTRL_UR_AT / 256
    fld := s.pairNum num, loss := loss, again := false
    src := if direct then none else some num, direct := direct, drv := drv, cur := cur
    lamp := fldBy rd (A.SCAN_CTRL e) F.SCAN_CTRL_CLASS == 1
    carried := false, latched := false, urDone := false, urRaised := false, clipped := false, injUr := inj
    wait := w.1, mute := w.2, partner := s.twinOn && s.isPartner, links := ls.1 }
  let s := ls.2.setEngine e { ls.2.engine e with cur := some f }
  let s := baseShow e (s.wr (H.EPOCH_SEEN (P.SCAN e)) (w32 s.commit.prevEpoch))
  engineRegs e ((sf.map (·.k)).getD 0) f (s.rd A.SCAN0_LATCH_USED).toNat s

/-- The solver frame an own-rate engine fixes: the most recent that is done and whose index no later frame has taken (R229). -/
def State.fixSource (s : State) : Option SolvedFrame :=
  let rec go (taken : List Nat) : List SolvedFrame → Option SolvedFrame
    | [] => none
    | f :: fs => if f.fin = 1 ∧ !taken.contains f.k then some f else go (f.k :: taken) fs
  go [] s.solver.frames

/-- An own-rate engine fixes its next source and settings, and leases the frame it fixed. -/
def ownFix (e : Nat) (s : State) : State :=
  let x := s.engine e
  let src := if fldBy s.act (A.SCAN_CTRL e) F.SCAN_CTRL_SRC = 0 then s.fixSource else none
  let s := s.setEngine e { x with fixed := src, set := s.rf.active, ep := (s.rd A.SYS_EPOCH_APPLIED).toNat }
  match src with
  | some f =>
    let s := { s with scan := { s.scan with carry := s.scan.carry ++ [(f.frame, e)] } }
    s.leaseAlso f.frame [f.drv, f.cur]
  | none => s

/-- The next time at which an own-rate engine frame starts (R224): the first at or after `t`. -/
def nextOwn (period phase t : Nat) : Nat :=
  if t ≤ phase then phase - (phase - t) / period * period else phase + (t - phase + period - 1) / period * period

/-- The next time of an own-rate engine and the number of the engine frame that starts there (R224). -/
def State.ownNext (s : State) (e : Nat) : Nat × Nat :=
  let rd := amGet resetOf (s.engine e).set
  let per := fldBy rd (A.SCAN_PERIOD e) ⟨31, 0⟩
  let phase := min (fldBy rd (A.SCAN_PHASE e) ⟨31, 0⟩) (per - 1)
  let t := nextOwn per phase (match (s.engine e).cur with
    | some f => f.start + 1
    | none => s.nowNs)
  (t, (t - phase) / per % 2 ^ 32)

/-- Create the engine frame of an own-rate engine, at its next time. -/
def ownFrame (e : Nat) (s : State) : State :=
  let rd := amGet resetOf (s.engine e).set
  let per := fldBy rd (A.SCAN_PERIOD e) ⟨31, 0⟩
  let nx := s.ownNext e
  let t := nx.1
  let num := nx.2
  let s := advanceNs t s
  let direct := fldBy rd (A.SCAN_CTRL e) F.SCAN_CTRL_SRC == 1
  let x := s.engine e
  let b := x.base
  let drv := if direct then b.1 else (x.fixed.map (·.drv)).getD nullBuf
  let cur := if direct then b.2 else (x.fixed.map (·.cur)).getD nullBuf
  let src := if direct then none else x.fixed.map (·.frame)
  let again := !direct && src.isSome && src == x.lastSent
  let r := s.detect (P.SCAN e) 2 (drv == nullBuf)
  let loss := r.1
  let inj := r.2.injArmed (P.SCAN e) 1
  let s := if inj then r.2.injTake (P.SCAN e) 1 else r.2
  let path := (List.range 8).foldl (fun m j => maxOpt m (s.pathReg e j)) none
  let least := per + path.getD 0
  let want := fldBy rd (A.SCAN_LAMP_LATCH e) ⟨31, 0⟩
  let used := latchStep x.latchUsed want least per
  let s := if want < least then s.guard1 (P.SCAN e) 29 0x82 (some 2) else s
  let u := s.fresh (2 ^ 32)
  let fld := if direct then num else match src with | some n => n | none => u.1
  let s := if !direct && src.isNone then u.2 else s
  let w := s.twinWait true
  let ls := if fldBy rd A.TUIPER_CTRL F.TUIPER_CTRL_EN = 0 then ([], s) else engineLinks rd e s
  let f : EngFrame := {
    num := num, start := t, pt := t + used, period := per
    latch := per * fldBy rd (A.SCAN_CTRL e) F.SCAN_CTRL_ACTIVE / 256
    ur := per * fldBy rd (A.SCAN_CTRL e) F.SCAN_CTRL_UR_AT / 256
    fld := s.pairNum fld, loss := loss, again := again
    src := src, direct := direct, drv := drv, cur := cur, lamp := true
    carried := false, latched := false, urDone := false, urRaised := false, clipped := false, injUr := inj
    wait := false, mute := w.2, partner := false, links := ls.1 }
  let s := ls.2.setEngine e { ls.2.engine e with cur := some f, latchUsed := some used, lastSent := if src.isSome then src else x.lastSent }
  let s := s.wr (H.EPOCH_SEEN (P.SCAN e)) (w32 (s.engine e).ep)
  engineRegs e ((x.fixed.map (·.k)).getD 0) f used s

/-! ### The points of an engine frame -/

/-- The underrun point (R226 step 3): available cells are taken, the others underrun. -/
def underrunOp (e : Nat) (s : State) : State :=
  match (s.engine e).cur with
  | none => s
  | some f =>
    if f.urDone || f.latched then s
    else
      let s := s.onFrame e fun f => { f with urDone := true }
      carriageCheck e (f.links.foldl (fun t l => walkRun e l.j t) s)

/-- Whether a fixture of a link's map is a member of an enabled fail-together set. -/
def State.linkInSet (s : State) (rd : Nat → Word) (e j : Nat) : Bool :=
  (s.linkEntries rd e j).1.any fun i => (s.setOfFix ((8 * e + j) * 4096 + i)).isSome

/-- The latch point of an engine frame judges one link: the gap that its frame leaves, and the rate (R270, R316). -/
def latchLink (e : Nat) (f : EngFrame) (rd : Nat → Word) (s : State) (j : Nat) : State :=
  let gap := match f.links.find? fun l => l.j == j with | some l => l.gap | none => false
  let s' := restClose (8 * e + j) f.period f.loss (decide (0 < (s.walk e j).frames)) gap s
  rateDecide (8 * e + j) f.period (s'.linkInSet rd e j) s'

/-- The latch point (R226 step 5): carriage ends, the next source or base is fixed, and the rate of each link is judged. -/
def engineLatch (e : Nat) (s : State) : State :=
  match (s.engine e).cur with
  | none => s
  | some f =>
    if f.latched then s
    else
      let own := s.curOwn e
      let rd := s.curRd e
      let s := underrunOp e (s.onFrame e fun f => { f with wait := false, mute := f.mute || f.wait })
      let s := f.links.foldl (fun t l => sendEndOp e l.j t) s
      let s := carriageEnd e s
      let s := s.onFrame e fun f => { f with latched := true }
      let s := takeBase e ((f.num + 1) % 2 ^ 32) s
      let s := (List.range 8).foldl (latchLink e f rd) s
      if own then ownFix e s else s

/-- ENGINE_FRAME_START, up to the walks: none where the engine is not due a frame. -/
def engineStart (e : Nat) (s : State) : Option State :=
  if 8 ≤ e ∨ s.offline (P.SCAN e) then none
  else
    let x := s.engine e
    let set := amGet resetOf x.set
    let live := x.cur.isSome && !x.set.isEmpty && engOn set e && ownRate set e
    if live ∨ (ownRate s.act e ∧ engOn s.act e) then
      let s := engineLatch e s
      let s := if live then s
        else
          let s := ownFix e s
          takeBase e (s.ownNext e).2 s
      let rd := amGet resetOf (s.engine e).set
      if engOn rd e && ownRate rd e then some (ownFrame e s) else none
    else
      let num := (s.frameNum + 2 ^ 32 - 1) % 2 ^ 32
      let done : Bool := match x.cur with
        | some f => f.num == num && x.set.isEmpty
        | none => false
      if s.time.bnds < 2 ∨ done ∨ !engOn s.prv e ∨ ownRate s.prv e then none
      else some (deviceFrame e num (engineLatch e s))

/-- An own-rate engine that the set taken at its latch point stops begins no further frame: the last one ends here. -/
def engineStop (e : Nat) (s : State) : State :=
  if s.offline (P.SCAN e) || !s.curOwn e then s
  else
    let t := engineLatch e s
    let rd := amGet resetOf (t.engine e).set
    if engOn rd e && ownRate rd e then s else lossEnd e t

/-- The cell that the solver's frontier must have passed for a link's walk to go on at cell `c`: a fixture's records begin with its
first LIGHT cell (R228). -/
def State.walkLead (s : State) (e j c : Nat) : Nat :=
  match (s.walk e j).fixture with
  | some x =>
    if x.got.isEmpty then
      let cs := s.fixCells (s.mapsOf (s.curRd e A.MAPS_MAP_SET)) x.fix
      let l := cs.filter fun y => y.2 == 0
      ((sortBy (fun y => y) ((if l.isEmpty then cs else l).map (·.1))).head?).getD c
    else c
  | none => c

/-- SCAN_WALK_RESUME: the solver's frontier has made the cell available at which a link's walk waits (R228). -/
def walkResumeOp (e j : Nat) (s : State) : State :=
  match (s.engine e).cur with
  | none => s
  | some f =>
    match (s.walk e j).waiting with
    | none => s
    | some c =>
      let t := if f.src == some s.solving.frame && s.solver.busy then solverPass (max c (s.walkLead e j c)) s else s
      carriageCheck e (walkRun e j t)

/-- LEVEL_FRAME_FLUSH: the walk has waited FLUSH_NS (R266); not in a pair (R370). -/
def levelFlushOp (e j : Nat) (s : State) : State :=
  if s.twinOn || (s.walk e j).waiting.isNone then s else closeLevel e j s

/-- Every engine's carriage is judged again, after frames left a port or were discarded. -/
def carriageAll (s : State) : State := (List.range 8).foldl (fun t e => carriageCheck e t) s

/-- PORT_FRAME_SENT: a frame leaves its port (R305). -/
def portSentOp (p : Nat) (s : State) : State := carriageAll (portSentNow p s)

/-- The frames the engines carry at a boundary (R240): `frame` is the frame that engine frames begin for, by the settings that
govern it. Frames of earlier boundaries that no engine carries reach step 8. -/
def carryBoundary (frame : Nat) (s : State) : State :=
  let devs := (List.range 8).filter fun e => engOn s.prv e && !ownRate s.prv e && !s.offline (P.SCAN e)
  let running := s.scan.carry.filter fun c =>
    c.1 != frame && (match (s.engine c.2).cur with
      | some f => !f.carried && (if s.curOwn c.2 then true else f.num == c.1)
      | none => false) || (s.engine c.2).fixed.any fun x => x.frame == c.1
  let gone := (s.lease.frames.map (·.frame)).filter fun n =>
    n != frame && n != (frame + 1) % 2 ^ 32 && !(running.any fun c => c.1 == n)
  let s := { s with scan := { s.scan with carry := running ++ devs.map fun e => (frame, e) } }
  let idle := (List.range 8).filter fun e => !devs.contains e && !s.curOwn e
  let s := idle.foldl (fun t e => lossEnd e t) s
  gone.foldl (fun t n => t.step8 n) s

/-- The engine's page is reset, or the engine withdrawn: its frame and walks are dropped (R479). -/
def engineAbort (e : Nat) (s : State) : State :=
  match (s.engine e).cur with
  | none => s
  | some f =>
    let s := f.links.foldl (fun t l => (withdraw e f.num (8 * e + l.j) t).2) s
    let s := carryEnd (if s.curOwn e then f.src.getD f.num else f.num) e s
    s.setEngine e { s.engine e with cur := none }

end Sys2Proof.Machine
end

