-- ==== Sys2Proof/Machine/Keep.lean ====
section
/-!
DEFINITION. The keeper domain (R429 to R431, R434, R471): its seconds counter, event log, tamper input and loss.
The sub-second of an entry is a free value: no command carries the keeper's divider (log entry 1).
-/
namespace Sys2Proof.Machine

/-- Keeper seconds. -/
def State.keepSec (s : State) : Nat := s.rd64 A.KEEP_SEC_LO

/-- Set the number of log entries held. -/
def keepOcc (s : State) : State := s.put A.KEEP_STAT F.KEEP_STAT_OCC s.keepLog.length

/-- Log an entry of a kind, or count it in LOG_LOST where the log is full (R430). -/
def logEvent (kind : Nat) (s : State) : State :=
  if 64 ≤ s.keepLog.length then s.add A.KEEP_LOG_LOST F.KEEP_LOG_LOST_COUNT 1
  else
    let x := s.fresh 32768
    (keepOcc { x.2 with keepLog := x.2.keepLog ++ [⟨kind, BitVec.ofNat 64 s.keepSec, x.1⟩] }).raise P.KEEP 0

/-- The seconds counter advances (R429). -/
def keepSecondOp (s : State) : State := s.wr64 A.KEEP_SEC_LO ((s.keepSec + 1) % 2 ^ 64)

/-- While the time unit is LOCKED the firmware writes the keeper with Krafohel seconds once a minute, at a whole second: DESIGN CHOICE (log entry
4), at the seconds that 60 divides, seen at the first boundary after. -/
def keepMinute (s : State) : State :=
  let sec := s.nowNs / 1000000000
  if s.get A.TIME_STAT F.TIME_STAT_STATE = 2 ∧ s.get A.GAFFER_BOOT_STAT F.GAFFER_BOOT_STAT_STAGE = 2 ∧ s.time.prevBoundary / 60000000000 < s.nowNs / 60000000000
  then s.wr64 A.KEEP_SEC_LO (sec % 2 ^ 64) else s

/-- A write of SEC_HI sets the seconds, with SEC_LO as the requester last wrote it (R48, R434). -/
def keepSecWriteOp (r : Req) (hi : Word) (s : State) : State :=
  (s.wr A.KEEP_SEC_LO (s.bank (holdAt P.KEEP) 1 r)).wr A.KEEP_SEC_HI hi

/-- TAMPER_N low for longer than its filter width (R430); an injection into the guard removes the pulse (R455). -/
def tamperOp (s : State) : State :=
  if s.injArmed P.KEEP 31 then (s.injTake P.KEEP 31).guard1 P.KEEP 28 (openCode A.KEEP_TAMPER_CFG) none
  else
  let s := (s.put A.KEEP_STAT F.KEEP_STAT_TAMPER 1).raise P.KEEP 1
  if s.get A.KEEP_TAMPER_CFG F.KEEP_TAMPER_CFG_EN = 1 then logEvent 2 s else s

/-- A read of LOG0 removes the oldest entry and latches LOG1 to LOG3 (R434). -/
def log0Take (s : State) : Word × State :=
  match s.keepLog with
  | [] => (0, s)
  | e :: es =>
    let s := keepOcc { s with keepLog := es }
    let s := (s.wr A.KEEP_LOG1 (w32 e.sec.toNat)).wr A.KEEP_LOG2 (w32 (e.sec.toNat / 2 ^ 32))
    (w32 (2 ^ 31 + e.kind % 16 * 2 ^ 24), s.wr A.KEEP_LOG3 (w32 e.sub))

/-- VBAT and the core supplies are both lost: the keeper loses what it held (R429, R471). -/
def keeperLostOp (s : State) : State :=
  let s := { s with rf := { s.rf with live := s.rf.live.filter fun x => x.1 / 0x1000 != P.KEEP }, keepLog := [] }
  { s with power := { s.power with keeperLost := true } }

end Sys2Proof.Machine
end

