-- ==== Sys2Proof/Machine/Lehr.lean ====
section
/-!
DEFINITION. Lehr (R385 to R399): the die sensors, throttle demand and depth, sensor failure, blind clusters, shut-down, and the
derating of fixtures. Temperatures count 1/16 °C. DEDUCED (log entry 25): a blind cluster's margin is added once; FROZEN rises
at every failure; a demand stops at the largest value of its field.
-/
namespace Sys2Proof.Machine

/-- A sensor not yet sampled. -/
def SensorSt.init : SensorSt := ⟨none, none, 0, 0, 0⟩

/-- A sensor's history. -/
def State.sensor (s : State) (n : Nat) : SensorSt := amGet (fun _ => SensorSt.init) s.lehr.sensors n

/-- Set a sensor's history. -/
def State.setSensor (s : State) (n : Nat) (x : SensorSt) : State :=
  { s with lehr := { s.lehr with sensors := amSet (fun _ => SensorSt.init) s.lehr.sensors n x } }

/-- Whether a sensor is marked failed (R387). -/
def State.failed (s : State) (n : Nat) : Bool := s.get (A.LEHR_SENSOR n) F.LEHR_SENSOR_FAILED == 1

/-- The last reading of a sensor. -/
def State.reading (s : State) (n : Nat) : Int := fgetS (s.rd (A.LEHR_SENSOR n)) F.LEHR_SENSOR_READ

/-- The three sensors of a cluster (R385). -/
def clusterSensors (c : Nat) : List Nat := [3 * c, 3 * c + 1, 3 * c + 2]

/-- The sensors of a list with a valid reading. -/
def State.validOf (s : State) (ns : List Nat) : List Nat := ns.filter fun n => !s.failed n && (s.sensor n).prev.isSome

/-- The highest reading of sensors, with the lowest sensor that gives it. -/
def State.hottestOf (s : State) (ns : List Nat) : Option (Nat × Int) :=
  ns.foldl (fun m n => match m with
    | none => some (n, s.reading n)
    | some x => if x.2 < s.reading n then some (n, s.reading n) else m) none

/-- Whether a cluster is blind (R395). -/
def State.blind (s : State) (c : Nat) : Bool := (clusterSensors c).all s.failed

/-- A level of LEVELS, in 1/16 °C. -/
def State.level (s : State) (f : Fld) : Int := 16 * (s.actF A.LEHR_LEVELS f : Nat)

/-- A cluster's margin, in 1/16 °C. -/
def State.margin (s : State) (c : Nat) : Int := 16 * (s.actF (A.LEHR_CL_CFG c) F.LEHR_CL_CFG_FAIL_MARGIN : Nat)

/-- The cluster temperature (R386, R395). -/
def State.clusterTemp (s : State) (c : Nat) : Option Int :=
  if s.blind c then
    if s.lehr.unacked.contains c then some (s.level F.LEHR_LEVELS_THROTTLE)
    else (s.hottestOf (s.validOf (List.range 24))).map fun x => x.2 + s.margin c
  else (s.hottestOf (s.validOf (clusterSensors c))).map (·.2)

/-- d(T) of R389. -/
def State.demandAt (s : State) (t : Int) : Nat :=
  let above := t - s.level F.LEHR_LEVELS_THROTTLE
  if above < 0 then 0
  else s.actF A.LEHR_CTRL F.LEHR_CTRL_D_MIN + (s.actF A.LEHR_CTRL F.LEHR_CTRL_SLOPE * above.toNat + 15) / 16

/-- The demand of a cluster as its register reports it. -/
def State.demand (s : State) (c : Nat) : Nat := s.get (A.LEHR_CL_STAT c) F.LEHR_CL_STAT_DEMAND

/-- The largest demand of the clusters. -/
def State.maxDemand (s : State) : Nat := (List.range 8).foldl (fun m c => max m (s.demand c)) 0

/-- Whether RATE mode is selected (R388). -/
def State.rateMode (s : State) : Bool := s.actF A.LEHR_CTRL F.LEHR_CTRL_MODE == 1

/-- The throttle depth in force. -/
def State.depth (s : State) : Nat := s.get A.LEHR_STAT F.LEHR_STAT_D

/-- PAGE_STAT.FAULT of the LEHR page (R406). -/
def lehrFault (s : State) : State :=
  s.setFault P.LEHR (s.get A.LEHR_STAT F.LEHR_STAT_FROZEN == 1 || s.get A.LEHR_STAT F.LEHR_STAT_BLIND != 0)

/-- Count the milliseconds elapsed with D above 0 (R406). -/
def thrFlush (s : State) : State :=
  match s.lehr.since with
  | none => s
  | some t =>
    let ms := (s.nowNs - t) / 1000000
    { s.add64 A.LEHR_THR_MS_LO ms with lehr := { s.lehr with since := some (t + ms * 1000000) } }

/-- The throttle depth D and both clocks (R391). -/
def lehrDepth (s : State) : State :=
  let s := thrFlush s
  let top := s.maxDemand
  let dmax := s.actF A.LEHR_CTRL F.LEHR_CTRL_D_MAX
  let floor := if s.get A.LEHR_STAT F.LEHR_STAT_FROZEN = 1 then s.get A.LEHR_STAT F.LEHR_STAT_FLOOR else 0
  let d := if s.actF A.LEHR_CTRL F.LEHR_CTRL_EN = 0 then 0 else min dmax (max top floor)
  let was := s.depth
  let hot := ((List.range 8).find? fun c => s.demand c == top).getD 0
  let s := (s.put A.LEHR_STAT F.LEHR_STAT_D d).put A.LEHR_STAT F.LEHR_STAT_THROTTLING (decide (0 < d)).toNat
  let s := s.put A.LEHR_STAT F.LEHR_STAT_HOT hot
  let s := s.wr A.LEHR_FREQ (w32 ((10000 - 125 * d) * 65536 + (11000 - 125 * d)))
  let since := if d = 0 then none else some (s.lehr.since.getD s.nowNs)
  { s with lehr := { s.lehr with since := since } }.raiseIf (decide (was = 0) && decide (0 < d)) P.LEHR 1

/-- The die is shut down (R396). -/
def thermalShutdown (s : State) : State :=
  let s := logEvent 3 s
  { s with power := { s.power with mode := .tripped, thermtrip := true } }

/-- HOTTEST, the warnings and the state of a cluster (R392, R406). -/
def clusterReport (c : Nat) (t : Int) (s : State) : State :=
  let s := match s.hottestOf (s.validOf (List.range 24)) with
    | some x => s.wr A.LEHR_HOTTEST (w32 (x.1 * 65536 + wrapN 16 x.2))
    | none => s
  let was := s.lehr.warns.contains c
  let warn : Bool := if was then !decide (t < s.level F.LEHR_LEVELS_WARN - s.level F.LEHR_LEVELS_HYST)
    else decide (s.level F.LEHR_LEVELS_WARN ≤ t)
  let ws := if warn then (if was then s.lehr.warns else c :: s.lehr.warns) else s.lehr.warns.filter (· != c)
  let s := { s with lehr := { s.lehr with warns := ws } }
  let s := (s.put A.LEHR_STAT F.LEHR_STAT_WARN (!ws.isEmpty).toNat).raiseIf (warn && !was) P.LEHR 0
  s.put (A.LEHR_CL_STAT c) F.LEHR_CL_STAT_STATE
    (if s.blind c then 3 else if 0 < s.demand c then 2 else if warn then 1 else 0)

/-- R_c in 1/16 °C/s, from T_c now and 100 ms before (R386). -/
def State.rateOf (s : State) (c : Nat) (t : Int) : Int :=
  match (amGet (fun _ => []) s.lehr.hist c).find? fun x => x.1 + 100000000 ≤ s.nowNs with
  | some x => 10 * (t - x.2)
  | none => 0

/-- Whether a cluster is sampled every 1 ms: T_c lies within 5 °C of a level, or R_c exceeds half of RISE_LIMIT (R386). -/
def State.fastCluster (s : State) (c : Nat) : Bool :=
  let t := fgetS (s.rd (A.LEHR_CL_TEMP c)) F.LEHR_CL_TEMP_TEMP
  let r := fgetS (s.rd (A.LEHR_CL_TEMP c)) F.LEHR_CL_TEMP_RATE
  (amGet (fun _ => []) s.lehr.hist c != []) &&
    ([F.LEHR_LEVELS_WARN, F.LEHR_LEVELS_THROTTLE, F.LEHR_LEVELS_SHUTDOWN].any fun f => decide ((t - s.level f).natAbs ≤ 80)) ||
    decide (4 * (s.actF A.LEHR_RISE F.LEHR_RISE_RISE_LIMIT : Nat) < 5 * r)

/-- When a sensor's next sample is due (R386). -/
def State.sampleDue (s : State) (n : Nat) : Nat :=
  match (s.sensor n).lastAt with
  | some t => t + (if s.fastCluster (n / 3) then 1000000 else 10000000)
  | none => s.nowNs

/-- Keep T_c for the rate of the next 100 ms. -/
def keepTemp (c : Nat) (t : Int) (s : State) : State :=
  let l := amGet (fun _ => []) s.lehr.hist c
  let new := l.takeWhile fun x => decide (s.nowNs < x.1 + 100000000)
  let l := (s.nowNs, t) :: new ++ (l.drop new.length).take 1
  { s with lehr := { s.lehr with hist := amSet (fun _ => []) s.lehr.hist c l } }

/-- R_c as its register reports it, held at the register's limits. -/
def rateWord (r : Int) : Nat := wrapN 16 (max (-32768) (min 32767 r))

/-- When the RATE demand of a cluster that waits for its hold ends (R390). -/
def State.holdDue (s : State) (c : Nat) : Nat :=
  amGet (fun _ => 0) s.lehr.holdAt c - 1 + s.actF A.LEHR_RISE F.LEHR_RISE_RISE_HOLD_MS * 1000000

/-- Whether a RATE demand's hold has passed (R390). -/
def State.holdOver (s : State) (c : Nat) : Bool :=
  amGet (fun _ => 0) s.lehr.holdAt c != 0 && decide (s.holdDue c ≤ s.nowNs)

/-- The least demand of a cluster in RATE mode: a blind one not yet acknowledged stands at THROTTLE (R395). -/
def State.leastDemand (s : State) (c : Nat) : Nat :=
  if s.blind c && s.lehr.unacked.contains c then s.actF A.LEHR_CTRL F.LEHR_CTRL_D_MIN else 0

/-- The demand of a cluster at a sample (R389, R390, R393, R395); `failing`: a sensor of it fails now with D above 0. -/
def clusterDemand (c : Nat) (t : Int) (failing : Bool) (s : State) : State :=
  let anyFailed := (clusterSensors c).any s.failed && !s.blind c
  let put (d : Nat) (s : State) := s.put (A.LEHR_CL_STAT c) F.LEHR_CL_STAT_DEMAND (min d 63)
  if s.rateMode then
    let t := if failing && !s.blind c then t + s.margin c else t
    let r := if s.blind c then 0 else s.rateOf c t
    let lim : Int := (s.actF A.LEHR_RISE F.LEHR_RISE_RISE_LIMIT : Nat)
    let above := 10 * r - 16 * lim
    let s := s.put (A.LEHR_CL_TEMP c) F.LEHR_CL_TEMP_RATE (rateWord r)
    let was := amGet (fun _ => 0) s.lehr.holdAt c
    let hold := if 5 * r ≤ 4 * lim then (if was = 0 then s.nowNs + 1 else was) else 0
    let s := { s with lehr := { s.lehr with holdAt := amSet (fun _ => 0) s.lehr.holdAt c hold } }
    let d := if s.holdOver c then 0
      else if 0 < above then
        max (s.demand c) (s.actF A.LEHR_CTRL F.LEHR_CTRL_D_MIN + (s.actF A.LEHR_CTRL F.LEHR_CTRL_RSLOPE * above.toNat + 159) / 160)
      else s.demand c
    put (max d (s.leastDemand c)) s
  else
    let r := if s.blind c then 0 else s.rateOf c t
    let t := if anyFailed then t + s.margin c else t
    let s := s.put (A.LEHR_CL_TEMP c) F.LEHR_CL_TEMP_RATE (rateWord r)
    put (max (s.demandAt t) (min (s.demand c) (s.demandAt (t + s.level F.LEHR_LEVELS_HYST)))) s

/-- A cluster takes its temperature, demand and state, and D follows (R386 to R392). -/
def clusterUpdate (c : Nat) (failing : Bool) (s : State) : State :=
  match s.clusterTemp c with
  | none => lehrFault (lehrDepth s)
  | some t =>
    let above := decide (s.actF A.LEHR_CTRL F.LEHR_CTRL_D_MAX < s.maxDemand)
    let s := s.put (A.LEHR_CL_TEMP c) F.LEHR_CL_TEMP_TEMP (wrapN 16 t)
    let s := clusterDemand c t failing s
    let warnT := if !s.rateMode && (clusterSensors c).any s.failed && !s.blind c then t + s.margin c else t
    let s := clusterReport c warnT (keepTemp c t s)
    let s := s.raiseIf (s.actF A.LEHR_CTRL F.LEHR_CTRL_EN == 1 && !above
      && decide (s.actF A.LEHR_CTRL F.LEHR_CTRL_D_MAX < s.maxDemand)) P.LEHR 4
    lehrFault (lehrDepth s)

/-- A sensor is marked failed (R387, R393, R395). -/
def sensorFail (n reason : Nat) (s : State) : State :=
  let c := n / 3
  let d := s.depth
  let s := (s.put (A.LEHR_SENSOR n) F.LEHR_SENSOR_FAILED 1).put (A.LEHR_SENSOR n) F.LEHR_SENSOR_REASON reason
  let s := (s.put A.LEHR_FAILED ⟨n, n⟩ 1).raise P.LEHR 2
  let s := s.setSensor n { s.sensor n with good := 0, hot := 0, spread := 0 }
  let s := s.put A.LEHR_STAT F.LEHR_STAT_FROZEN 1
  let s := if 0 < d then s.put A.LEHR_STAT F.LEHR_STAT_FLOOR d else s
  if s.blind c then
    let count := ((List.range 8).filter s.blind).length
    let s := (s.put A.LEHR_STAT F.LEHR_STAT_BLIND count).raise P.LEHR 3
    let s := { s with lehr := { s.lehr with unacked := c :: s.lehr.unacked.filter (· != c) } }
    let s := clusterUpdate c (decide (0 < d)) s
    if 2 ≤ count then thermalShutdown s else s
  else clusterUpdate c (decide (0 < d)) s

/-- The reason for which a sample fails its sensor (R387), and the samples in a row that differ from the median. -/
def judgeSample (n : Nat) (v : Option Int) (s : State) : Nat × Nat :=
  match v with
  | none => (1, 0)
  | some v =>
    let others := s.validOf ((clusterSensors (n / 3)).filter (· != n))
    let far : Bool := match others with
      | [a, b] => decide (384 < (2 * v - (s.reading a + s.reading b)).natAbs)
      | _ => false
    let run := if far then (s.sensor n).spread + 1 else 0
    let jump : Bool := match (s.sensor n).prev with
      | some p => decide (320 < (v - p).natAbs)
      | none => false
    (if v < -880 ∨ 2400 < v then 2 else if 3 ≤ run then 3 else if jump then 4 else 0, run)

/-- The sensor whose reading OP SENSORS holds now: EXTREF_V is measured first, and then each sensor for 2 ms, in rising number (R401; log
entry 25). -/
def State.calHeld (s : State) : Option Nat :=
  let k := (s.nowNs - s.cal.startAt) / 2000000
  if s.get A.CAL_STAT F.CAL_STAT_BUSY = 1 ∧ s.cal.op = 1 ∧ 1 ≤ k ∧ k ≤ 24 then some (k - 1) else none

/-- Show a sensor as under calibration, or no longer (R401). -/
def calShow (n : Option Nat) (v : Nat) (s : State) : State :=
  match n with | some n => s.put (A.LEHR_SENSOR n) F.LEHR_SENSOR_CALIBRATING v | none => s

/-- SENSOR[n].CALIBRATING follows. -/
def calHold (s : State) : State :=
  if s.calHeld = s.cal.held then s
  else { calShow s.calHeld 1 (calShow s.cal.held 0 s) with cal := { s.cal with held := s.calHeld } }

/-- A sample of a sensor (R386, R387, R396), and the failure that an injection adds (R387 reason 5). -/
def sensorSampleOp (x : SensorReading) (s : State) : State :=
  let n := x.sensor
  if 24 ≤ n ∨ s.nowNs < s.sampleDue n then s
  else if s.calHeld = some n then s.setSensor n { s.sensor n with lastAt := some s.nowNs }
  else
    let j := judgeSample n x.value s
    let was := s.failed n
    let s := match x.value with
      | some v => s.put (A.LEHR_SENSOR n) F.LEHR_SENSOR_READ (wrapN 16 v)
      | none => s
    let good := if j.1 = 0 then (s.sensor n).good + 1 else 0
    let s := s.setSensor n { s.sensor n with lastAt := some s.nowNs, prev := if x.value.isSome then x.value else (s.sensor n).prev, spread := j.2,
                                             good := min good 16 }
    let s :=
      if was then clusterUpdate (n / 3) false s
      else if j.1 ≠ 0 then sensorFail n j.1 s
      else
        let hot := if s.level F.LEHR_LEVELS_SHUTDOWN ≤ s.reading n then (s.sensor n).hot + 1 else 0
        let s := clusterUpdate (n / 3) false (s.setSensor n { s.sensor n with hot := min hot 2 })
        if 2 ≤ hot then thermalShutdown s else s
    if s.injArmed P.LEHR 2 ∧ s.power.mode = .run then
      match s.hottestOf (s.validOf (List.range 24)) with
      | some h => sensorFail h.1 5 (s.injTake P.LEHR 2)
      | none => s
    else s

/-- RISE_HOLD_MS has passed with R_c at or below half of RISE_LIMIT (R390). -/
def riseHoldExpireOp (c : Nat) (s : State) : State :=
  if s.rateMode ∧ c < 8 ∧ s.holdOver c then
    let s := s.put (A.LEHR_CL_STAT c) F.LEHR_CL_STAT_DEMAND (s.leastDemand c)
    let t := fgetS (s.rd (A.LEHR_CL_TEMP c)) F.LEHR_CL_TEMP_TEMP
    lehrDepth (clusterReport c t s)
  else s

/-- The clocks glide by one 12.5 MHz step towards D, 10 µs after the last (R391). -/
def clockGlideOp (s : State) : State :=
  let g := s.lehr.glide
  let d := s.depth
  if g = d ∨ s.nowNs < s.lehr.glideAt + 10000 then s
  else { s with lehr := { s.lehr with glide := if g < d then g + 1 else g - 1, glideAt := s.nowNs } }

/-- ACK_FAIL (R394, R395). -/
def ackFailOp (s : State) : State :=
  let s := (s.put A.LEHR_STAT F.LEHR_STAT_FROZEN 0).put A.LEHR_STAT F.LEHR_STAT_FLOOR 0
  let blind := s.lehr.unacked
  let s := { s with lehr := { s.lehr with unacked := [] } }
  lehrFault (lehrDepth (blind.foldl (fun t c => clusterUpdate c false t) s))

/-- RESTORE of a sensor (R387). -/
def restoreOp (n : Nat) (s : State) : State :=
  if n < 24 ∧ s.failed n ∧ 16 ≤ (s.sensor n).good then
    let s := (s.put (A.LEHR_SENSOR n) F.LEHR_SENSOR_FAILED 0).put A.LEHR_FAILED ⟨n, n⟩ 0
    let s := s.put A.LEHR_STAT F.LEHR_STAT_BLIND ((List.range 8).filter s.blind).length
    clusterUpdate (n / 3) false { s with lehr := { s.lehr with unacked := s.lehr.unacked.filter (· != n / 3) } }
  else s.guard1 P.LEHR 31 0x66 (some 2)

/-- A write of LEHR.CMD (R406). -/
def lehrCmd (v : Word) (s : State) : State :=
  if s.injArmed P.LEHR 31 then (s.injTake P.LEHR 31).guard1 P.LEHR 31 0x66 (some 2)
  else match fget v F.LEHR_CMD_OP with
  | 1 => ackFailOp s
  | 2 => restoreOp (fget v F.LEHR_CMD_SENSOR) s
  | _ => s.guard1 P.LEHR 31 0x66 (some 2)

/-! ### Fixture derating (R397 to R399) -/

/-- The entry of a fixture in a derating store; none where the store is null or short. -/
def State.derEntry (s : State) (b fix : Nat) : Option Nat :=
  if b = nullBuf ∨ s.bufSize b < (fix + 1) * 4 then none else some (s.bufBase b + fix * 4)

/-- g(T) of R397. -/
def derTarget (limit floor slope : Nat) (t : Rat) : Nat :=
  if t ≤ (limit : Nat) then 65535
  else max floor (roundEven (65535 * (65536 - (slope : Nat) * (t - (limit : Nat))) / 65536)).toNat

/-- DERATED, and its rise from 0 (R406). -/
def deratedCount (s : State) : State :=
  let n := (s.lehr.der.filter fun x => s.derOf x.1 != 65535).length
  let was := s.get A.LEHR_DERATED F.LEHR_DERATED_FIXTURES
  (s.put A.LEHR_DERATED F.LEHR_DERATED_FIXTURES n).raiseIf (decide (was = 0) && decide (0 < n)) P.LEHR 5

/-- An accepted report's temperatures reach Lehr (R286, R397, R398): binary16 codes, the board's and those of the emitters. -/
def lehrReport (fix : Nat) (temps : List Nat) (s : State) : State :=
  let b := s.actF A.LEHR_DER_BUF ⟨11, 0⟩
  match s.derEntry b fix with
  | none => if b = nullBuf then s else s.guard1 P.LEHR 29 0x67 (some 3)
  | some a =>
    let k := s.mem32 a % 16
    if s.actF A.LEHR_CTRL F.LEHR_CTRL_EN = 0 ∨ s.actF (A.LEHR_PROF_A k) F.LEHR_PROF_A_EN = 0 then s
    else
      let ts := temps.map (num16 0)
      let t := ts.foldl (fun m x => if m < x then x else m) (ts.headD 0)
      let g := derTarget (s.actF (A.LEHR_PROF_A k) F.LEHR_PROF_A_FD_LIMIT) (s.actF (A.LEHR_PROF_B k) F.LEHR_PROF_B_FD_FLOOR)
        (s.actF (A.LEHR_PROF_B k) F.LEHR_PROF_B_FD_SLOPE)
      let der := min (g t) (max (s.derOf fix) (g (t + (s.actF (A.LEHR_PROF_A k) F.LEHR_PROF_A_FD_HYST : Nat))))
      let s := s.memW (a + 2) 2 der
      let p := fget (s.pnd A.LEHR_DER_BUF) ⟨11, 0⟩
      let s := if p ≠ b ∧ !s.commit.acksLeft.contains P.LEHR then
          (match s.derEntry p fix with | some q => s.memW (q + 2) 2 der | none => s)
        else s
      deratedCount { s with lehr := { s.lehr with der := amSet (fun _ => 65535) s.lehr.der fix der } }

/-- Before the LEHR page acknowledges a seal that changes DER_BUF, every DER is copied to the new store (R398). -/
def derCopy (s : State) : State :=
  let b := s.actF A.LEHR_DER_BUF ⟨11, 0⟩
  let p := fget (s.pnd A.LEHR_DER_BUF) ⟨11, 0⟩
  if b = p ∨ b = nullBuf ∨ p = nullBuf then s
  else (List.range (min 262144 (min (s.bufSize b) (s.bufSize p) / 4))).foldl
    (fun t f => t.memW (s.bufBase p + f * 4 + 2) 2 (s.mem16 (s.bufBase b + f * 4 + 2))) s

/-- LEHR settings take effect at an epoch: a factor that R399 puts at 65,535 is dropped, and D follows CTRL. -/
def lehrEpoch (s : State) : State :=
  let der := s.lehr.der.filter fun x => s.derOf x.1 != 65535
  lehrFault (lehrDepth (deratedCount { s with lehr := { s.lehr with der := der } }))

/-! ### Calibration (R400 to R405) -/

/-- The nominal increment in 2⁻³² ns (R402). -/
def State.nominal (s : State) : Nat :=
  (roundEven (4 * (2 ^ 32 : Nat) * (1 + ((fgetS (s.rd A.CAL_TRIM_PPB) ⟨31, 0⟩ : Int) : Rat) / (10 ^ 9 : Nat)))).toNat

/-- Set the increment in use (R333, R358). -/
def setIncr (n : Nat) (s : State) : State :=
  ({ s with time := { s.time with incr := n } }.wr A.TIME_INCR_LO (w32 n)).put A.TIME_INCR_HI ⟨3, 0⟩ (n / 2 ^ 32)

/-- Whether the increment in use is nominal: in FREE, and in HOLDOVER before the time unit has ever been LOCKED (R340). -/
def State.onNominal (s : State) : Bool :=
  let st := s.get A.TIME_STAT F.TIME_STAT_STATE
  st == 0 || (st == 3 && s.time.locked.all fun x => x.2 == 0)

/-- The trim in force (R402); it moves a nominal increment with it (R340). -/
def calTrim (s : State) : State :=
  let ref : Int := fgetS (s.act A.CAL_REF_PPB) ⟨31, 0⟩
  let t := if s.get A.CAL_REF_STAT F.CAL_REF_STAT_IN_USE = 1 then -ref else -(s.cal.tbForce + ref)
  let s := s.wr A.CAL_TRIM_PPB (w32 (wrapN 32 t))
  if s.onNominal then setIncr s.nominal s else s

/-- A write of CAL.CMD (R400, R404, R407). -/
def calCmd (v : Word) (s : State) : State :=
  let op := fget v F.CAL_CMD_OP
  let lane := fget v F.CAL_CMD_LANE
  let bad := s.get A.CAL_STAT F.CAL_STAT_BUSY == 1 || op == 0 || decide (3 < op)
    || (op == 3 && (decide (69 < lane) || !s.offline (P.LANE lane)))
  let x := s.detect P.CAL 31 bad
  if x.1 then (x.2.put A.CAL_STAT F.CAL_STAT_RESULT 5).guard1 P.CAL 31 0x7C (some 0)
  else
    let s := x.2
    { s.put A.CAL_STAT F.CAL_STAT_BUSY 1 with cal := { s.cal with op := op, lane := lane, startAt := s.nowNs } }

/-- A calibration ends with a result. -/
def calEnd (res : Nat) (pend : Bool) (s : State) : State :=
  let s := (s.put A.CAL_STAT F.CAL_STAT_BUSY 0).put A.CAL_STAT F.CAL_STAT_RESULT res
  let s := if pend then s.put A.CAL_STAT F.CAL_STAT_PENDING 1 else s
  (s.raise P.CAL 0).raiseIf (decide (2 ≤ res)) P.CAL 2

/-- A lane's eye figures are current only while the monitor runs and a good spare slice is free (R405). -/
def eyeCurrent (l : Nat) (s : State) : State :=
  if s.actF (A.LANE_CTRL l) F.LANE_CTRL_EYE_EN = 0 ∨ s.get (A.LANE_STAT l) F.LANE_STAT_SPARE_SLICES = 0 then
    s.put (A.LANE_EYE l) F.LANE_EYE_VALID 0
  else s

/-- Good elements of a lane not in use (R408). -/
def laneSpares (l : Nat) (s : State) : State :=
  let free (n : Nat) (use bad : Word) := ((List.range n).filter fun i => !bitOf use i && !bitOf bad i).length
  let d := s.rd (A.LANE_DLINE l)
  let s := s.put (A.LANE_STAT l) F.LANE_STAT_SPARE_SLICES (free 20 (s.rd (A.LANE_SLICE_USE l)) (s.rd (A.LANE_SLICE_BAD l)))
  eyeCurrent l (s.put (A.LANE_STAT l) F.LANE_STAT_SPARE_DLINES (free 6 d (w32 (fget d F.LANE_DLINE_BAD))))

/-- A set of bits as a number. -/
def bitSet (l : List Nat) : Nat := l.eraseDups.foldl (fun n i => n + 2 ^ i) 0

/-- A lane calibration ends (R403, R408). -/
def laneDone (m : CalMeasure) (s : State) : State :=
  let l := s.cal.lane
  let good (n : Nat) (bad order : List Nat) :=
    (order ++ List.range n).eraseDups.filter fun i => decide (i < n) && !bad.contains i
  let sl := good 20 m.badSlices m.sliceOrder
  let dl := good 6 m.badLines m.lineOrder
  let sbad := bitSet (m.badSlices.filter (· < 20))
  let dbad := bitSet (m.badLines.filter (· < 6))
  let s := s.inc (A.LANE_CAL_CNT l)
  let s := (s.wr (A.LANE_SLICE_BAD l) (w32 sbad)).put (A.LANE_DLINE l) F.LANE_DLINE_BAD dbad
  let s := laneSpares l s
  let short := decide (sl.length < 16) || decide (dl.length < 4)
  let s := (s.put (A.LANE_STAT l) F.LANE_STAT_NO_SPARE short.toNat).setFault (P.LANE l) short
  let s := s.raise (P.LANE l) 1
  if short then calEnd 4 false (s.raise (P.LANE l) 2)
  else
    let sel := (l, bitSet (sl.take 16), sbad, bitSet (dl.take 4), dbad)
    let s := s.put (A.LANE_STAT l) F.LANE_STAT_PENDING 1
    calEnd 1 true { s with cal := { s.cal with sel := (s.cal.sel.filter fun x => x.1 != l) ++ [sel] } }

/-- A lane takes its new selection. -/
def laneApply (x : Nat × Nat × Nat × Nat × Nat) (s : State) : State :=
  let s := (s.wr (A.LANE_SLICE_USE x.1) (w32 x.2.1)).put (A.LANE_DLINE x.1) F.LANE_DLINE_USE x.2.2.2.1
  laneSpares x.1 (s.put (A.LANE_STAT x.1) F.LANE_STAT_PENDING 0)

/-- The results that were waiting when the newest boundary's epoch was applied take effect together (R400). -/
def calApplyOp (s : State) : State :=
  if !s.cal.due then s
  else
    let s := s.cal.sens.foldl (fun t x => t.wr (A.CAL_SENS_RES x.1) (w32 (wrapN 16 x.2))) s
    let s := { s with cal := { s.cal with tbForce := s.cal.tb.getD s.cal.tbForce } }
    let s := s.cal.sel.foldl (fun t x => laneApply x t) s
    let s := calTrim { s with cal := { s.cal with sens := [], tb := none, sel := [], due := false } }
    ((s.put A.CAL_STAT F.CAL_STAT_PENDING 0).wr A.CAL_CAL_FRAME (w32 s.frameNum)).raise P.CAL 1

/-- An epoch is applied: results that wait are due, and a new REF_PPB is in force (R400, R402). -/
def calEpoch (s : State) : State :=
  calTrim { s with cal := { s.cal with due := s.cal.due || s.get A.CAL_STAT F.CAL_STAT_PENDING == 1 } }

/-- How long the calibration in progress takes to the measurement `m`, ns: 50 ms for the sensors, or none where EXTREF_V is out of
range; the gate of 1 s for the time base, or none without its reference; a lane ends at any time within its 40 ms (R401 to R403;
log entry 25). -/
def State.calDue (s : State) (m : CalMeasure) : Nat :=
  s.cal.startAt + (match s.cal.op with
    | 1 => if m.extrefUv < 1243750 ∨ 1256250 < m.extrefUv then 0 else 50000000
    | 2 => if !m.refPresent then 0 else 1000000000
    | _ => 0)

/-- The calibration in progress ends with its measurement (R401 to R403); results already due take effect before. -/
def calCompleteOp (m : CalMeasure) (s : State) : State :=
  if s.get A.CAL_STAT F.CAL_STAT_BUSY = 0 then s
  else
  let s := calApplyOp s
  match s.cal.op with
  | 1 =>
    let s := s.put A.CAL_EXTREF_UV F.CAL_EXTREF_UV_UV m.extrefUv
    if m.extrefUv < 1243750 ∨ 1256250 < m.extrefUv then calEnd 2 false s
    else
      let lim := s.actF A.CAL_RES_LIMIT F.CAL_RES_LIMIT_MC
      let ok := (m.residuals.take 24).zipIdx.filter fun x => decide (x.1.natAbs ≤ lim)
      let s := ok.foldl (fun t x => { t.put (A.CAL_SENS_RES x.2) F.CAL_SENS_RES_PENDING (wrapN 16 x.1) with
        cal := { t.cal with sens := amSet (fun _ => 0) t.cal.sens x.2 x.1 } }) s
      calEnd (if ok.length = 24 then 1 else 3) (!ok.isEmpty) s
  | 2 =>
    if !m.refPresent ∨ 200 < m.refOffPpm then calEnd 2 false s
    else
      let s := s.wr A.CAL_TB_PPB (w32 (wrapN 32 m.tbPpb))
      calEnd 1 true { s with cal := { s.cal with tb := some m.tbPpb } }
  | _ => laneDone m s

/-- When a lane's eye is measured next: every 100 ms (R405). -/
def State.eyeDue (s : State) (l : Nat) : Nat :=
  let t := amGet (fun _ => 0) s.cal.eyes l
  if t = 0 then s.nowNs else t + 100000000

/-- Whether an eye's figures lie below EYE_MIN (R405). -/
def State.eyeLow (s : State) (l width height : Nat) : Bool :=
  decide (width < s.actF (A.LANE_EYE_MIN l) F.LANE_EYE_MIN_W) || decide (height < s.actF (A.LANE_EYE_MIN l) F.LANE_EYE_MIN_H_MV)

/-- A lane's eye is measured now. -/
def eyeStamp (l : Nat) (s : State) : State := { s with cal := { s.cal with eyes := amSet (fun _ => 0) s.cal.eyes l s.nowNs } }

/-- The eye of a lane is measured (R405). -/
def eyeMeasureOp (l width height : Nat) (s : State) : State :=
  if decide (70 ≤ l) || s.actF (A.LANE_CTRL l) F.LANE_CTRL_EYE_EN == 0 || s.offline (P.LANE l) || decide (s.nowNs < s.eyeDue l) then s
  else if s.get (A.LANE_STAT l) F.LANE_STAT_SPARE_SLICES = 0 then s.put (A.LANE_EYE l) F.LANE_EYE_VALID 0
  else
    let x := (eyeStamp l s).detect (P.LANE l) 0 false
    let width := if x.1 then 0 else width
    let s := x.2.wr (A.LANE_EYE l) (w32 (2 ^ 31 + height % 1024 * 65536 + width % 128))
    s.raiseIf (s.eyeLow l width height) (P.LANE l) 0

end Sys2Proof.Machine
end

