-- ==== Sys2Proof/Machine/Tuiper.lean ====
section
/-!
DEFINITION. The upstream side of Tuiper (R255, R274 to R289, R296, R345, R346): requests, SYNC and DELAY_REQ, telemetry,
supervision and the fault queue. A message is carried as its words; a message's bytes are those of its words (R253).
-/
namespace Sys2Proof.Machine

/-- The header of a message that the Krafohel originates outside an engine frame (R254); SEQ is filled in where the frame begins. -/
def plainHeader (s : State) (type link bodyWords : Nat) : List Word :=
  [w32 (2 ^ 28 + type * 2 ^ 24 + (if s.isPartner then 2 ^ 17 else 0) + (32 + 4 * bodyWords)), 0,
   w32 (s.get A.TUIPER_SESSION F.TUIPER_SESSION_SESSION * 65536 + link * 256), 0, 0, 0, 0, 0x10000]

/-- LENGTH of a message. -/
def msgLen (ws : List Word) : Nat := fget (wordAt ws 0) ⟨15, 0⟩

/-- Whether a message passes R255, with at least `need` body bytes. -/
def msgOk (ws : List Word) (need : Nat) : Bool :=
  fget (wordAt ws 0) ⟨31, 28⟩ == 1 && decide (1 ≤ tuiperType ws) && decide (tuiperType ws ≤ 9)
    && decide (32 + need ≤ msgLen ws) && decide (msgLen ws ≤ 4 * ws.length)
    && decide (fget (wordAt ws 5) ⟨29, 0⟩ ≤ 999999999)

/-- Body word `i` of a message. -/
def bodyAt (ws : List Word) (i : Nat) : Nat := (wordAt ws (8 + i)).toNat

/-- A field of body word `i`. -/
def bodyF (ws : List Word) (i hi lo : Nat) : Nat := bits (bodyAt ws i) hi lo

/-- A message is discarded: UP_BAD, the guard record and the event (R255, R285). -/
def upBad (s : State) : State := ((s.inc A.TUIPER_UP_BAD).guard1 P.TUIPER 31 0x93 (some 3)).raise P.TUIPER 4

/-- A message received on a link is taken from the port; `none`: Tuiper is off and the frame is discarded, or the message is
(R255, R296, R455). -/
def upTake (link : Nat) (ok : Bool) (s : State) : Bool × State :=
  let s := takeRx link s
  if !s.tuiperOn then (false, s)
  else
    let a := s.detect P.TUIPER 4 (!ok)
    let b := a.2.detect P.TUIPER 31 a.1
    if b.1 then (false, upBad b.2) else (true, b.2)

/-! ### Requests (R282) -/

/-- A write of TX_CMD. -/
def txCmd (v : Word) (s : State) : State :=
  let ty := fget v F.TUIPER_TX_CMD_TYPE
  let n := fget v F.TUIPER_TX_CMD_WORDS
  let bad := (ty != 7 && ty != 8) || n == 0 || decide (256 < n)
    || s.get A.TUIPER_TX_STAT F.TUIPER_TX_STAT_BUSY == 1 || !s.tuiperOn
  let x := s.detect P.TUIPER 31 bad
  if x.1 then (x.2.put A.TUIPER_TX_STAT F.TUIPER_TX_STAT_RESULT 2).guard1 P.TUIPER 31 0x92 (some 2)
  else
    let s := x.2
    let body := (List.range n).map fun i => s.rd (A.TUIPER_TX_DATA i)
    { s.put A.TUIPER_TX_STAT F.TUIPER_TX_STAT_BUSY 1 with
      tuiper := { s.tuiper with req := some (ty, fget v F.TUIPER_TX_CMD_LINK, body) } }

/-- The request waiting is begun on its link, or is discarded on a down link (R301) and ends with LINK_DOWN. -/
def txBegunOp (s : State) : State :=
  match s.tuiper.req with
  | none => s
  | some (ty, l, body) =>
    if !s.tuiperOn then s
    else
      let ws := plainHeader s ty l body.length ++ body
      let f : TxFrame := ⟨false, .tuiper l ws, none, false, none, true⟩
      let s := { s with tuiper := { s.tuiper with req := none } }
      if !s.linkUp l || !s.portOn l then handOver l f s
      else portKick l (s.setPort l { s.port l with pre := f :: (s.port l).pre })

/-! ### SYNC (R275, R345) -/

/-- The words of a time: seconds and nanoseconds. -/
def timeWords (t : Nat) : List Word := [w32 (secOf t / 2 ^ 32), w32 (secOf t), w32 (nsOf t)]

/-- A SYNC on one link; T_A is written as it leaves. -/
def syncLink (l : Nat) (s : State) : State :=
  let q := amGet (fun _ => 0) s.tuiper.tseq l
  let prio := s.actF A.TIME_FM_CFG F.TIME_FM_CFG_PRIO
  let body := [w32 (2 ^ 28 + prio * 65536 + q), 0, 0, 0, 0, 0, 0, 0, 0]
  let ws := plainHeader s 9 l 9 ++ body
  let s := { s with tuiper := { s.tuiper with tseq := amSet (fun _ => 0) s.tuiper.tseq l ((q + 1) % 65536) } }
  handOver l (plainFrame true (.tuiper l ws)) s

/-- The SYNC interval in 2⁻³² ns: 2^−SYNC_LOG s (R345). -/
def State.syncStep (s : State) : Nat := 10 ^ 9 * 2 ^ 32 / 2 ^ s.actF A.TIME_FM_CFG F.TIME_FM_CFG_SYNC_LOG

/-- Which multiple of the SYNC interval the next SYNC leaves at: the first at or after now at which none has left. -/
def State.syncNext (s : State) : Nat :=
  let n := (s.time.t + s.syncStep - 1) / s.syncStep
  match s.time.syncN with
  | some m => if m = n * s.syncStep then n + 1 else n
  | none => n

/-- SYNC frames leave on every fixture link that is up, once Krafohel time has come to a whole multiple of the interval (R345); at the
first tick at or after it. -/
def tuiperSyncOp (s : State) : State :=
  let n := s.time.t / s.syncStep * s.syncStep
  if !s.tuiperOn ∨ s.time.t < n ∨ n + s.time.incr ≤ s.time.t ∨ s.time.syncN = some n then s
  else
    (List.range 64).foldl (fun t l => if t.linkUp l && t.portOn l then syncLink l t else t)
      { s with time := { s.time with syncN := some n } }

/-! ### DELAY_REQ (R275, R345, R346) -/

/-- Write the entry of the path-delay store: held values (oldest first) and T_LAST. -/
def pathPut (a : Nat) (vals : List Nat) (last : Nat) (s : State) : State :=
  let n := vals.length
  let mean := if n = 0 then 0 else (roundEven (((vals.foldl (· + ·) 0 : Nat) : Rat) / (n : Nat))).toNat
  let spread := vals.foldl max 0 - vals.foldl min (vals.headD 0)
  let age := (secOf s.nowNs + 2 ^ 32 - last % 2 ^ 32) % 2 ^ 32
  let valid := decide (4 ≤ n) && decide (spread ≤ s.actF A.TIME_MPD_SPREAD F.TIME_MPD_SPREAD_NS)
    && decide (age ≤ s.actF A.TIME_FM_CFG F.TIME_FM_CFG_MPD_AGE_S)
  let s := (s.memW a 4 mean).memW (a + 4) 4 (valid.toNat * 2 ^ 31 + n * 2 ^ 24 + min spread (2 ^ 24 - 1))
  let s := s.memW (a + 8) 4 (last % 2 ^ 32)
  (List.range 8).foldl (fun t i => t.memW (a + 16 + 4 * i) 4 (vals.getD i 0)) s

/-- A measurement is taken into its fixture's entry (R346). -/
def pathTake (fix mpd : Nat) (s : State) : State :=
  match s.pathEntry fix with
  | none => if s.actF A.TIME_PATH_BUF ⟨11, 0⟩ = nullBuf then s else s.guard1 P.TIME 29 0xE2 (some 2)
  | some a =>
    let held := min 8 (bits (s.mem32 (a + 4)) 27 24)
    let vals := (List.range held).map fun i => s.mem32 (a + 16 + 4 * i)
    let far : Bool := match s.pathDelay fix with
      | some m => decide (s.actF A.TIME_MPD_SPREAD F.TIME_MPD_SPREAD_NS < ((mpd : Int) - m).natAbs)
      | none => false
    let run := amGet (fun _ => 0) s.time.mpdRuns fix + 1
    let setRun (n : Nat) (s : State) : State :=
      { s with time := { s.time with mpdRuns := amSet (fun _ => 0) s.time.mpdRuns fix n } }
    if far then
      let s := s.inc A.TIME_MPD_DISCARD
      if 8 ≤ run then pathPut a [] (s.mem32 (a + 8)) (setRun 0 s) else setRun run s
    else
      let vals := vals ++ [mpd]
      pathPut a (vals.drop (vals.length - 8)) (secOf s.nowNs) (setRun 0 s)

/-- Count a DELAY_REQ against the limits of R345: per link and in all, in the second in progress. -/
def dreqAllowed (l : Nat) (s : State) : Bool × State :=
  let sec := secOf s.nowNs + 1
  let g (m : AMap Nat) (k : Nat) := amGet (fun _ => 0) m k
  let m := if g s.time.dreqs 65 = sec then s.time.dreqs else [(65, sec)]
  if 65536 ≤ g m l ∨ 1048576 ≤ g m 64 then (false, { s with time := { s.time with dreqs := m } })
  else
    let m := amSet (fun _ => 0) (amSet (fun _ => 0) m l (g m l + 1)) 64 (g m 64 + 1)
    (true, { s with time := { s.time with dreqs := m } })

/-- The time a SYNC with a TSEQ left a link, and how many later ones did, where the block still knows it (R345). -/
def State.syncTime (s : State) (l tseq : Nat) : Option (Nat × Nat) :=
  let mine := s.tuiper.syncs.filter fun q => q.1 == l
  let idx := mine.findIdx fun q => q.2.1 == tseq
  mine[idx]?.map fun q => (q.2.2, idx)

/-- Twice the delay that a DELAY_REQ measures: (T_B − T_A) + (T_D − T_C), in ns (R345). -/
def delaySum (ws : List Word) (t1 t4 : Nat) : Int :=
  let at3 (i : Nat) : Nat := (bodyAt ws i * 2 ^ 32 + bodyAt ws (i + 1)) * 10 ^ 9 + bodyAt ws (i + 2)
  ((at3 1 : Nat) : Int) - (t1 : Nat) + ((t4 : Nat) - (at3 4 : Nat) : Int)

/-- The answer to a DELAY_REQ that arrived at `t4`, with its measurement taken where it is one (R345, R346). T_A of a SYNC that the block no longer knows is
a free value (log entry 1). -/
def delayAnswer (l : Nat) (ws : List Word) (t4 : Nat) (s : State) : State :=
  let tseq := bodyF ws 0 15 0
  let fix := bodyF ws 7 17 0
  let known := s.syncTime l tseq
  let r := match known with
    | some q => (q.1, s)
    | none => s.fresh (2 ^ 64)
  let s := r.2
  let d := roundEven ((delaySum ws r.1 t4 : Rat) / 2)
  let used := (match known with | some q => decide (q.2 ≤ 64) | none => false) && decide (0 ≤ d)
  let mpd := if used then d.toNat % 2 ^ 32 else 0
  let s := if used then pathTake fix mpd s else s.inc A.TUIPER_TIME_NEG
  let body := [w32 (3 * 2 ^ 28 + tseq)] ++ timeWords t4 ++ timeWords r.1 ++ [w32 fix, w32 mpd]
  let s := s.inc A.TIME_DREQ_RX
  handOver l (plainFrame true (.tuiper l (plainHeader s 9 l 9 ++ body))) s

/-- A DELAY_REQ on a link is answered, or dropped beyond the limits. -/
def delayReqOp (l : Nat) (ws : List Word) (s : State) : State :=
  let x := upTake l (msgOk ws 36) s
  if !x.1 then x.2
  else if tuiperType ws ≠ 9 ∨ bodyF ws 0 31 28 ≠ 2 then x.2
  else
    let y := dreqAllowed l x.2
    if y.1 then delayAnswer l ws (s.rxAt l) y.2 else (y.2.inc A.TIME_DREQ_DROP).raise P.TIME 2

/-! ### Supervision (R287 to R289) -/

/-- The supervision entry of a fixture; none where the store is null or short. -/
def State.supEntry (s : State) (fix : Nat) : Option Nat :=
  let b := s.actF A.TUIPER_SUP_BUF ⟨11, 0⟩
  if b = nullBuf ∨ s.bufSize b < fix * 16 + 16 then none else some (s.bufBase b + fix * 16)

/-- STATE of a fixture; kept outside device memory where it has no entry. -/
def State.supState (s : State) (fix : Nat) : Nat :=
  match s.supEntry fix with
  | some a => s.mem32 a
  | none => amGet (fun _ => 0) s.tuiper.sup fix

/-- The faults in a STATE word, as the bits of CAUSES: OPEN, SHORT, TEL_LOST, FIX_FAULT. -/
def supFaults (st : Nat) : Nat := bits st 29 29 + 2 * bits st 28 28 + 4 * bits st 30 30 + 8 * bits st 27 27

/-- Write STATE and keep FAULTS (R289). -/
def supPut (fix st : Nat) (s : State) : State :=
  let was := supFaults (s.supState fix) != 0
  let is := supFaults st != 0
  let s := match s.supEntry fix with
    | some a => s.memW a 4 st
    | none => { s with tuiper := { s.tuiper with sup := amSet (fun _ => 0) s.tuiper.sup fix st } }
  let n := s.get A.TUIPER_FAULTS F.TUIPER_FAULTS_FIXTURES
  s.put A.TUIPER_FAULTS F.TUIPER_FAULTS_FIXTURES (if is && !was then n + 1 else if was && !is then n - 1 else n)

/-- FAULTS counted anew, when the supervision store changes. -/
def faultsRecount (s : State) : State :=
  let b := s.actF A.TUIPER_SUP_BUF ⟨11, 0⟩
  let n := if b = nullBuf then 0 else min 262144 (s.bufSize b / 16)
  let inStore := ((List.range n).filter fun f => supFaults (s.supState f) != 0).length
  let beyond := (s.tuiper.sup.filter fun x => decide (n ≤ x.1) && supFaults x.2 != 0).length
  s.put A.TUIPER_FAULTS F.TUIPER_FAULTS_FIXTURES (inStore + beyond)

/-- Whether sets are enabled (R297). -/
def State.setsOn (s : State) : Bool := s.actF A.SETS_CTRL F.SETS_CTRL_EN == 1

/-- Whether a fixture is a member of an enabled set. -/
def State.setMember (s : State) (fix : Nat) : Bool := s.setsOn && (s.setOfFix fix).isSome

/-- A fault onset (R289), and its detection by the fixture's set (R292). `kind` is the code of FAULT_Q.KIND. -/
def faultOnset (kind emit fix : Nat) (s : State) : State :=
  let w := w32 (2 ^ 31 + kind * 2 ^ 24 + emit * 2 ^ 21 + fix)
  let s := if s.tuiper.faultQ.length < 64 then { s with tuiper := { s.tuiper with faultQ := s.tuiper.faultQ ++ [w] } }
    else (s.add A.TUIPER_FAULT_LOST F.TUIPER_FAULT_LOST_COUNT 1).raise P.TUIPER 1
  let s := s.raise P.TUIPER 0
  match s.setOfFix fix with
  | some d =>
    if s.setsOn && bits (d.words.getD 0 0) (23 + kind) (23 + kind) == 1 then
      { s with tuiper := { s.tuiper with detected := s.tuiper.detected ++ [(d.id, kind, fix, s.frameNum)] } }
    else s
  | none => s

/-- Whether a fixture's last report is older than TEL_TIMEOUT (R287, R288). A fixture without an entry has no T_RX_MS: the command
says that its time has passed. -/
def State.telOld (s : State) (fix : Nat) : Bool :=
  match s.supEntry fix with
  | some a => decide (s.actF A.TUIPER_TEL_TIMEOUT F.TUIPER_TEL_TIMEOUT_MS ≤
      (s.nowNs / 1000000 % 2 ^ 32 + 2 ^ 32 - s.mem32 (a + 12)) % 2 ^ 32)
  | none => true

/-- A fixture's telemetry is lost (R288): a supervised one's, whose report is too old, or an unseen set member's. -/
def telLostOp (fix : Nat) (s : State) : State :=
  let st := s.supState fix
  if 2 ^ 18 ≤ fix ∨ bits st 30 30 = 1 ∨ (if bits st 31 31 = 1 then !s.telOld fix else !s.setMember fix) then s
  else faultOnset 3 0 fix (supPut fix (st + 2 ^ 30) s)

/-- A read of FAULT_Q. -/
def faultQTake (s : State) : Word × State :=
  match s.tuiper.faultQ with
  | [] => (0, s)
  | w :: ws => (w, { s with tuiper := { s.tuiper with faultQ := ws } })

/-! ### Telemetry (R283 to R286) -/

/-- The body bytes of a TELEMETRY message. -/
def telNeed (ws : List Word) : Nat := 12 + 4 * bodyF ws 0 19 16 + (if bodyF ws 0 15 15 = 1 then 16 else 0)

/-- The binary16 codes of a report: the board's temperature and the emitters'. -/
def telTemps (ws : List Word) : List Nat :=
  bodyF ws 2 15 0 :: (List.range (bodyF ws 0 19 16)).map fun e => bodyF ws (3 + e) 15 0

/-- An accepted report that arrived at `at_` (R286, R288). -/
def telAccept (link fix : Nat) (ws : List Word) (at_ : Nat) (s : State) : State :=
  let inj := s.injArmed P.TUIPER 0
  let s := if inj then s.injTake P.TUIPER 0 else s
  let n := bodyF ws 0 19 16
  let health := if inj then bodyF ws 0 7 7 * 128 + 2 else bodyF ws 0 7 0
  let open_ := (List.range n).foldl (fun m e => m + bodyF ws (3 + e) 31 31 * 2 ^ e) 0
  let short := (List.range n).foldl (fun m e => m + bodyF ws (3 + e) 30 30 * 2 ^ e) 0
  let old := s.supState fix
  let st := 2 ^ 31 + (if open_ = 0 then 0 else 2 ^ 29) + (if short = 0 then 0 else 2 ^ 28)
    + (if health % 128 = 2 then 2 ^ 27 else 0) + open_ * 65536 + short * 256 + health
  let s := s.inc A.TUIPER_TEL_RX
  let s := supPut fix st s
  let s := match s.supEntry fix with
    | some a =>
      let s := (s.memW (a + 4) 4 (wordAt ws 1).toNat).memW (a + 8) 4 (fget (wordAt ws 2) ⟨31, 16⟩ * 65536)
      s.memW (a + 12) 4 (at_ / 1000000 % 2 ^ 32)
    | none => s.guard1 P.TUIPER 29 0x94 (some 4)
  let s := (List.range 8).foldl (fun t e =>
    let t := if open_ / 2 ^ e % 2 = 1 ∧ bits old (16 + e) (16 + e) = 0 then faultOnset 1 e fix t else t
    if short / 2 ^ e % 2 = 1 ∧ bits old (8 + e) (8 + e) = 0 then faultOnset 2 e fix t else t) s
  let s := if health % 128 = 2 ∧ bits old 27 27 = 0 then faultOnset 4 0 fix s else s
  let temps := telTemps ws
  let s := lehrReport fix temps s
  let tm := (List.range 8).foldl (fun m e => amSet (fun _ => 65536) m (fix * 8 + e)
    (if e < n then temps.getD (e + 1) 65536 else 65536)) s.solver.temps
  let s := { s with solver := { s.solver with temps := tm } }
  let s := if bodyF ws 0 15 15 = 1 ∧ !s.isPartner then
      loopArrive ⟨fix, bodyAt ws (3 + n), bodyF ws 0 14 14 == 1, (List.range 3).map fun i => bodyAt ws (4 + n + i), at_⟩ s
    else s
  if s.actF A.TUIPER_QSEL F.TUIPER_QSEL_TEL_EN = 1 then
    queuePacket (s.actF A.TUIPER_QSEL F.TUIPER_QSEL_TEL_Q) link 2 0 0xFF ((wordBytes ws).take (msgLen ws)) at_ s
  else s

/-- A TELEMETRY message on a link (R285). -/
def telemetryOp (link : Nat) (ws : List Word) (s : State) : State :=
  let n := bodyF ws 0 19 16
  let ok := msgOk ws (telNeed ws) && fget (wordAt ws 0) ⟨16, 16⟩ == 1 && fget (wordAt ws 2) ⟨13, 8⟩ == link
    && decide (n ≤ 8) && (telTemps ws).all finite16
  let at_ := s.rxAt link
  let x := upTake link ok s
  if !x.1 ∨ tuiperType ws ≠ 6 then x.2
  else
    let s := x.2
    let fix := link % 64 * 4096 + bodyF ws 0 31 20
    let old : Bool := match s.supEntry fix with
      | some a => bits (s.mem32 a) 31 31 == 1 && s.mem32 (a + 8) / 65536 == fget (wordAt ws 2) ⟨31, 16⟩
          && !later (wordAt ws 1).toNat (s.mem32 (a + 4))
      | none => false
    if old then s.inc A.TUIPER_TEL_OLD else telAccept link fix ws at_ s

/-- An ENUM or SET frame on a link: a REPLY, ACK or NACK is placed in HK_Q (R282). -/
def hkFrameOp (link : Nat) (ws : List Word) (s : State) : State :=
  let ty := tuiperType ws
  let op := bodyF ws 0 31 28
  let x := upTake link (msgOk ws (if ty = 7 then (if op = 4 then 32 else 20) else 16)) s
  if x.1 && ((ty == 7 && op == 4) || (ty == 8 && (op == 3 || op == 4))) then
    let q := x.2.actF A.TUIPER_QSEL F.TUIPER_QSEL_HK_Q
    let before := (x.2.queue q).words.length
    let s := queuePacket q 0xFF 2 0 0xFF ((wordBytes ws).take (msgLen ws)) (s.rxAt link) x.2
    s.raiseIf (decide ((s.queue q).words.length ≠ before)) P.TUIPER 5
  else x.2

end Sys2Proof.Machine
end

