-- ==== Sys2Proof/Machine/Sets.lean ====
section
/-!
DEFINITION. Fail-together sets (R290 to R295, R297): the check of the set table, the states of the sets at each boundary, the
commands and the transition queue.
-/
namespace Sys2Proof.Machine

/-! ### The check (R291) -/

/-- The working values of a check: fixtures taken (by set), the sets kept, duplicates, the first set with one, and clips. -/
structure SetChk where
  taken : List (Nat × Nat)
  sets : List SetDef
  dup : Nat
  first : Nat
  clip : Bool
deriving DecidableEq, Repr

/-- Whether a fixture is already in a lower-numbered set of a check. -/
def SetChk.has (c : SetChk) (fix : Nat) : Bool := c.taken.any fun t => t.1 == fix

/-- The entry of a set with its reserved bits cleared; none where it is disabled. -/
def State.setEntry (s : State) (b i : Nat) : Option (List Nat) :=
  let w (k : Nat) := s.mem32 (s.bufBase b + i * 32 + 4 * k)
  if bits (w 0) 31 31 = 0 then none
  else some [bits (w 0) 31 29 * 2 ^ 29 + bits (w 0) 27 24 * 2 ^ 24 + bits (w 0) 15 0, bits (w 1) 17 0,
             bits (w 2) 31 24 * 2 ^ 24 + bits (w 2) 18 0, bits (w 3) 31 16 * 65536 + bits (w 3) 11 0, w 4, w 5]

/-- Check one set: its members that exist, less those of lower sets. -/
def checkSet (s : State) (mb i : Nat) (ws : List Nat) (c : SetChk) : SetChk :=
  let first := ws.getD 1 0
  let count := bits (ws.getD 2 0) 18 0
  let have_ := if mb = nullBuf then 0 else min count (s.bufSize mb / 4 - first)
  let fixes := ((List.range have_).map fun m => s.mem32 (s.bufBase mb + (first + m) * 4) % 2 ^ 18).eraseDups
  let drop := fixes.filter c.has
  let keep := fixes.filter fun f => !c.has f
  { taken := c.taken ++ keep.map fun f => (f, i), sets := c.sets ++ [⟨i, ws, keep⟩],
    dup := c.dup + drop.length, first := if c.dup = 0 ∧ !drop.isEmpty then i else c.first,
    clip := c.clip || decide (have_ < count) }

/-- The tables that an epoch changes are checked before the SETS page acknowledges its seal. -/
def setsCheck (s : State) : State :=
  let sb := fget (s.pnd A.SETS_SET_BUF) ⟨11, 0⟩
  let mb := fget (s.pnd A.SETS_MEMB_BUF) ⟨11, 0⟩
  if sb = s.actF A.SETS_SET_BUF ⟨11, 0⟩ ∧ mb = s.actF A.SETS_MEMB_BUF ⟨11, 0⟩ then s
  else
    let n := if sb = nullBuf then 0 else min 4096 (s.bufSize sb / 32)
    let c : SetChk := (List.range n).foldl (fun (c : SetChk) i => match s.setEntry sb i with
      | some ws => checkSet s mb i ws c
      | none => c) ⟨[], [], 0, 0, false⟩
    let s := (List.range c.dup).foldl (fun t _ => t.guard1 P.SETS 31 0xA1 (some 1)) s
    let s := if c.clip ∨ (sb ≠ nullBuf ∧ n < 4096) then s.guard1 P.SETS 29 0xA2 (some 2) else s
    let bad := decide (0 < c.dup) || c.clip
    let chk := w32 (bad.toNat * 2 ^ 31 + min c.dup (2 ^ 19 - 1) * 4096 + c.first % 4096)
    { s with tuiper := { s.tuiper with nextSets := some (c.sets, chk) } }

/-! ### States (R292, R295) -/

/-- Set the record of a set. -/
def State.putSet (s : State) (i : Nat) (x : SetSt) : State :=
  { s with tuiper := { s.tuiper with setSt := amSet (fun _ => SetSt.init) s.tuiper.setSt i x } }

/-- IN_FALLBACK and the FAULT of the page (R297). -/
def setsCount (s : State) : State :=
  let n := (s.tuiper.setSt.filter fun x => x.2.state != 0).length
  (s.put A.SETS_IN_FALLBACK F.SETS_IN_FALLBACK_SETS n).setFault P.SETS (decide (0 < n))

/-- No current entry counts as sent for the members of a set (R263). -/
def forgetMembers (i : Nat) (s : State) : State :=
  match s.tuiper.sets.find? fun d => d.id == i with
  | some d => d.members.foldl (fun t f => t.setCur f { t.curOf f with codes := none }) s
  | none => s

/-- The sets whose fallback applies are looked at anew: for one that has left it, no entry counts as sent (R263). -/
def fallbackSync (s : State) : State :=
  let now := (s.tuiper.sets.filter fun d => s.setDown d.id).map (·.id)
  let left := s.tuiper.downs.filter fun i => !now.contains i
  let s := left.foldl (fun t i => forgetMembers i t) s
  { s with tuiper := { s.tuiper with downs := now } }

/-- The device follows the set states of its own: it is no partner in MIRROR, which follows the HEAD's (R369). -/
def ownSets (s : State) : State := if s.get A.TWIN_STAT F.TWIN_STAT_STATE = 5 then s else fallbackSync s

/-- A set takes a state: the transition queue, the events and the counts (R295). -/
def setMove (i st : Nat) (s : State) : State :=
  if (s.setOf i).state = st then s
  else
    let s := s.putSet i { s.setOf i with state := st }
    let w := w32 (2 ^ 31 + st * 2 ^ 28 + s.frameNum % 65536 * 4096 + i)
    let s := if s.tuiper.transQ.length < 64 then { s with tuiper := { s.tuiper with transQ := s.tuiper.transQ ++ [w] } }
      else (s.add A.SETS_TRANS_LOST F.SETS_TRANS_LOST_COUNT 1).raise P.SETS 3
    let s := match st with
      | 0 => s.raise P.SETS 2
      | 1 => (s.inc A.SETS_ENTER_CNT).raise P.SETS 0
      | 3 => s.raise P.SETS 1
      | _ => s
    setsCount (ownSets s)

/-- A set enters fallback with a cause, by the fault of a member where one is given. -/
def setEnter (i cause : Nat) (fix : Option Nat) (s : State) : State :=
  let x := s.setOf i
  setMove i 1 (s.putSet i { x with cause := cause, hold := 0, fix := fix.getD x.fix, stepped := some s.frameNum })

/-- RESTORE_HOLD of a set (R290). -/
def SetDef.restoreHold (d : SetDef) : Nat := let h := bits (d.words.getD 0 0) 15 0; if h = 0 then 240 else h

/-- The faults that count for a set. -/
def SetDef.causes (d : SetDef) : Nat := bits (d.words.getD 0 0) 27 24

/-- The first member with a fault in a set's CAUSES, with the fault's cause; `skip`: members left out. -/
def State.unhealthy (s : State) (d : SetDef) (skip : List Nat) : Option (Nat × Nat) :=
  (d.members.find? fun f => !skip.contains f && (supFaults (s.supState f) &&& d.causes) != 0).map fun f =>
    let m := supFaults (s.supState f) &&& d.causes
    (((List.range 4).find? fun b => m / 2 ^ b % 2 == 1).getD 0 + 1, f)

/-- A set takes its step of a boundary (R292), once a frame. A fault detected in the frame in progress takes it out of NORMAL,
HOLDING or READY at the next boundary. -/
def setStepOp (i : Nat) (s : State) : State :=
  match s.tuiper.sets.find? fun d => d.id == i with
  | none => s
  | some d =>
    let n := s.frameNum
    let x := s.setOf i
    if !s.setsOn ∨ x.stepped = some n then s
    else
      let mine := s.tuiper.detected.filter fun y => y.1 == i
      let due := mine.filter fun y => y.2.2.2 != n
      let now := (mine.filter fun y => y.2.2.2 == n).map fun y => y.2.2.1
      -- a re-arm of the frame in progress acts at the next boundary, and a fault of its cycle wins over it
      let rearm := s.tuiper.rearms.any fun r => r.1 == i && r.2 != n
      let det := s.tuiper.detected.filter fun y => !due.contains y
      let s := { s with tuiper := { s.tuiper with detected := det, rearms := s.tuiper.rearms.filter fun r => r.1 != i || r.2 == n } }
      let s := s.putSet i { x with stepped := some n }
      let hit : Option (Nat × Option Nat) := match due with
        | y :: _ => some (y.2.1, if y.2.1 = 6 then none else some y.2.2.1)
        | [] => (s.unhealthy d now).map fun u => (u.1, some u.2)
      if x.state = 1 then
        if (s.unhealthy d []).isNone then setMove i 2 (s.putSet i { s.setOf i with hold := 1 }) else s
      else match hit with
        | some h => setEnter i h.1 h.2 s
        | none =>
          if x.state = 2 then s.putSet i { s.setOf i with hold := min (x.hold + 1) d.restoreHold }
          else if x.state = 3 ∧ rearm then setMove i 0 s
          else s

/-- HOLD_CNT has reached RESTORE_HOLD (R292). -/
def setHoldOp (i : Nat) (s : State) : State :=
  match s.tuiper.sets.find? fun d => d.id == i with
  | none => s
  | some d =>
    let x := s.setOf i
    if x.state = 2 ∧ x.hold = d.restoreHold then setMove i (if bits (d.words.getD 0 0) 29 29 = 1 then 3 else 0) s else s

/-- The set settings of an epoch take effect (R291, R297). -/
def setsEpoch (s : State) : State :=
  let s : State := match s.tuiper.nextSets with
    | none => s
    | some (new, chk) =>
      let old := s.tuiper.sets
      let s := (s.wr A.SETS_CHK chk).raiseIf (bitOf chk 31) P.SETS 4
      let gone := old.filter fun d => !new.any fun e => e.id == d.id
      let s := gone.foldl (fun t d => setMove d.id 0 t) s
      -- a set that is gone or changed leaves the fallback of its old members
      let changed := (old.filter fun d => s.tuiper.downs.contains d.id && !new.contains d).map (·.id)
      let s := changed.foldl (fun t i => forgetMembers i t) s
      let s := { s with tuiper := { s.tuiper with downs := s.tuiper.downs.filter fun i => !changed.contains i } }
      let det := s.tuiper.detected.filter fun y => new.any fun e => e.id == y.1
      let s := { s with tuiper := { s.tuiper with sets := new, nextSets := none, detected := det } }
      if s.setsOn then (new.filter fun d => !old.contains d).foldl (fun t d => setEnter d.id 5 none t) s else s
  if s.setsOn then s
  else
    let s := { s with tuiper := { s.tuiper with detected := [], rearms := [] } }
    (s.tuiper.setSt.filter fun x => x.2.state != 0).foldl (fun t x => setMove x.1 0 t) s

/-! ### Commands (R292, R297) -/

/-- SETS.RESULT of a requester. -/
def setsResult (r : Req) (res i : Nat) (s : State) : State :=
  let x := s.setOf i
  s.setBank A.SETS_RESULT 0 r (w32 (res * 2 ^ 28 + x.state * 2 ^ 24 + x.cause * 2 ^ 20 + min x.hold 65535))

/-- Whether a set is enabled. -/
def State.setOn (s : State) (i : Nat) : Bool := s.setsOn && s.tuiper.sets.any fun d => d.id == i

/-- FORCE: a fault of cause FORCED. -/
def setForce (r : Req) (i : Nat) (s : State) : State :=
  if !s.setOn i then setsResult r 3 i s
  else
    setsResult r 1 i { s with tuiper := { s.tuiper with detected := s.tuiper.detected ++ [(i, 6, 0, s.frameNum)] } }

/-- REARM of a READY set. -/
def setRearm (r : Req) (i : Nat) (s : State) : State :=
  if !s.setOn i then setsResult r 3 i s
  else if (s.setOf i).state ≠ 3 then setsResult r 2 i s
  else setsResult r 1 i { s with tuiper := { s.tuiper with rearms := (i, s.frameNum) :: s.tuiper.rearms.filter fun r => r.1 != i || r.2 != s.frameNum } }

/-- QUERY. -/
def setQuery (r : Req) (i : Nat) (s : State) : State :=
  setsResult r 1 i (s.wr A.SETS_LAST_FAULT (w32 (s.setOf i).fix))

/-- A write of SETS.CMD. -/
def setsCmd (r : Req) (v : Word) (s : State) : State :=
  let op := fget v F.SETS_CMD_OP
  let i := fget v F.SETS_CMD_SET
  let x := s.detect P.SETS 31 (op == 0 || decide (3 < op))
  if x.1 then setsResult r 4 i (x.2.guard1 P.SETS 31 0xA0 (some 0))
  else match op with
  | 1 => setForce r i x.2
  | 2 => setRearm r i x.2
  | _ => setQuery r i x.2

/-- A read of TRANS_Q. -/
def transQTake (s : State) : Word × State :=
  match s.tuiper.transQ with
  | [] => (0, s)
  | w :: ws => (w, { s with tuiper := { s.tuiper with transQ := ws } })

end Sys2Proof.Machine
end

