-- ==== Sys2Proof/Machine/Ptp.lean ====
section
/-!
DEFINITION. Krafohel time and its discipline (R333 to R343, R358, R359): capture, the PTP domains, the governing domain, the servo
and its states. A domain's times count 2⁻¹⁶ ns. The messages are those of IEEE 1588 as records of the fields R336 and R337 read
(log entry 21).
-/
namespace Sys2Proof.Machine

/-- Words of a signed value that saturates at 32 bits. -/
def sat32 (x : Int) : Word := w32 (wrapN 32 (max (-(2 ^ 31 : Int)) (min (2 ^ 31 - 1) x)))

/-- CAPTURE copies the time into NOW (R334). -/
def timeCaptureOp (s : State) : State :=
  let ns := s.nowNs
  let s := s.wr64 A.TIME_NOW_SEC_LO (secOf ns)
  (s.wr A.TIME_NOW_NS (w32 (nsOf ns))).wr A.TIME_NOW_FRAC (w32 s.time.t)

/-! ### Domains (R336 to R338) -/

/-- Whether a domain is enabled. -/
def State.domOn (s : State) (d : Nat) : Bool := decide (d < 2) && s.actF (A.PTP_CFG d) F.PTP_CFG_EN == 1

/-- STATE of a domain. -/
def State.domState (s : State) (d : Nat) : Nat := s.get (A.PTP_STAT d) F.PTP_STAT_STATE

/-- Whether a domain is VALID. -/
def State.domValid (s : State) (d : Nat) : Bool := s.domOn d && s.domState d == 3

/-- A domain takes a state; each change raises its event. -/
def domTake (d st : Nat) (s : State) : State :=
  if s.domState d = st then s
  else
    let s := (s.put (A.PTP_STAT d) F.PTP_STAT_STATE st).raise P.PTP (1 + d)
    s.setDom d { s.dom d with validSince := if st = 3 then some s.nowNs else none }

/-- The 64-bit seconds congruent to 48-bit seconds that lie nearest to the Krafohel seconds (R338). -/
def State.extend (s : State) (sec : Nat) : Int :=
  let k : Int := (secOf s.nowNs : Nat)
  let m : Int := 2 ^ 48
  let x : Int := k - k % m + (sec % 2 ^ 48 : Nat)
  let near (a b : Int) : Int := if (b - k).natAbs < (a - k).natAbs then b else a
  let r := near (near x (x - m)) (x + m)
  if s.time.everStep then r else if r < 0 then x else r

/-- A PTP time in 2⁻¹⁶ ns. -/
def State.ptpTime (s : State) (sec ns : Nat) : Int := (s.extend sec * 10 ^ 9 + (ns : Nat)) * 65536

/-- Whether the first dataset is better than the second (IEEE 1588 dataset comparison; ties go to the lower port). -/
def better (a b : PtpAnnounce) : Bool :=
  let key (x : PtpAnnounce) : List Nat :=
    if a.gm = b.gm then [x.steps, x.source, x.port]
    else [x.prio1, x.clockClass, x.accuracy, x.variance, x.prio2, x.gm]
  decide (key a < key b)

/-- 2^`l` s in ns: an interval as a PTP message gives it. -/
def logNs (l : Int) : Nat := if 0 ≤ l then 10 ^ 9 * 2 ^ l.toNat else 10 ^ 9 / 2 ^ (-l).toNat

/-- A domain chooses a parent. -/
def chooseParent (d : Nat) (m : PtpAnnounce) (s : State) : State :=
  let x := s.dom d
  let same : Bool := match x.parent with
    | some p => p.source == m.source && p.port == m.port
    | none => false
  let x := { x with parent := some m, annAt := (s.nowNs, logNs m.interval) }
  let s := s.setDom d (if same then x
    else { x with syncs := 0, pending := none, times := [], last := none, delays := [], dreq := none, syncAt := none, dreqAt := none,
                  dreqInt := 0 })
  let s := (s.wr64 (A.PTP_PARENT_LO d) m.source).wr64 (A.PTP_GM_LO d) m.gm
  let s := s.put (A.PTP_STAT d) F.PTP_STAT_PORT m.port
  if same then s else domTake d 2 s

/-! ### The governing domain (R339) -/

/-- OFS of a domain in 2⁻¹⁶ ns. -/
def State.ofs (s : State) (d : Nat) : Int := (s.dom d).ofs

/-- The domain that governs. -/
def State.governor (s : State) : Option Nat :=
  let a := s.domValid 0
  let b := s.domValid 1
  match s.actF A.PTP_CTRL F.PTP_CTRL_GOV with
  | 0 => if a then some 0 else none
  | 1 => if b then some 1 else none
  | _ =>
    let back := match (s.dom 0).validSince with
      | some t => decide (s.actF A.PTP_CTRL F.PTP_CTRL_REVERT_S * 10 ^ 9 ≤ s.nowNs - t)
      | none => false
    if a && b then (if s.time.gov = some 1 ∧ !back then some 1 else some 0)
    else if a then some 0 else if b then some 1 else none

/-- The newest spans of a list whose durations make up `left` ns. -/
def lockedTake : List (Nat × Nat) → Nat → List (Nat × Nat)
  | [], _ => []
  | x :: l, left => if left = 0 then [] else x :: lockedTake l (left - x.2)

/-- Keep the increments used in the last 60 s spent in LOCKED, with their durations (R340). -/
def lockedFlush (s : State) : State :=
  let s := if s.get A.TIME_STAT F.TIME_STAT_STATE = 2 then
      { s with time := { s.time with locked := lockedTake ((s.time.incr, s.nowNs - s.time.incrAt) :: s.time.locked) (60 * 10 ^ 9) } }
    else s
  { s with time := { s.time with incrAt := s.nowNs } }

/-- Change the increment in use. -/
def changeIncr (n : Nat) (s : State) : State := if n = s.time.incr then s else setIncr n (lockedFlush s)

/-- Sum of increment × duration and of duration over the last `left` ns of LOCKED. -/
def lockedSum : List (Nat × Nat) → Nat → Nat × Nat
  | [], _ => (0, 0)
  | x :: l, left =>
    let d := min x.2 left
    let r := lockedSum l (left - d)
    (x.1 * d + r.1, d + r.2)

/-- The increment of HOLDOVER. -/
def State.holdoverIncr (s : State) : Nat :=
  let r := lockedSum s.time.locked (60 * 10 ^ 9)
  if r.2 = 0 then s.nominal else (roundEven ((r.1 : Rat) / (r.2 : Nat))).toNat

/-- The time unit takes a state (R340). -/
def timeTake (st : Nat) (s : State) : State :=
  if s.get A.TIME_STAT F.TIME_STAT_STATE = st then s
  else
    let s := lockedFlush s
    let s := (s.put A.TIME_STAT F.TIME_STAT_STATE st).raise P.TIME 0
    let s := if st = 2 then s.put A.TIME_STAT F.TIME_STAT_EVER_LOCKED 1 else s
    { s with time := { s.time with okRun := 0, badRun := 0, stepRun := 0 } }

/-- The sources of boundaries: SRC_OK, SRC_USED and the page's FAULT (R348, R361). -/
def srcSync (s : State) : State :=
  let src := s.actF A.SYNC_CTRL F.SYNC_CTRL_SRC
  let ok : Bool := match src with
    | 0 => true
    | 1 => s.get A.TIME_STAT F.TIME_STAT_STATE == 2
    | _ => s.get A.SYNC_GL_STAT F.SYNC_GL_STAT_TIMED_OUT == 0
  let was := s.get A.SYNC_BND_STAT F.SYNC_BND_STAT_SRC_OK == 1
  let s := (s.put A.SYNC_BND_STAT F.SYNC_BND_STAT_SRC_OK ok.toNat).put A.SYNC_BND_STAT F.SYNC_BND_STAT_SRC_USED src
  (s.raiseIf (ok != was) P.SYNC 0).setFault P.SYNC (!ok)

/-- ADJ while no sample is taken: what the increment in use differs from the nominal one by, in ppb (R358). -/
def adjReport (s : State) : State :=
  s.wr A.TIME_ADJ (sat32 (roundEven ((((s.time.incr : Int) - (s.nominal : Nat) : Int) : Rat) * (10 ^ 9 : Nat) / (s.nominal : Nat))))

/-- The state of the time unit follows CTRL.EN and the governing domain (R340). -/
def timeFollow (s : State) : State :=
  let st := s.get A.TIME_STAT F.TIME_STAT_STATE
  let s :=
    if s.actF A.TIME_CTRL F.TIME_CTRL_EN = 0 then adjReport (changeIncr s.nominal (timeTake 0 s))
    else if s.time.gov.isSome then
      if st = 0 then
        let s := timeTake 1 s
        { s with time := { s.time with integ := 0 } }
      else if st = 3 then timeTake 1 s
      else s
    else if st = 1 ∨ st = 2 then
      let s := timeTake 3 s
      adjReport (changeIncr s.holdoverIncr s)
    else s
  srcSync s

/-- Choose the governing domain anew, and record a change (R339). -/
def govSync (s : State) : State :=
  let g := s.governor
  if g = s.time.gov then timeFollow s
  else
    let s := match g with
      | none => ((s.put A.PTP_GOV_STAT F.PTP_GOV_STAT_NONE 1).raise P.PTP 3)
      | some d =>
        let s := s.wr A.PTP_GOV_STAT (w32 (d * 2 ^ 30))
        match s.time.lastGov with
        | some o =>
          if o = d then s
          else
            let x : Rat := ((s.ofs d - s.ofs o : Int) : Rat) / (65536 : Nat)
            let s := { s with time := { s.time with dRem := x, dAt := s.nowNs } }
            ((s.wr A.PTP_D_REM (sat32 (roundEven x))).inc A.PTP_SWITCH_CNT).raise P.PTP 0
        | none => s
    timeFollow { s with time := { s.time with gov := g, lastGov := g.or s.time.lastGov } }

/-! ### The servo (R341 to R343) -/

/-- STAT.QUIET: no scan engine is enabled in the active set. -/
def State.quiet (s : State) : Bool := (List.range 8).all fun e => s.actF (A.SCAN_CTRL e) F.SCAN_CTRL_EN == 0

/-- D_REM moves towards 0 (R339). -/
def dRemMove (s : State) : State :=
  let lim : Rat := ((s.actF A.TIME_MAX_SLEW F.TIME_MAX_SLEW_PPB * (s.nowNs - s.time.dAt) : Nat) : Rat) / (10 ^ 9 : Nat)
  let x := s.time.dRem
  let x := if absQ x ≤ lim then 0 else if 0 < x then x - lim else x + lim
  { s with time := { s.time with dRem := x, dAt := s.nowNs } }.wr A.PTP_D_REM (sat32 (roundEven x))

/-- A mark of Krafohel time after a step by `d`, so that what has elapsed since it stays what it was. -/
def shiftBy (d : Int) (x : Nat) : Nat := ((x : Int) + d).toNat

/-- The times of a PTP instance after a step. An exchange that straddles the step measures nothing (log entry 26). -/
def PtpDom.shifted (d : Int) (x : PtpDom) : PtpDom :=
  { x with validSince := x.validSince.map (shiftBy d), annAt := (shiftBy d x.annAt.1, x.annAt.2),
           syncAt := x.syncAt.map (fun a => (shiftBy d a.1, a.2)), dreqAt := x.dreqAt.map (shiftBy d),
           pending := none, last := none, dreq := none }

/-- The marks of a flow after a step. -/
def FlowSt.shifted (d : Int) (x : FlowSt) : FlowSt :=
  { x with lastUnit := shiftBy d x.lastUnit
           fill := x.fill.map (fun i => { i with lastAt := shiftBy d i.lastAt })
           sources := x.sources.map (fun z => { z with lastAt := shiftBy d z.lastAt }) }

/-- The time unit's own marks after a step by `d` ns. -/
def Time.shifted (d : Int) (x : Time) : Time :=
  let t := shiftBy (d * 2 ^ 32)
  { x with
    boundary := shiftBy d x.boundary, prevBoundary := shiftBy d x.prevBoundary, bndT := t x.bndT
    bndAt := if x.bndAt + (d : Rat) < 0 then 0 else x.bndAt + (d : Rat)
    doms := x.doms.map (PtpDom.shifted d)
    dAt := shiftBy d x.dAt, incrAt := shiftBy d x.incrAt, sampleAt := x.sampleAt.map (shiftBy d), syncN := none
    gl := { x.gl with edge := x.gl.edge.map t, lastAt := shiftBy d x.gl.lastAt }
    ltc := { x.ltc with lastAt := shiftBy d x.ltc.lastAt }
    trigs := x.trigs.map (fun n => (n.1, { n.2 with active := n.2.active.map t })) }

/-- Every mark of Krafohel time in the device moves with a step, so that no duration changes by it: timeouts, delays, windows and
frames in progress run on as they did (log entry 26). -/
def marksStep (d : Int) (s : State) : State :=
  let mv := shiftBy d
  { s with
    dbg := { s.dbg with slice := s.dbg.slice.map (fun x => { x with due := mv x.due }) }
    cal := { s.cal with startAt := mv s.cal.startAt, eyes := s.cal.eyes.map (fun x => (x.1, mv x.2)) }
    time := s.time.shifted d
    ingest := { s.ingest with flows := s.ingest.flows.map (fun x => (x.1, x.2.shifted d)) }
    sched := { s.sched with tickAt := shiftBy (d / 100000) s.sched.tickAt
                            affinity := s.sched.affinity.map (fun e => { e with since := mv e.since }) }
    marver := { s.marver with start := mv s.marver.start, pass := s.marver.pass.map (fun p => { p with start := mv p.start }) }
    solver := { s.solver with start := mv s.solver.start }
    net := { s.net with ports := s.net.ports.map (fun x => (x.1, { x.2 with upAt := mv x.2.upAt }))
                        dmx := s.net.dmx.map (fun x => (x.1, { x.2 with lastUnit := mv x.2.lastUnit })) }
    lehr := { s.lehr with since := s.lehr.since.map mv
                          hist := s.lehr.hist.map (fun x => (x.1, x.2.map (fun h => (mv h.1, h.2))))
                          holdAt := s.lehr.holdAt.map (fun x => (x.1, mv x.2)), glideAt := mv s.lehr.glideAt
                          sensors := s.lehr.sensors.map (fun x => (x.1, { x.2 with lastAt := x.2.lastAt.map mv })) }
    twin := { s.twin with helloAt := mv s.twin.helloAt, heardAt := mv s.twin.heardAt, seekAt := mv s.twin.seekAt }
    gaffer := { s.gaffer with handoverAt := s.gaffer.handoverAt.map mv } }

/-- A step of the time by the error `e` (R338, R343). At the first after reset, bits [63:48] of the seconds are taken as 0. -/
def timeStep (e : Rat) (s : State) : State :=
  let t := shiftBy (-(roundEven e * 2 ^ 32)) s.time.t
  let t := if s.time.everStep then t else t % (2 ^ 48 * 10 ^ 9 * 2 ^ 32)
  let s := marksStep ((t : Int) / 2 ^ 32 - (s.nowNs : Nat)) s
  let s := { s with time := { s.time with t := t, integ := 0, stepRun := 0, stepped := true, everStep := true, sampleAt := some (t / 2 ^ 32) } }
  (s.inc A.TIME_STEP_CNT).raise P.TIME 1

/-- The increment of an adjustment in ppb. -/
def State.adjusted (s : State) (adj : Rat) : Nat :=
  (roundEven ((s.nominal : Nat) * (1 + adj / (10 ^ 9 : Nat)))).toNat

/-- The adjustment of a sample with error `e` after `ts` seconds (R341, R342), and the integral after it. -/
def State.servo (s : State) (d : Nat) (e ts : Rat) : Rat × Rat :=
  let kp : Rat := (s.actF A.TIME_GAIN F.TIME_GAIN_KP : Nat) / (65536 : Nat)
  let ki : Rat := (s.actF A.TIME_GAIN F.TIME_GAIN_KI : Nat) / (65536 : Nat)
  let slew : Rat := (s.actF A.TIME_MAX_SLEW F.TIME_MAX_SLEW_PPB : Nat)
  if s.actF A.TIME_CTRL F.TIME_CTRL_MODE = 0 then
    let i := s.time.integ + ki * e
    (clampQ (-500000) 500000 (-(kp * e + i) / ts), i)
  else
    let rate : Rat := (fgetS (s.rd (A.PTP_RATE d)) ⟨31, 0⟩ : Int)
    (rate - clampQ (-slew) slew (kp * e / ts), s.time.integ)

/-- The limit at which the clock slews against the error `e` where a step is needed and not allowed (R342, R343): in SLEW mode MAX_SLEW
from the rate of the governing domain. -/
def State.slewLimit (s : State) (d : Nat) (e : Rat) : Rat :=
  let at_ (base lim : Rat) : Rat := if 0 < e then base - lim else base + lim
  if s.actF A.TIME_CTRL F.TIME_CTRL_MODE = 0 then at_ 0 500000
  else at_ ((fgetS (s.rd (A.PTP_RATE d)) ⟨31, 0⟩ : Int) : Rat) ((s.actF A.TIME_MAX_SLEW F.TIME_MAX_SLEW_PPB : Nat) : Rat)

/-- Runs of samples below LOCK_NS, above 4 × LOCK_NS and above the step threshold; LOCKED and ACQUIRE follow (R340). -/
def judgeError (e : Rat) (s : State) : State :=
  let lock : Rat := (s.actF A.TIME_LOCK F.TIME_LOCK_LOCK_NS : Nat)
  let step : Rat := (s.actF A.TIME_LOCK F.TIME_LOCK_STEP_US * 1000 : Nat)
  let run (c : Bool) (n : Nat) : Nat := if c then min (n + 1) 1000 else 0
  let s := { s with time := { s.time with
    okRun := run (decide (absQ e ≤ lock)) s.time.okRun
    badRun := run (decide (4 * lock < absQ e)) s.time.badRun
    stepRun := run (decide (step < absQ e)) s.time.stepRun } }
  let st := s.get A.TIME_STAT F.TIME_STAT_STATE
  if st = 1 ∧ 16 ≤ s.time.okRun then timeTake 2 s
  else if st = 2 ∧ 4 ≤ s.time.badRun then timeTake 1 s
  else s

/-- A Sync sample of the governing domain (R339 to R343). A step takes the place of the sample's adjustment (log entry 26). -/
def servoSample (d : Nat) (s : State) : State :=
  if s.time.gov ≠ some d then s
  else if s.actF A.TIME_CTRL F.TIME_CTRL_EN = 0 then { s with time := { s.time with sampleAt := some s.nowNs } }
  else
    let s := dRemMove s
    let e : Rat := ((s.ofs d : Int) : Rat) / (65536 : Nat) - s.time.dRem
    let s := s.wr A.TIME_ERR (sat32 (roundEven e))
    let s := judgeError e s
    let mode := s.actF A.TIME_CTRL F.TIME_CTRL_MODE
    let need := s.get A.TIME_STAT F.TIME_STAT_STATE == 1 && decide (4 ≤ s.time.stepRun)
    let may := s.quiet && (mode == 0 || s.get A.TIME_STAT F.TIME_STAT_EVER_LOCKED == 0)
    if need && may then timeStep e s
    else
      let prev := s.time.sampleAt
      let s := { s with time := { s.time with sampleAt := some s.nowNs } }
      match prev with
      | none => srcSync s
      | some p =>
        if s.nowNs ≤ p then srcSync s
        else
          let a := s.servo d e (((s.nowNs - p : Nat) : Rat) / (10 ^ 9 : Nat))
          let adj := if need then s.slewLimit d e else a.1
          let s := { s with time := { s.time with integ := a.2 } }
          srcSync (changeIncr (s.adjusted adj) (s.wr A.TIME_ADJ (sat32 (roundEven adj))))

/-! ### Messages -/

/-- An armed injection makes the domain LOST (R455). -/
def domInject (d : Nat) (s : State) : State :=
  let x := s.detect P.PTP (1 + d) false
  if x.1 then
    let s := domTake d 4 x.2
    govSync (s.setDom d { s.dom d with parent := none, syncs := 0, pending := none, syncAt := none })
  else s

/-- Whether a domain is enabled and selects a port, a domainNumber and a transport (R336, R359). -/
def State.ptpSelects (s : State) (d port domain : Nat) (ether : Bool) : Bool :=
  let cfg := s.act (A.PTP_CFG d)
  let tr := fget cfg F.PTP_CFG_TRANSPORT
  s.domOn d && decide (64 ≤ port) && decide (port ≤ 70) && bitOf cfg (16 + (port - 64)) &&
    fget cfg F.PTP_CFG_DOMAIN == domain && (tr == 2 || (tr == 1) == ether)

/-- Whether a domain hears a message: it selects it, and the port is on. -/
def State.ptpHears (s : State) (d port domain : Nat) (ether : Bool) : Bool := s.ptpSelects d port domain ether && s.portOn port

/-- Whether a message of the parent reached the domain while it follows one. -/
def State.fromParent (s : State) (d port source : Nat) : Bool :=
  s.domOn d && (s.domState d == 2 || s.domState d == 3) && match (s.dom d).parent with
    | some p => p.source == source && p.port == port
    | none => false

/-- An Announce (R336, R337). -/
def ptpAnnounceOp (d : Nat) (m : PtpAnnounce) (s : State) : State :=
  let s := takeRx m.port s
  if !s.ptpHears d m.port m.domain m.ether then s
  else
    let s := domInject d (s.inc (A.PTP_ANN_RX d))
    if s.domState d = 4 then domTake d 1 s
    else match (s.dom d).parent with
    | none => govSync (chooseParent d m s)
    | some p => if (p.source = m.source ∧ p.port = m.port) ∨ better m p then govSync (chooseParent d m s) else s

/-- A Sync is used, with the master's time and its arrival (R337). -/
def syncUsed (d : Nat) (master arrival : Int) (s : State) : State :=
  let x := s.dom d
  let mpd : Int := if x.delays.isEmpty then 0
    else roundEven (((x.delays.foldl (· + ·) 0 : Int) : Rat) / (x.delays.length : Nat))
  let ofs := arrival - master - mpd
  let times := (master, s.time.ticks) :: x.times.take 15
  let rate : Int := match times.getLast? with
    | some o =>
      let loc : Int := ((s.time.ticks - o.2) * s.nominal : Nat)
      if loc = 0 then 0 else roundEven ((((master - o.1) * 65536 : Int) : Rat) / loc * (10 ^ 9 : Nat) - (10 ^ 9 : Nat))
    | none => 0
  let s := s.setDom d { x with syncs := min (x.syncs + 1) 16, times := times, last := some (master, arrival), pending := none, ofs := ofs }
  let s := (s.inc (A.PTP_SYNC_RX d)).wr64 (A.PTP_OFS_LO d) (wrapN 64 ofs)
  let s := s.wr (A.PTP_RATE d) (sat32 rate)
  let s := if 16 ≤ x.syncs + 1 then domTake d 3 s else s
  servoSample d (govSync s)

/-- The parent's Sync has arrived, with the interval it gives. -/
def syncHeard (d : Nat) (interval : Int) (s : State) : State :=
  s.setDom d { s.dom d with syncAt := some (s.nowNs, logNs interval) }

/-- A Sync (R336, R337), which arrived when its port took it in. A domain that is LOST hears a master. -/
def ptpSyncOp (d : Nat) (m : PtpSync) (s : State) : State :=
  let arrival : Int := ((s.rxT m.port / 65536 : Nat) : Int)
  let s := takeRx m.port s
  if !s.ptpHears d m.port m.domain m.ether then s
  else
    let s := domInject d s
    if s.domState d = 4 then domTake d 1 s
    else if !s.fromParent d m.port m.source then s
    else
      let s := syncHeard d m.interval s
      if m.twoStep then s.setDom d { s.dom d with pending := some (m.seqId, arrival, m.corr) }
      else syncUsed d (s.ptpTime m.originSec m.originNs + m.corr) arrival s

/-- A Follow_Up completes the Sync it names. -/
def ptpFollowUpOp (d : Nat) (m : PtpFollowUp) (s : State) : State :=
  let s := takeRx m.port s
  match (s.dom d).pending with
  | some (q, arrival, corr) =>
    if s.ptpHears d m.port m.domain m.ether && s.fromParent d m.port m.source && q == m.seqId then
      syncUsed d (s.ptpTime m.originSec m.originNs + m.corr + corr) arrival s
    else s
  | none => s

/-- When the next Delay_Req of a domain may be sent (ns): the interval of the master's last Delay_Resp after the one before, and never
more than 16 a second (R336). -/
def State.dreqDue (s : State) (d : Nat) : Nat :=
  match (s.dom d).dreqAt with
  | some t => t + max (s.dom d).dreqInt 62500000
  | none => 0

/-- A Delay_Req is sent to the parent (R336, R344). -/
def ptpDelayReqSendOp (d : Nat) (s : State) : State :=
  match (s.dom d).parent with
  | some p =>
    if s.fromParent d p.port p.source ∧ s.dreqDue d ≤ s.nowNs then
      let x := s.dom d
      let cfg := s.act (A.PTP_CFG d)
      let s := s.setDom d { x with dreq := some (x.dseq, none), dseq := (x.dseq + 1) % 65536, dreqAt := some s.nowNs }
      let body : TxBody := .delayReq p.domain x.dseq p.ether (bitOf cfg 28)
      handOver p.port { plainFrame false body with ptp := some (d, x.dseq) } (s.inc (A.PTP_DREQ_TX d))
    else s
  | none => s

/-- A Delay_Resp completes an exchange, and gives the interval of the Delay_Reqs to come (R336, R337). -/
def ptpDelayRespOp (d : Nat) (m : PtpDelayResp) (s : State) : State :=
  let s := takeRx m.port s
  if !(s.ptpHears d m.port m.domain m.ether && s.fromParent d m.port m.source) then s
  else
    let x := { s.dom d with dreqInt := logNs m.interval }
    match x.dreq, x.last with
    | some (q, some t3), some (t1, t2) =>
      if q = m.seqId then
        let t4 := s.ptpTime m.rxSec m.rxNs
        let mpd := roundEven (((t2 - t1 + (t4 - t3) - m.corr : Int) : Rat) / 2)
        if mpd < 0 then s.setDom d { x with dreq := none }
        else
          let ds := mpd :: x.delays.take 7
          let s := s.setDom d { x with dreq := none, delays := ds }
          let mean := roundEven (((ds.foldl (· + ·) 0 : Int) : Rat) / ((ds.length * 65536 : Nat)))
          s.wr (A.PTP_MPD d) (w32 (min mean.toNat (2 ^ 32 - 1)))
      else s.setDom d x
    | _, _ => s.setDom d x

/-- When a domain is LOST unless its parent is heard (ns): ANN_TO of the parent's intervals after its last Announce or Sync (R337). -/
def State.lostDue (s : State) (d : Nat) : Nat :=
  let n := s.actF (A.PTP_CFG d) F.PTP_CFG_ANN_TO
  let x := s.dom d
  let ann := x.annAt.1 + n * x.annAt.2
  match x.syncAt with
  | some y => min ann (y.1 + n * y.2)
  | none => ann

/-- A domain is without its parent. -/
def dropParent (d : Nat) (s : State) : State := s.setDom d { s.dom d with parent := none, syncs := 0, pending := none, syncAt := none }

/-- The parent's messages are missing: the domain is LOST (R337). -/
def ptpLostOp (d : Nat) (s : State) : State :=
  if s.domOn d && (s.domState d == 2 || s.domState d == 3) && decide (s.lostDue d ≤ s.nowNs) then
    govSync (dropParent d (domTake d 4 s))
  else s

/-- Under AUTO, authority returns to TA once it has been VALID for REVERT_S (R339). -/
def ptpRevertOp (s : State) : State :=
  if s.actF A.PTP_CTRL F.PTP_CTRL_GOV = 2 ∧ s.time.gov = some 1 ∧ s.domValid 0 then
    govSync s
  else s

/-- When TA has been VALID for REVERT_S (ns). -/
def State.revertDue (s : State) : Nat := ((s.dom 0).validSince.getD s.nowNs) + s.actF A.PTP_CTRL F.PTP_CTRL_REVERT_S * 10 ^ 9

/-- TIME and PTP settings of an epoch take effect (R340, R359). A parent that a domain no longer hears by them is given up. -/
def timeEpoch (s : State) : State :=
  let s := s.put A.TIME_STAT F.TIME_STAT_QUIET s.quiet.toNat
  let s := [0, 1].foldl (fun t d =>
    if t.domOn d then
      if t.domState d = 0 then domTake d 1 t
      else match (t.dom d).parent with
      | some p => if t.ptpSelects d p.port p.domain p.ether then t else dropParent d (domTake d 1 t)
      | none => t
    else domTake d 0 (t.setDom d { PtpDom.init with dseq := (t.dom d).dseq })) s
  govSync s

end Sys2Proof.Machine
end

