-- ==== Sys2Proof/Machine/Sync.lean ====
section
/-!
DEFINITION. Frame boundaries and their sources, LTC, triggers and captures (R348 to R357, R360, R361), and TSQ_POP (R344).
Times of edges count 2⁻³² ns.
-/
namespace Sys2Proof.Machine

/-- 4 ns, the nominal TIMECLK tick TT, in 2⁻³² ns. -/
def tickT : Nat := 4 * 2 ^ 32

/-- The shortest and longest period of R11, ns: 1/240 s and 1,001/24,000 s, which R11 states rounded to whole nanoseconds. -/
def minPeriodQ : Rat := ((10 ^ 9 : Nat) : Rat) / ((240 : Nat) : Rat)
def maxPeriodQ : Rat := ((1001 * 10 ^ 9 : Nat) : Rat) / ((24000 : Nat) : Rat)

/-- Where an input edge lies that a filter of `ns` shows now: less the filter width and 2 TT (R350, R357). -/
def State.edgeTime (s : State) (ns : Nat) : Nat := s.time.t - (ns * 2 ^ 32 + 2 * tickT)

/-- A page that owns a filtered pin takes an injection into its guard: the pulse is removed as shorter than the filter (R20, R455). -/
def pinRemoved (p code : Nat) (fbit : Option Nat) (s : State) : Bool × State :=
  if s.injArmed p 31 then (true, (s.injTake p 31).guard1 p 28 code fbit) else (false, s)

/-! ### Sources (R348 to R352) -/

/-- NUM and DEN of the frame rate in force. -/
def State.frameRate (s : State) : Nat × Nat := (s.actF A.SYNC_RATE F.SYNC_RATE_NUM, s.actF A.SYNC_RATE F.SYNC_RATE_DEN)

/-- The source in force. -/
def State.bndSrc (s : State) : Nat := s.actF A.SYNC_CTRL F.SYNC_CTRL_SRC

/-- P_avg of the genlock input, 2⁻³² ns. -/
def State.pAvg (s : State) : Nat :=
  let l := s.time.gl.periods
  if l.isEmpty then 0 else l.foldl (· + ·) 0 / l.length

/-- The period of the source in ns, exactly (R352); that in force while a genlock input has never locked (R351). -/
def State.srcPeriod (s : State) : Rat :=
  if s.bndSrc = 2 then
    (if s.pAvg = 0 ∨ !s.time.gl.ever then (s.time.period : Nat) else ((s.pAvg : Nat) : Rat) / ((2 ^ 32 : Nat) : Rat))
  else ((s.frameRate.2 * 10 ^ 9 : Nat) : Rat) / (s.frameRate.1 : Nat)

/-- Whether genlock is locked. -/
def State.glLocked (s : State) : Bool := s.get A.SYNC_GL_STAT F.SYNC_GL_STAT_LOCKED == 1

/-- A time at which the source marks a boundary, in ns. A genlock input that is not locked places none: boundaries go on from the last one
(R350, R351). -/
def State.srcPhase (s : State) : Rat :=
  match s.bndSrc with
  | 0 => (s.actF A.SYNC_PHASE F.SYNC_PHASE_NS : Nat)
  | 1 => 0
  | _ => match s.time.gl.edge.filter fun _ => s.glLocked with
    | some e => ((e : Nat) : Rat) / ((2 ^ 32 : Nat) : Rat) + (s.actF A.SYNC_GL_OFFSET F.SYNC_GL_OFFSET_NS : Nat)
    | none => s.time.bndAt

/-- The index of the source boundary nearest to a time, and of the first at or after it. -/
def State.srcNear (s : State) (x : Rat) : Int := roundEven ((x - s.srcPhase) / s.srcPeriod)
def State.srcAfter (s : State) (x : Rat) : Int := ((x - s.srcPhase) / s.srcPeriod).ceil

/-- The time of a source boundary, ns. -/
def State.srcAt (s : State) (k : Int) : Rat := s.srcPhase + k * s.srcPeriod

/-- Where the next boundary falls: its time in ns, the source's index, the error of the source, and whether it is pulled (R352). -/
def State.nextBoundary (s : State) : Rat × Int × Rat × Bool :=
  let prev := s.time.bndAt
  if s.time.bnds = 0 then
    let k := s.srcAfter (((s.time.t : Nat) : Rat) / ((2 ^ 32 : Nat) : Rat))
    (s.srcAt k, k, 0, false)
  else if s.quiet || s.time.stepped then
    let k := s.srcAfter (prev + minPeriodQ)
    (s.srcAt k, k, 0, false)
  else
    let want := prev + s.srcPeriod
    let k := s.srcNear want
    let err := s.srcAt k - want
    let pull : Rat := (s.actF A.SYNC_PULL_NS F.SYNC_PULL_NS_NS : Nat)
    let t := want + clampQ (-pull) pull err
    (clampQ (prev + minPeriodQ) (prev + maxPeriodQ) t, k, err, decide (pull < absQ err))

/-- Krafohel time reaches `due` (ns): it moves on to there, unless the next boundary comes first (log entry 4). -/
def reach (due : Nat) (s : State) : State :=
  if due * 2 ^ 32 ≤ s.time.t ∨ s.nextBoundary.1 < (due : Rat) then s else advanceT (due * 2 ^ 32) s

/-- The time unit marks a boundary at `nb` (R348, R349, R361): the time moves on to the first tick at or after it. -/
def boundaryMark (at_ : Rat) (frame : Nat) (s : State) : State :=
  let target := (at_ * ((2 ^ 32 : Nat) : Rat)).ceil.toNat
  let s := if s.time.t < target then advanceT target s else s
  let fell := if s.time.t < target + s.time.incr then at_ else ((s.time.t : Nat) : Rat) / ((2 ^ 32 : Nat) : Rat)
  { s with time := { s.time with
    prevBoundary := s.time.boundary, boundary := s.nowNs, bndT := s.time.t, bndAt := fell
    period := if s.time.bnds = 0 then s.time.period else (roundEven (fell - s.time.bndAt)).toNat
    bnds := s.time.bnds + 1, frame := frame, stepped := false } }

/-- The reports of a boundary just marked: its time, number and period, the point of its source and the phase error (R349, R352, R358). -/
def boundaryReport (k : Int) (err : Rat) (pulling : Bool) (s : State) : State :=
  let b := s.time.boundary
  let was := s.get A.SYNC_BND_STAT F.SYNC_BND_STAT_PULLING == 1
  let s := (s.wr64 A.TIME_BND_SEC_LO (secOf b)).wr A.TIME_BND_NS (w32 (nsOf b))
  let s := (s.wr A.TIME_BND_FRAME (w32 s.time.frame)).wr A.SYNC_PERIOD_NOW (w32 (if s.time.bnds = 1 then 0 else s.time.period))
  let s := s.wr A.SYNC_PHASE_ERR (sat32 (roundEven err))
  let s := if s.bndSrc = 2 then s else s.wr64 A.SYNC_ALIGN_K_LO k.toNat
  let s := s.put A.SYNC_BND_STAT F.SYNC_BND_STAT_PULLING pulling.toNat
  let s := s.raiseIf (was && !pulling) P.SYNC 1
  srcSync (s.put A.SYNC_BND_STAT F.SYNC_BND_STAT_FLYWHEEL (decide (s.bndSrc = 2) && s.time.gl.fly).toNat)

/-- Boundary `frame` is marked and reported, and the genlock flywheel's mark is used up. -/
def markBoundary (frame : Nat) (s : State) : State :=
  let nb := s.nextBoundary
  let s := boundaryReport nb.2.1 nb.2.2.1 nb.2.2.2 (boundaryMark nb.1 frame s)
  { s with time := { s.time with gl := { s.time.gl with fly := false } } }

/-! ### Genlock (R350, R351) -/

/-- The record of the genlock input's timeout, where one is due (R23, R351). -/
def genlockRecord (s : State) : State :=
  if s.time.due.contains .genlock then (s.dueTaken .genlock).raise P.SYNC 2 else s

/-- P_AVG as its register reports it. -/
def glReport (s : State) : State := s.put A.SYNC_GL_STAT F.SYNC_GL_STAT_P_AVG (s.pAvg / 2 ^ 32)

/-- Set the genlock input. -/
def State.setGl (s : State) (g : GenlockSt) : State := { s with time := { s.time with gl := g } }

/-- The input is LOCKED once 4 periods in a row meet the conditions. -/
def glLock (s : State) : State :=
  let l := s.time.gl.periods.take 4
  let sum := l.foldl (· + ·) 0
  let tol := s.actF A.SYNC_GL_CFG F.SYNC_GL_CFG_TOL_NS * 2 ^ 32
  if s.time.gl.row < 4 ∨ s.glLocked then s
  else if l.all fun p => decide (((4 * p : Nat) - (sum : Nat) : Int).natAbs ≤ 4 * tol) then
    { s.put A.SYNC_GL_STAT F.SYNC_GL_STAT_LOCKED 1 with time := { s.time with gl := { s.time.gl with misses := 0, ever := true } } }
  else s

/-- An accepted edge. -/
def glAccept (e : Nat) (s : State) : State :=
  let g := s.time.gl
  let periods := match g.edge with
    | some p => (e - p) :: g.periods.take 15
    | none => g.periods
  let s := s.setGl { g with edge := some e, periods := periods, row := g.row + 1, misses := 0, lastAt := s.nowNs, fly := false }
  let s := glLock (glReport s)
  if s.get A.SYNC_GL_STAT F.SYNC_GL_STAT_TIMED_OUT = 1 then
    srcSync (((genlockRecord s).put A.SYNC_GL_STAT F.SYNC_GL_STAT_TIMED_OUT 0).raise P.SYNC 3)
  else s

/-- An edge of GENLOCK_IN, seen now after its filter. -/
def genlockEdgeOp (s : State) : State :=
  let r := pinRemoved P.SYNC 0xFC (some 4) s
  if r.1 then r.2
  else
    let i := r.2.detect P.SYNC 6 false
    let s := i.2
    if i.1 then s
    else
      let e := s.edgeTime (s.actF A.SYNC_GL_CFG F.SYNC_GL_CFG_GL_GLITCH_NS)
      let g := s.time.gl
      match g.edge with
      | none => glAccept e { s with time := { s.time with gl := { g with row := 0 } } }
      | some p =>
        if s.glLocked then
          let want := p + s.pAvg
          if 16 * ((e : Int) - (want : Nat)).natAbs ≤ s.pAvg then glAccept e s else s.inc A.SYNC_GL_SPUR
        else
          let d := e - p
          if d * 240 < 10 ^ 9 * 2 ^ 32 then (s.inc A.SYNC_GL_SPUR).setGl { g with row := 0 }
          else if 1001 * 10 ^ 9 * 2 ^ 32 < d * 24000 then (s.inc A.SYNC_GL_SPUR).setGl { g with row := 0, edge := some e, periods := [] }
          else glAccept e s

/-- The predicted edge while the input is locked, ns: the previous edge and P_avg (R350). -/
def State.glDue (s : State) : Option Nat :=
  if s.glLocked then s.time.gl.edge.map fun e => (e + s.pAvg + 2 ^ 32 - 1) / 2 ^ 32 else none

/-- No edge arrived in the window: a flywheel boundary follows at the predicted edge (R350). Whether one arrives is known to the command;
before the predicted edge there is nothing to mark. -/
def genlockFlywheelOp (s : State) : State :=
  match s.time.gl.edge with
  | some e =>
    if !s.glLocked ∨ s.nowNs < s.glDue.getD 0 then s
    else
      let g := s.time.gl
      let s := (s.inc A.SYNC_GL_MISS).raise P.SYNC 6
      let s := s.setGl { g with edge := some (e + s.pAvg), misses := g.misses + 1, fly := true, row := 0 }
      if 4 ≤ g.misses + 1 then s.put A.SYNC_GL_STAT F.SYNC_GL_STAT_LOCKED 0 else s
  | none => s

/-- The time since the last accepted edge has reached GL_TIMEOUT_MS (R351). -/
def State.genlockElapsed (s : State) : Bool :=
  decide (s.actF A.SYNC_GL_TIMEOUT F.SYNC_GL_TIMEOUT_GL_TIMEOUT_MS * 1000000 ≤ s.nowNs - s.time.gl.lastAt)

/-- The genlock input times out at a boundary (R23, R351). -/
def genlockTimeout (s : State) : State :=
  if s.get A.SYNC_GL_STAT F.SYNC_GL_STAT_TIMED_OUT = 1 then s
  else srcSync ((s.put A.SYNC_GL_STAT F.SYNC_GL_STAT_TIMED_OUT 1).streamDue .genlock)

/-! ### LTC (R353, R354) -/

/-- Frames per second of a rate code. -/
def tcFps (rate : Nat) : Nat := match rate with | 0 => 24 | 1 => 25 | _ => 30

/-- Two BCD digits. -/
def toBcd (n : Nat) : Nat := n / 10 % 10 * 16 + n % 10

/-- The BCD time one frame later, by the drop-frame rule at rate 2. -/
def tcNext (w : Word) (rate : Nat) : Word :=
  let n := w.toNat
  let h := bcd2 (n / 2 ^ 24)
  let m := bcd2 (n / 2 ^ 16)
  let c := bcd2 (n / 2 ^ 8)
  let f := bcd2 n + 1
  let cs := c + f / tcFps rate
  let ms := m + cs / 60
  let hs := (h + ms / 60) % 24
  let f := f % tcFps rate
  let f := if rate = 2 ∧ cs = 60 ∧ ms % 60 % 10 ≠ 0 ∧ f = 0 then 2 else f
  w32 (toBcd hs * 2 ^ 24 + toBcd (ms % 60) * 2 ^ 16 + toBcd (cs % 60) * 2 ^ 8 + toBcd f)

/-- The rate code of a bit rate and the DF flag. -/
def ltcRate (bits : Nat) (df : Bool) : Option Nat :=
  let near (n : Nat) : Bool := decide (9 * n ≤ 10 * bits) && decide (10 * bits ≤ 11 * n)
  let dist (n : Nat) : Nat := ((bits : Int) - n).natAbs
  let best := if dist 1920 ≤ dist 2000 then 1920 else if dist 2000 ≤ dist 2400 then 2000 else 2400
  if !near best then none
  else if best = 1920 then some 0 else if best = 2000 then some 1 else some (if df then 2 else 3)

/-- The record of the LTC input's timeout, where one is due (R23, R354). -/
def ltcRecord (s : State) : State :=
  if s.time.due.contains .ltc then (s.dueTaken .ltc).raise P.SYNC 4 else s

/-- A unit of LTC: its value stands in LTC_VAL. -/
def ltcUnit (tc : Word) (fly : Nat) (s : State) : State :=
  let s := s.wr A.SYNC_LTC_VAL tc
  let s := s.inc A.SYNC_LTC_UNITS
  let s := (s.put A.SYNC_LTC_STAT F.SYNC_LTC_STAT_VALID 1).put A.SYNC_LTC_STAT F.SYNC_LTC_STAT_FLYWHEEL (decide (0 < fly)).toNat
  let s := { s with time := { s.time with ltc := ⟨s.nowNs, fly⟩ } }
  if s.get A.SYNC_LTC_STAT F.SYNC_LTC_STAT_TIMED_OUT = 1 then
    ((ltcRecord s).put A.SYNC_LTC_STAT F.SYNC_LTC_STAT_TIMED_OUT 0).raise P.SYNC 5
  else s

/-- An LTC frame is complete (R353). -/
def ltcFrameOp (f : LtcFrame) (s : State) : State :=
  if s.actF A.SYNC_LTC_CFG F.SYNC_LTC_CFG_EN = 0 then s
  else
    let r := pinRemoved P.SYNC 0xFC (some 4) s
    let s := r.2
    if r.1 then s
    else if f.reversed then s.inc A.SYNC_LTC_REVERSE
    else match ltcRate f.bitRate f.dropFlag with
    | none => s.inc A.SYNC_LTC_ERR
    | some rate =>
      if f.bitError ∨ !bcdOk f.tc (tcFps rate) then s.inc A.SYNC_LTC_ERR
      else
        let s := (s.put A.SYNC_LTC_STAT F.SYNC_LTC_STAT_DF f.dropFlag.toNat).put A.SYNC_LTC_STAT F.SYNC_LTC_STAT_RATE rate
        if rate ≠ s.actF A.SCHED_TC_CTRL ⟨29, 28⟩ then s.inc A.SYNC_LTC_RATE_ERR
        else
          let tc := if s.actF A.SYNC_LTC_CFG F.SYNC_LTC_CFG_ADVANCE = 1 then tcNext f.tc rate else f.tc
          ltcUnit tc 0 (s.wr A.SYNC_LTC_USER f.user)

/-- The frame period of a rate code in ns. -/
def tcPeriod (rate : Nat) : Nat :=
  match rate with
  | 0 => 41666667
  | 1 => 40000000
  | 2 => 33366667
  | _ => 33333333

/-- When the decoder synthesises its next unit (ns): 1.5 frame periods after a unit that was read, one after a synthesised one (R354). -/
def State.ltcFlyDue (s : State) : Nat :=
  let p := tcPeriod (s.get A.SYNC_LTC_STAT F.SYNC_LTC_STAT_RATE)
  s.time.ltc.lastAt + (if s.time.ltc.fly = 0 then p * 3 / 2 else p)

/-- The decoder synthesises a unit, or has made the last that LTC_FLY allows (R354). -/
def ltcFlywheelOp (s : State) : State :=
  if s.actF A.SYNC_LTC_CFG F.SYNC_LTC_CFG_EN = 0 ∨ s.get A.SYNC_LTC_STAT F.SYNC_LTC_STAT_VALID = 0 ∨ s.nowNs < s.ltcFlyDue then s
  else if s.actF A.SYNC_LTC_CFG F.SYNC_LTC_CFG_LTC_FLY ≤ s.time.ltc.fly then s.put A.SYNC_LTC_STAT F.SYNC_LTC_STAT_FLYWHEEL 0
  else
    ltcUnit (tcNext (s.rd A.SYNC_LTC_VAL) (s.get A.SYNC_LTC_STAT F.SYNC_LTC_STAT_RATE)) (s.time.ltc.fly + 1) s

/-- The time since the last valid unit of LTC, which is on, has reached LTC_TIMEOUT_MS (R354). -/
def State.ltcElapsed (s : State) : Bool :=
  s.actF A.SYNC_LTC_CFG F.SYNC_LTC_CFG_EN == 1 &&
    decide (s.actF A.SYNC_LTC_TIMEOUT F.SYNC_LTC_TIMEOUT_LTC_TIMEOUT_MS * 1000000 ≤ s.nowNs - s.time.ltc.lastAt)

/-- LTC times out at a boundary (R23, R354). -/
def ltcTimeout (s : State) : State :=
  if s.get A.SYNC_LTC_STAT F.SYNC_LTC_STAT_TIMED_OUT = 1 then s
  else
    let s := s.put A.SYNC_LTC_STAT F.SYNC_LTC_STAT_FLYWHEEL 0
    (s.put A.SYNC_LTC_STAT F.SYNC_LTC_STAT_TIMED_OUT 1).streamDue .ltc

/-- At a boundary the inputs whose elapsed time has reached their timeout time out (R23); an armed injection does the same (R455). -/
def syncElapsed (s : State) : State :=
  let a := s.detect P.SYNC 2 s.genlockElapsed
  let s := if a.1 then genlockTimeout a.2 else a.2
  let b := s.detect P.SYNC 4 s.ltcElapsed
  if b.1 then ltcTimeout b.2 else b.2

/-! ### Triggers (R355, R356) -/

/-- A trigger that is not armed. -/
def TrigSt.init : TrigSt := ⟨false, [], none, none⟩

/-- A trigger's state. -/
def State.trig (s : State) (n : Nat) : TrigSt := amGet (fun _ => TrigSt.init) s.time.trigs n

/-- Set a trigger's state, and TRIG_STAT. -/
def State.setTrig (s : State) (n : Nat) (x : TrigSt) : State :=
  { s with time := { s.time with trigs := amSet (fun _ => TrigSt.init) s.time.trigs n x } }.put A.TRIG_TRIG_STAT ⟨n, n⟩ x.armed.toNat

/-- START of a trigger, 2⁻³² ns. -/
def State.trigStart (s : State) (n : Nat) : Nat :=
  (s.act64 (A.TRIG_START_SEC_LO n) * 10 ^ 9 + s.actF (A.TRIG_START_NS n) ⟨29, 0⟩) * 2 ^ 32

/-- PERIOD of a trigger, 2⁻³² ns. -/
def State.trigPeriod (s : State) (n : Nat) : Nat := (s.act (A.TRIG_PERIOD_NS n)).toNat * 2 ^ 32 + (s.act (A.TRIG_PERIOD_FRAC n)).toNat

/-- An epoch arms a trigger at the boundary at which it applies (R356). -/
def trigArm (n : Nat) (s : State) : State :=
  let start := s.trigStart n
  let b := s.time.bndT
  match s.actF (A.TRIG_TCFG n) F.TRIG_TCFG_MODE with
  | 0 => s.setTrig n { s.trig n with armed := false, due := [], next := none }
  | 1 =>
    let passed := decide (start < b)
    s.setTrig n { s.trig n with armed := !passed, due := if passed then [] else [start], next := none }
  | 2 =>
    let p := s.trigPeriod n
    let j := if start < b ∧ 0 < p then (b - start) / p + 1 else 0
    s.setTrig n { s.trig n with armed := true, due := [], next := some (start, j) }
  | _ => s.setTrig n { s.trig n with armed := true, due := [], next := none }

/-- Each boundary gives a BOUNDARY or PRESENT trigger its pulse, or a miss (R355, R356). -/
def trigBoundary (s : State) : State :=
  (List.range 16).foldl (fun t n =>
    let x := t.trig n
    let mode := t.actF (A.TRIG_TCFG n) F.TRIG_TCFG_MODE
    let ofs := fgetS (t.act (A.TRIG_OFFSET n)) ⟨31, 0⟩
    if !x.armed ∨ (mode ≠ 3 ∧ mode ≠ 4) then t
    else
      let due : Int := if mode = 3 then (t.time.boundary : Nat) + max 0 ofs else (t.time.ptNow : Nat) + ofs
      if due < (t.time.boundary : Nat) then (t.inc A.TRIG_MISSED).raise P.TRIG 8
      else t.setTrig n { x with due := x.due ++ [due.toNat * 2 ^ 32] }) s

/-- When a trigger's next pulse becomes due (2⁻³² ns). -/
def State.trigDue (s : State) (n : Nat) : Option Nat :=
  let x := s.trig n
  if 16 ≤ n ∨ !x.armed then none
  else match x.due, x.next with
  | d :: _, _ => some d
  | [], some (start, j) => some (start + j * s.trigPeriod n)
  | [], none => none

/-- A trigger's pulse becomes due: the pin turns active at the first tick at or after it. -/
def triggerPulseOp (n : Nat) (s : State) : State :=
  let x := s.trig n
  match s.trigDue n with
  | none => s
  | some d =>
    if s.time.t < d then s
    else match x.due, x.next with
    | _ :: ds, _ =>
      let once := s.actF (A.TRIG_TCFG n) F.TRIG_TCFG_MODE == 1
      s.setTrig n { x with due := ds, active := some s.time.t, armed := !once }
    | [], some (start, j) => s.setTrig n { x with next := some (start, j + 1), active := some s.time.t }
    | [], none => s

/-- When a pulse in progress ends (2⁻³² ns): WIDTH after its start. -/
def State.trigEndDue (s : State) (n : Nat) : Option Nat :=
  (s.trig n).active.map fun a => a + s.actF (A.TRIG_WIDTH n) F.TRIG_WIDTH_NS * 2 ^ 32

/-- A pulse ends. -/
def triggerPulseEndOp (n : Nat) (s : State) : State :=
  match s.trigEndDue n with
  | none => s
  | some d => if s.time.t < d then s else s.setTrig n { s.trig n with active := none }

/-- The level of pin TRIGn: active while a pulse is, high or low by POL (R355, R360). -/
def State.trigPin (s : State) (n : Nat) : Bool := (s.trig n).active.isSome != (s.actF (A.TRIG_TCFG n) F.TRIG_TCFG_POL == 1)

/-- TRIG settings of an epoch take effect. -/
def trigEpoch (s : State) : State :=
  let s := s.time.trigP.foldl (fun t n => trigArm n t) s
  { s with time := { s.time with trigP := [] } }

/-! ### Captures (R357) -/

/-- The records waiting on a capture input. -/
def State.capQ (s : State) (c : Nat) : List (Bool × Nat) := amGet (fun _ => []) s.time.caps c

/-- Set the records waiting. -/
def State.setCap (s : State) (c : Nat) (l : List (Bool × Nat)) : State :=
  { s with time := { s.time with caps := amSet (fun _ => []) s.time.caps c l } }

/-- An edge on CAPc, seen now after its filter. -/
def captureEdgeOp (c : Nat) (rising : Bool) (s : State) : State :=
  let edge := s.actF (A.TRIG_CCFG c) F.TRIG_CCFG_EDGE
  if 8 ≤ c ∨ s.actF (A.TRIG_CCFG c) F.TRIG_CCFG_EN = 0 then s
  else
    let r := pinRemoved P.TRIG 0xF2 (some 2) s
    let s := r.2
    if r.1 ∨ (edge = 1 ∧ !rising) ∨ (edge = 2 ∧ rising) then s
    else if 16 ≤ (s.capQ c).length then (s.inc (A.TRIG_LOST c)).raise P.TRIG 9
    else
      let t := s.edgeTime (s.actF (A.TRIG_CCFG c) F.TRIG_CCFG_GLITCH_NS)
      (s.setCap c (s.capQ c ++ [(rising, t / 2 ^ 32)])).raise P.TRIG c

/-- A read of POP removes the oldest record. -/
def captureTake (c : Nat) (s : State) : Word × State :=
  match s.capQ c with
  | [] => (0, s)
  | x :: l =>
    let s := (s.setCap c l).wr64 (A.TRIG_CSEC_LO c) (secOf x.2)
    (w32 (2 ^ 31 + x.1.toNat * 2 ^ 30), s.wr (A.TRIG_CNS c) (w32 (nsOf x.2)))

/-! ### Transmit stamps (R344) -/

/-- The port a requester has selected. -/
def State.tsqPort (s : State) (r : Req) : Nat := fget (s.bank A.TIME_TSQ_SEL 0 r) F.TIME_TSQ_SEL_PORT

/-- A read of TSQ_POP removes the oldest entry of the Gaffer's frames. -/
def tsqTake (r : Req) (s : State) : Word × State :=
  let p := s.tsqPort r
  match (s.port p).tsq with
  | [] => (0, s)
  | x :: l =>
    let s := s.setPort p { s.port p with tsq := l }
    (w32 (2 ^ 31 + x.1 % 65536), (s.wr A.TIME_TSQ_SEC (w32 x.2.1)).wr A.TIME_TSQ_NS (w32 x.2.2))

end Sys2Proof.Machine
end

