-- ==== Sys2Proof/Machine/Twin.lean ====
section
/-!
DEFINITION. Twin operation (R362 to R384): the digests, punty messages, the partner's HEADs, ACKs, the frame state record, and
authority. DESIGN CHOICE (log entry 18): the layout of a record and of the ACK's body, which the manual calls a working form.
-/
namespace Sys2Proof.Machine

/-- A twin block that takes part in no pair. -/
def TwinSt.init : TwinSt :=
  ⟨0, 0, 0, false, false, none, none, none, 0, [], none, 0, [], none, false, false, some 0, [], [], none, false, none, none, []⟩

/-- The engine frame in progress, as the device numbers it: the one that started at the newest boundary. -/
def State.engFrameNum (s : State) : Nat := (s.frameNum + 2 ^ 32 - 1) % 2 ^ 32

/-- The device's number of a pair frame. -/
def State.ownNum (s : State) (pair : Nat) : Nat := (pair + 2 ^ 32 - (s.rd A.TWIN_FRAME_OFS).toNat) % 2 ^ 32

/-- SIDE of the device: 0 A, 1 B. -/
def State.side (s : State) : Nat := s.actF A.TWIN_CTRL F.TWIN_CTRL_SIDE

/-- Whether the device holds authority in a pair. -/
def State.holdsAuthority (s : State) : Bool := s.twinSt == 2 || s.twinSt == 3

/-- Whether the peer is seen. -/
def State.peerSeen (s : State) : Bool := s.get A.TWIN_STAT F.TWIN_STAT_PEER_SEEN == 1

/-- The punty links in use that are up. -/
def State.puntyUp (s : State) : List Nat :=
  [0, 1].filter fun k => bitOf (s.act A.TWIN_PUNTY) (16 + k) && s.linkUp (68 + k) && s.portOn (68 + k)

/-- LINKS_UP. -/
def twinLinks (s : State) : State := s.put A.TWIN_STAT F.TWIN_STAT_LINKS_UP s.puntyUp.length

/-- PAGE_STAT.FAULT of the TWIN page. -/
def twinFault (s : State) : State := s.setFault P.TWIN (s.get A.TWIN_STAT F.TWIN_STAT_FAILOVER == 1 || s.twinSt == 6)

/-- FRAME_OFS takes a value, and PAIR_FRAME follows it (R365). -/
def setOfs (w : Word) (s : State) : State :=
  let s := s.wr A.TWIN_FRAME_OFS w
  s.wr A.TWIN_PAIR_FRAME (w32 (s.pairNum s.frameNum))

/-- The device takes a state of R377. -/
def twinEnter (st : Nat) (s : State) : State :=
  let was := s.twinSt
  let partner := decide (4 ≤ st) && decide (st ≤ 6)
  let s := (s.put A.TWIN_STAT F.TWIN_STAT_STATE st).put A.TWIN_STAT F.TWIN_STAT_ROLE partner.toNat
  let s := s.raiseIf (st == 5 && was != 5) P.TWIN 5
  let s := if st = 6 ∧ was ≠ 6 then (s.inc A.TWIN_DIVERGE_CNT).raise P.TWIN 4 else s
  let s := if st = 3 then s.put A.TWIN_STAT F.TWIN_STAT_FAILOVER 0 else s
  let s := if partner then s
    else ownSets { s.put A.TWIN_STAT F.TWIN_STAT_CLEAN_CNT 0 with
           twin := { s.twin with usedHead := none, nextHead := none, miss := 0, frames := [], takeover := false,
                                  takeDue := false } }
  let s := if st = 4 then
      { s.put A.TWIN_STAT F.TWIN_STAT_CLEAN_CNT 0 with twin := { s.twin with full := false, nextSeg := some 0, lastHead := none } }
    else s
  let s := if st = 5 then s else { s with twin := { s.twin with again := false } }
  let s := if st = 1 then { s with twin := { s.twin with helloAt := s.nowNs, seekAt := s.nowNs } } else s
  let s := if st = 0 then { ((setOfs 0 s).put A.TWIN_STAT F.TWIN_STAT_PEER_SEEN 0) with twin := TwinSt.init } else s
  twinFault s

/-- The partner becomes DIVERGED with a reason (R371, R375). -/
def diverge (reason : Nat) (s : State) : State :=
  twinEnter 6 ((s.put A.TWIN_STAT F.TWIN_STAT_REASON reason).put A.TWIN_STAT F.TWIN_STAT_CLEAN_CNT 0)

/-! ### Digests (R364) -/

/-- The mirrored pages (R363). -/
def mirroredPages : List Nat :=
  [P.RASTER, P.MAPS, P.SCHED, P.INGEST] ++ (List.range 16).map (fun k => 0x060 + k) ++
  [P.SAMPLER, P.MARVER, P.SOLVER, P.CLOOP] ++ (List.range 8).map P.SCAN ++ [P.TUIPER, P.SETS, P.SYNC]

/-- The offsets of a table's RWS registers, in rising order. -/
def rwsOffsets (t : List RegDef) : List Nat :=
  sortBy id ((t.filter fun r => r.fields.any fun f => f.acc == .rws).flatMap fun r =>
    (List.range r.cnt).map fun i => r.off + i * r.stride)

/-- The addresses CFG_DIGEST covers, in order. -/
def digestAddrs : List Nat :=
  mirroredPages.flatMap fun p => match blkOf p with
    | some b =>
      let l := rwsOffsets (b.table ++ (if p = 0xB0 then scan0Table else []))
      let l := if b = .scan then l.filter fun o => !(List.range 8).any fun j => A.SCAN_LINK_TRIM 0 j % 0x1000 == o else l
      l.map fun o => p * 0x1000 + o
    | none => []

/-- CFG_DIGEST of a register set under an epoch number. -/
def cfgDigest (epoch : Nat) (rd : Nat → Word) : Cell := crcWords (epoch :: digestAddrs.map fun a => (rd a).toNat) 0

/-- The sequence numbers of the sACN sources used for a flow's map indices, in map order and then by CID (R153, R364). -/
def State.sacnIds (s : State) (f : Nat) : List Nat :=
  (s.ingest.map.filter fun x => x.2 / 2 ^ 30 == 1 && x.2 / 2 ^ 16 % 256 == f && !s.umapBad x.2).flatMap fun x =>
    (sortBy (fun z => z.cid) (s.sacnTop f (x.2 % 65536))).filterMap fun z => z.last.map (·.seq)

/-- The identity of a flow's unit for the frame. -/
def State.unitIds (s : State) (f : Nat) : List Nat :=
  let x := s.flow f
  match s.flowType f with
  | 1 => match x.bound with | some k => [amGet (fun _ => 0) x.slotTs k] | none => []
  | 4 => match x.hostBound with | some p => [p.2] | none => []
  | 2 => s.sacnIds f
  | 3 => match x.conLast with | some q => [q.1.toNat] | none => []
  | _ => []

/-- IN_DIGEST of the frame in progress (the inputs bound at the newest boundary): a stream that has timed out gives its timed-out bit alone. -/
def State.inDigest (s : State) : Cell :=
  let flows := (List.range 256).flatMap fun f =>
    let out := (s.flow f).timedOut
    [f, out.toNat] ++ (if out then [] else s.unitIds f)
  let dmx := ((List.range 16).filter fun n => s.actF (A.DMX_CFG n) F.DMX_CFG_DIR == 1).flatMap fun n =>
    let x := s.dmxPort n
    if x.timedOut then [1] else [0, x.slots.length] ++ x.slots
  crcWords (flows ++ dmx ++ [((s.sched.tcNow.getD 0)).toNat]) 0

/-- At boundary N the device forms both digests for frame N (R364): of the set `rd` that governs it, under epoch `epoch`. -/
def twinDigests (epoch : Nat) (rd : Nat → Word) (s : State) : State :=
  if fget (rd A.TWIN_CTRL) F.TWIN_CTRL_EN = 0 then s
  else
    let c := (cfgDigest epoch rd).toNat
    let i := s.inDigest.toNat
    let s := (s.wr64 A.TWIN_CFG_DIGEST_LO c).wr64 A.TWIN_IN_DIGEST_LO i
    let n := s.frameNum
    { s with twin := { s.twin with digests := (n, c, i) :: (s.twin.digests.filter fun d => d.1 != n).take 3 } }

/-- The digests of one of the last frames. -/
def State.digestsOf (s : State) (n : Nat) : Option (Nat × Nat) :=
  (s.twin.digests.find? fun d => d.1 == n).map fun d => d.2

/-! ### Punty messages (R366) -/

/-- The header of a punty message. -/
def State.puntyHeader (s : State) (type body frame aux : Nat) : List Word :=
  [w32 (2 ^ 28 + type * 2 ^ 24 + 16 + body),
   w32 (s.actF A.TWIN_CTRL F.TWIN_CTRL_PAIR_ID * 65536 + s.side * 32768 +
     s.get A.TWIN_STAT F.TWIN_STAT_ROLE * 16384 + s.twinSt * 2048 + 1), w32 frame, w32 aux]

/-- A punty message is handed to a punty link. -/
def puntySend (k : Nat) (ws : List Word) (body : List Byte) (s : State) : State :=
  let bytes := macBytes (Config.peerMac (68 + k)) ++ macBytes (s.macAddr (68 + k)) ++
    beBytes 2 (s.actF A.TWIN_PUNTY F.TWIN_PUNTY_ETYPE) ++ wordBytes ws ++ body
  handOver (68 + k) (plainFrame false (.bytes bytes)) s

/-- A message to every punty link that is up. -/
def puntyAll (ws : List Word) (s : State) : State := s.puntyUp.foldl (fun t k => puntySend k ws [] t) s

/-- A message of type `type` received on a punty link, with at least `need` body bytes: taken from its port, and judged (R366).
A device with EN = 0 takes no part (R362). -/
def puntyTake (pl type need : Nat) (ws : List Word) (bodyLen : Nat) (s : State) : Bool × State :=
  let s := takeRx (68 + pl) s
  if !s.twinOn ∨ s.twinSt = 0 ∨ 2 ≤ pl ∨ !bitOf (s.act A.TWIN_PUNTY) (16 + pl) then (false, s)
  else
    let w0 := wordAt ws 0
    let w1 := wordAt ws 1
    let bad := fget w0 ⟨31, 28⟩ != 1 || fget w1 ⟨31, 16⟩ != s.actF A.TWIN_CTRL F.TWIN_CTRL_PAIR_ID || fget w1 ⟨7, 0⟩ != 1
    let x := s.detect P.TWIN 31 bad
    if x.1 then (false, (x.2.inc A.TWIN_PUNTY_BAD).guard1 P.TWIN 31 0x63 (some 3))
    else (fget w0 ⟨27, 24⟩ == type && decide (16 + need ≤ fget w0 ⟨15, 0⟩) && decide (fget w0 ⟨15, 0⟩ ≤ 4 * ws.length + bodyLen)
      && fget w1 ⟨15, 15⟩ != x.2.side, x.2)

/-- The sender's STATE in a message. -/
def peerState (ws : List Word) : Nat := fget (wordAt ws 1) ⟨13, 11⟩

/-- HELLO leaves on each punty link that is up, 1 ms after the last (R366). -/
def helloSendOp (s : State) : State :=
  if !s.twinOn ∨ s.twinSt = 0 then s
  else
    let s := reach s.twin.helloAt s
    if s.nowNs < s.twin.helloAt then s
    else puntyAll (s.puntyHeader 1 0 (s.pairNum s.frameNum) 0) { s with twin := { s.twin with helloAt := s.nowNs + 1000000 } }

/-- A HELLO arrives (R366, R377, R379); one from a HOMED device tells a partner in MIRROR that the failover is over (R381). -/
def helloOp (pl : Nat) (ws : List Word) (s : State) : State :=
  let at_ := s.rxAt (68 + pl)
  let x := puntyTake pl 1 0 ws 0 s
  if !x.1 then x.2
  else
    let s := x.2
    let st := peerState ws
    let home := fget (wordAt ws 1) ⟨14, 14⟩ == 0 && (st == 2 || st == 3)
    let seen := s.peerSeen
    let s := { s.put A.TWIN_STAT F.TWIN_STAT_PEER_SEEN 1 with twin := { s.twin with heardAt := max s.twin.heardAt at_ } }
    let s := s.raiseIf (!seen) P.TWIN 0
    let s := if decide (st = 3) && s.twinSt == 5 then twinFault (s.put A.TWIN_STAT F.TWIN_STAT_FAILOVER 0) else s
    if s.twinSt == 1 then
      if home then twinEnter 4 s else if st = 1 ∧ s.side = 0 then twinEnter 2 s else s
    else if s.holdsAuthority && home then
      let s := s.raise P.TWIN 8
      if s.side = 1 then twinEnter 4 s else s
    else s

/-- No HELLO has arrived for 10 ms (R366, R377, R378). -/
def peerLostOp (s : State) : State :=
  if !s.twinOn || !s.peerSeen then s
  else
    let s := reach (s.twin.heardAt + 10000000) s
    if s.nowNs < s.twin.heardAt + 10000000 then s
    else
    let s := (s.put A.TWIN_STAT F.TWIN_STAT_PEER_SEEN 0).raise P.TWIN 1
    let s := if s.twinSt = 3 then twinEnter 2 s else s
    if s.isPartner && s.puntyUp.isEmpty then { s with twin := { s.twin with takeover := true } } else s

/-- SEEKING has lasted SEEK_MS without a home device (R377). -/
def seekTimeoutOp (s : State) : State :=
  if s.twinOn && s.twinSt == 1 then
    let due := s.twin.seekAt + s.actF A.TWIN_WAIT F.TWIN_WAIT_SEEK_MS * 1000000
    let s := reach due s
    if s.nowNs < due then s else twinEnter 2 s
  else s

/-- A partner whose peer is not seen finds both punty links down (R378). -/
def twinLinkDown (s : State) : State :=
  let s := twinLinks s
  if s.isPartner && !s.peerSeen && s.puntyUp.isEmpty then { s with twin := { s.twin with takeover := true } } else s

/-! ### HEAD (R367 to R372) -/

/-- Body word `i` of a punty message. -/
def puntyBody (ws : List Word) (i : Nat) : Nat := (wordAt ws (4 + i)).toNat

/-- The later of two counters by R4 (R369, R373). Of two counters exactly 2³¹ apart R4 makes each earlier than the other, and the first,
the device's own, stays (DESIGN CHOICE, log entry 39). -/
def laterSeq (a b : Nat) : Nat := if later b a then b else a

/-- Each link's counter takes the later of its own value and the one given. -/
def mergeSeq (f : Nat → Nat) (s : State) : State := (List.range 64).foldl (fun t l => t.setSeq l (laterSeq (t.seqOf l) (f l))) s

/-- The HEAD of the engine frame in progress. -/
def State.headWords (s : State) : List Word :=
  let n := s.engFrameNum
  let d := (s.digestsOf n).getD (0, 0)
  let b := s.time.prevBoundary
  let fall := (List.range 128).map fun k =>
    w32 ((s.tuiper.setSt.filter fun x => decide (x.1 / 32 = k) && x.2.state != 0).foldl (fun v x => v + 2 ^ (x.1 % 32)) 0)
  s.puntyHeader 2 808 (s.pairNum n) 0 ++
    [w32 s.commit.prevEpoch, w32 (d.1 / 2 ^ 32), w32 d.1, w32 (d.2 / 2 ^ 32), w32 d.2,
     w32 (secOf b / 2 ^ 32), w32 (secOf b), w32 (nsOf b), w32 (s.ptOf n - b),
     w32 (s.get A.TUIPER_SESSION F.TUIPER_SESSION_SESSION)] ++
    (List.range 64).map (fun l => w32 (s.seqOf l)) ++ fall

/-- At step 1 of an engine frame the home device takes the counters of the last ACK and sends the HEAD (R367, R373). -/
def headSend (s : State) : State :=
  let n := s.engFrameNum
  if !s.twinOn || !s.holdsAuthority || decide (s.time.bnds < 2) || s.twin.headSent == some n then s
  else
    let s := match s.twin.ack with
      | some cs => mergeSeq (fun l => cs.getD l 0) s
      | none => s
    let s := { s with twin := { s.twin with ack := none, headSent := some n } }
    puntyAll s.headWords s

/-- What the partner knows of a frame. -/
def State.twinFrame (s : State) (n : Nat) : Option TwinFrame := s.twin.frames.find? fun f => f.frame == n

/-- Note what the partner knows of a frame. -/
def noteFrame (x : TwinFrame) (s : State) : State :=
  { s with twin := { s.twin with frames := x :: (s.twin.frames.filter fun f => f.frame != x.frame).take 7 } }

/-- The engines whose frame waits for the HEAD. -/
def State.waiting (s : State) : List Nat :=
  (List.range 8).filter fun e => match (s.engine e).cur with | some f => f.wait | none => false

/-- The engine frames that wait go on: with a HEAD's presentation time, by the device's own state, or sending nothing. -/
def releaseEngines (pt : Option Nat) (mute : Bool) (s : State) : State :=
  s.waiting.foldl (fun t e => engineGo e (t.onFrame e fun f =>
    { f with pt := pt.getD f.pt, fld := t.pairNum f.num, mute := f.mute || mute })) s

/-- Clear the count of clean frames. -/
def notClean (s : State) : State := s.put A.TWIN_STAT F.TWIN_STAT_CLEAN_CNT 0

/-- The HEAD of the engine frame in progress is judged (R368, R369, R371). -/
def headJudge (ws : List Word) (s : State) : State :=
  let n := s.engFrameNum
  if (s.twinFrame n).isSome then s
  else
    let b := puntyBody ws
    let bnd : Int := ((b 5 * 2 ^ 32 + b 6) * 10 ^ 9 + b 7 : Nat)
    let diff := bnd - (s.time.prevBoundary : Nat)
    let s := s.wr A.TWIN_BND_DIFF (sat32 diff)
    let own := s.digestsOf n
    let reason :=
      if own.map (·.1) ≠ some (b 1 * 2 ^ 32 + b 2) then 1
      else if own.map (·.2) ≠ some (b 3 * 2 ^ 32 + b 4) then 2
      else if s.actF A.TWIN_FAIL F.TWIN_FAIL_BND_TOL_NS < diff.natAbs then 3 else 0
    let s := { s with twin := { s.twin with miss := 0 } }
    if reason = 0 then
      let s := setOfs (w32 ((wordAt ws 2).toNat + 2 ^ 32 - n)) { s with twin := { s.twin with lastHead := some (wordAt ws 2).toNat } }
      let s := noteFrame ⟨n, true, none⟩ s
      if s.twinSt = 5 then
        let s := mergeSeq (fun l => b (10 + l)) (fallbackSync { s with twin := { s.twin with usedHead := some ws } })
        let s := s.put A.TUIPER_SESSION F.TUIPER_SESSION_SESSION (b 9)
        releaseEngines (some (bnd.toNat + b 8)) false s
      else releaseEngines none true s
    else
      releaseEngines none true (diverge reason (noteFrame ⟨n, false, none⟩ s))

/-- When the wait for the HEAD of the engine frame in progress ends (R368, R372). -/
def State.headDue (s : State) : Nat := s.time.boundary + s.actF A.TWIN_WAIT F.TWIN_WAIT_HEAD_WAIT_US * 1000

/-- Whether a HEAD is another copy of the last one accepted, or concerns the engine frame before (R367). -/
def State.headOld (s : State) (ws : List Word) : Bool :=
  let f := (wordAt ws 2).toNat
  s.twin.lastHead == some f || (s.twin.lastHead.isSome && s.ownNum f == (s.engFrameNum + 2 ^ 32 - 1) % 2 ^ 32)

/-- A HEAD arrives: for the engine frame in progress, where the wait for it has not ended, or for the next where its boundary is the
newest (R367, R368). -/
def headOp (pl : Nat) (ws : List Word) (s : State) : State :=
  let at_ := s.rxAt (68 + pl)
  let x := puntyTake pl 2 808 ws 0 s
  if !x.1 || !x.2.isPartner || x.2.headOld ws then x.2
  else
    let i := x.2.detect P.TWIN 6 false
    let s := i.2
    if i.1 then s
    else
      let b := puntyBody ws
      let bnd : Int := ((b 5 * 2 ^ 32 + b 6) * 10 ^ 9 + b 7 : Nat)
      let tol := s.actF A.TWIN_FAIL F.TWIN_FAIL_BND_TOL_NS
      if (bnd - (s.time.boundary : Nat)).natAbs ≤ tol ∧ tol < (bnd - (s.time.prevBoundary : Nat)).natAbs then
        { s with twin := { s.twin with nextHead := s.twin.nextHead.or (some ws) } }
      else if s.time.bnds < 2 ∨ s.headDue < at_ then s
      else headJudge ws s

/-- An engine frame of a partner that starts once its HEAD has been judged, or missed, follows it; a HEAD that came before the
engine frame is judged now. -/
def headFollow (s : State) : State :=
  if !s.isPartner then s
  else match s.twinFrame s.engFrameNum with
  | some f =>
    if s.twinSt ≠ 5 then releaseEngines none true s
    else if f.head then
      match s.twin.usedHead with
      | some ws =>
        let b := puntyBody ws
        releaseEngines (some ((b 5 * 2 ^ 32 + b 6) * 10 ^ 9 + b 7 + b 8)) false s
      | none => releaseEngines none false s
    else releaseEngines none false s
  | none =>
    match s.twin.nextHead with
    | some ws => headJudge ws { s with twin := { s.twin with nextHead := none } }
    | none => s

/-- No HEAD of the engine frame in progress has arrived: a head miss (R372, R378, R380). -/
def headMissNow (s : State) : State :=
  let n := s.engFrameNum
  if !s.twinOn || !s.isPartner || decide (s.time.bnds < 2) || (s.twinFrame n).isSome then s
  else
    let s := (s.inc A.TWIN_HEAD_MISS).raise P.TWIN 6
    let s := notClean (noteFrame ⟨n, false, none⟩ s)
    let m := s.twin.miss + 1
    let failed := decide (s.actF A.TWIN_FAIL F.TWIN_FAIL_FAIL_MISS ≤ m)
    let p := s.pairNum n
    let take := match s.twin.take with
      | some (t, _) => if (t + 2 ^ 32 - p) % 2 ^ 32 ≤ 2 then none else s.twin.take
      | none => none
    let s := { s with twin := { s.twin with miss := m, takeover := s.twin.takeover || failed, usedHead := none, take := take } }
    if s.twinSt == 5 then
      let s := (List.range 64).foldl (fun (t : State) l => t.setSeq l (t.seqOf l + 2 ^ 20)) s
      releaseEngines none false (fallbackSync s)
    else releaseEngines none true s

/-- HEAD_MISS: the wait of HEAD_WAIT_US ends (R372). -/
def headMissOp (s : State) : State :=
  if !s.twinOn || !s.isPartner || decide (s.time.bnds < 2) || (s.twinFrame s.engFrameNum).isSome then s
  else
    let s := reach s.headDue s
    if s.nowNs < s.headDue then s else headMissNow s

/-! ### The frame state record (R374 to R376) -/

/-- Listed addresses of memory in a range of entries, as entry numbers. -/
def State.entriesIn (s : State) (base len stride : Nat) : List Nat :=
  (s.mem.foldl (fun (l : List Nat) x =>
    if base ≤ x.1 ∧ x.1 < base + len then
      (let k := (x.1 - base) / stride
       if l.head? = some k then l else k :: l)
    else l) []).reverse

/-- A slot's entry: number, state (bit 7: its delay counts ticks), private flags, remaining delay, place in the ready order. -/
def State.slotEntry (s : State) (k : Nat) : List Byte :=
  let x := s.slot k
  let st := match x.st with
    | .idle => 0 | .delay => 1 | .wait => 2 | .ready => 3 | .affinity => 4 | .run => 5 | .spent => 6 | .done => 7
  let d := s.sched.delays.find? fun d => d.slot == k
  let pos := match s.sched.ready.findIdx? fun r => r == k with | some i => i + 1 | none => 0
  beBytes 2 k ++ beBytes 1 (st + (match d with | some d => d.tick.toNat * 128 | none => 0)) ++ beBytes 1 x.pflags ++
    beBytes 2 (match d with | some d => d.left | none => 0) ++ beBytes 2 pos

/-- A state block's entry. -/
def State.blockEntry (s : State) (k : Nat) : List Byte :=
  beBytes 4 k ++ (match s.blockAddr k with | some a => s.memRead a 64 | none => List.replicate 64 0)

/-- A fixture's loop entry: fixture ID, G_ACT, G_PEND, FLAGS, T_LAST. -/
def State.loopEntry (s : State) (f : Nat) : List Byte :=
  beBytes 4 f ++ (match s.gainEntry s.gainActive f with
    | some a => s.memRead a 32 ++ s.memRead (a + 0x34) 4 ++ s.memRead (a + 0x38) 8
    | none => List.replicate 44 0)

/-- A fixture's current entry: fixture ID, the eight codes, whether an entry counts as sent with the generation. -/
def State.curEntryBytes (s : State) (f : Nat) : List Byte :=
  let c := s.curOf f
  beBytes 4 f ++ beBytes 12 ((c.codes.getD []).foldl (fun v x => v * 4096 + x % 4096) 0) ++
    beBytes 4 ((if c.codes.isSome then 2 ^ 31 else 0) + c.gen)

/-- The default of each kind of entry. -/
def slotDef (k : Nat) : List Byte := beBytes 2 k ++ List.replicate 6 0
def blockDef (k : Nat) : List Byte := beBytes 4 k ++ List.replicate 64 0
def loopDef (k : Nat) : List Byte := beBytes 4 k ++ List.replicate 44 0
def curDef (k : Nat) : List Byte := beBytes 4 k ++ List.replicate 16 0

/-- The state that records carry. -/
def State.twinCopy (s : State) : TwinCopy :=
  let put (d : Nat → List Byte) (f : Nat → List Byte) (ks : List Nat) : AMap (List Byte) :=
    ks.foldl (fun m k => amSet d m k (f k)) []
  let sb := s.actF A.SCHED_STATE_BUF ⟨11, 0⟩
  let g := s.gainActive
  { slots := put slotDef s.slotEntry (s.sched.slots.map (·.1))
    flags := beBytes 8 s.gflags ++ beBytes 8 s.sched.tcFired
    blocks := put blockDef s.blockEntry (if sb = nullBuf then [] else s.entriesIn (s.bufBase sb) (min (s.bufSize sb) 0x40000) 64)
    loop := put loopDef s.loopEntry (if g = nullBuf then [] else s.entriesIn (s.bufBase g) (s.bufSize g) 64)
    currents := put curDef s.curEntryBytes (s.tuiper.curs.map (·.1)) }

/-- All entries of a copy, in order. -/
def TwinCopy.bytes (c : TwinCopy) : List Byte :=
  c.slots.flatMap (·.2) ++ c.flags ++ c.blocks.flatMap (·.2) ++ c.loop.flatMap (·.2) ++ c.currents.flatMap (·.2)

/-- STATE_DIGEST of a copy. -/
def TwinCopy.digest (c : TwinCopy) : Cell := c.bytes.foldl (fun x b => crcBits 8 b.toNat x) 0

/-- The keys of entries that differ between two maps. -/
def changedKeys (d : Nat → List Byte) (a b : AMap (List Byte)) : List Nat :=
  sortBy id (((a.map (·.1)) ++ (b.map (·.1))).eraseDups.filter fun k => amGet d a k != amGet d b k)

/-- An empty state. -/
def TwinCopy.empty : TwinCopy := ⟨[], [], [], [], []⟩

/-- The record of a frame: its bytes (R374). -/
def recordBytes (s : State) (frame : Nat) (seg : Option Nat) (base : Nat) (old new : TwinCopy) : List Byte :=
  let inSeg (k : Nat) : Bool := match seg with | some g => k / 32768 == g | none => false
  let whole := seg == some 0
  let segKeys := match seg with | some g => (List.range 32768).map fun i => g * 32768 + i | none => []
  let merge (ks : List Nat) : List Nat := sortBy id (ks.filter fun k => !inSeg k) ++ segKeys
  let sl := if whole then List.range 4096 else changedKeys slotDef old.slots new.slots
  let bl := if whole then (List.range 4096).filter fun k => (s.blockAddr k).isSome else changedKeys blockDef old.blocks new.blocks
  let lo := (merge (changedKeys loopDef old.loop new.loop)).filter fun f => (s.gainEntry s.gainActive f).isSome
  let cu := merge (changedKeys curDef old.currents new.currents)
  let body := sl.flatMap (fun k => amGet slotDef new.slots k) ++ new.flags ++ bl.flatMap (fun k => amGet blockDef new.blocks k) ++
    lo.flatMap (fun k => amGet loopDef new.loop k) ++ cu.flatMap (fun k => amGet curDef new.currents k)
  beBytes 4 frame ++ beBytes 4 base ++ beBytes 4 (32 + body.length) ++ beBytes 4 (seg.getD 15) ++ beBytes 8 new.digest.toNat ++
    beBytes 2 sl.length ++ beBytes 2 bl.length ++ beBytes 4 lo.length ++ body

/-- The chunks of a record leave by the punty links that are up, in turn. -/
def sendChunks (frame : Nat) (links : List Nat) : Nat → Nat → List Byte → State → State
  | 0, _, _, s => s
  | _ + 1, _, [], s => s
  | n + 1, i, bs, s =>
    let chunk := bs.take 8192
    let k := links.getD (i % links.length) 0
    sendChunks frame links n (i + 1) (bs.drop 8192) (puntySend k (s.puntyHeader 3 chunk.length frame (i * 8192)) chunk s)

/-- At the boundary that ends frame `n` both devices keep the state after it, and the home device sends its record (R374). -/
def recordBoundary (n : Nat) (s : State) : State :=
  if !s.twinOn ∨ s.twinSt < 2 ∨ s.time.bnds < 2 then s
  else
    let c := s.twinCopy
    let s := { s with twin := { s.twin with copies := (n, c) :: s.twin.copies.take 7 } }
    if !s.holdsAuthority || !s.peerSeen || s.puntyUp.isEmpty then s
    else
      let seg := if s.twin.wantRebase ∧ s.twin.seg.isNone then some 0 else s.twin.seg
      let old := ((s.twin.copies.find? fun x => x.1 == s.twin.based).map (·.2)).getD TwinCopy.empty
      let bs := recordBytes s (s.pairNum n) seg (s.pairNum s.twin.based) old c
      let next := match seg with | some g => if g < 7 then some (g + 1) else none | none => none
      if 16 * 2 ^ 20 < bs.length then
        let s := s.inc A.TWIN_REC_OVER
        { s with twin := { s.twin with wantRebase := true, seg := none } }
      else
        let s := { s with twin := { s.twin with seg := next, wantRebase := false } }
        let s := s.wr A.TWIN_REC_SIZE (w32 bs.length)
        sendChunks (s.pairNum n) s.puntyUp (bs.length / 8192 + 1) 0 bs s

/-- A chunk of a record arrives and is placed by its AUX offset (R374, R375). -/
def recOp (pl : Nat) (ws : List Word) (body : List Byte) (s : State) : State :=
  let x := puntyTake pl 3 0 ws body.length s
  if !x.1 || !x.2.isPartner then x.2
  else
    let s := x.2
    let n := s.ownNum (wordAt ws 2).toNat
    if (n ≠ s.engFrameNum ∧ n ≠ s.frameNum) ∨ s.twin.recDone.any fun r => r.1 == n then s
    else
      let off := (wordAt ws 3).toNat
      let others := s.twin.recIn.filter fun r => r.1 != n && (r.1 == s.engFrameNum || r.1 == s.frameNum)
      let got := ((s.twin.recIn.find? fun r => r.1 == n).map (·.2)).getD []
      let got := body.zipIdx.foldl (fun m y => amSet (fun _ => 256) m (off + y.2) y.1.toNat) got
      let at4 (i : Nat) : Nat := (List.range 4).foldl (fun v k => v * 256 + amGet (fun _ => 256) got (i + k) % 256) 0
      let known := (List.range 4).all fun k => amGet (fun _ => 256) got (8 + k) != 256
      if known && decide (got.length = at4 8) && ((got.getLast?.map (·.1)) == some (at4 8 - 1)) then
        let i := s.detect P.TWIN 7 false
        let s := { i.2 with twin := { i.2.twin with recIn := others } }
        if i.1 then s
        else
          let s := s.wr A.TWIN_REC_SIZE (w32 (at4 8))
          let s := s.wr A.TWIN_REC_US (w32 (min 65535 ((s.nowNs - s.time.boundary) / 1000)))
          { s with twin := { s.twin with recDone := s.twin.recDone ++ [(n, got.map fun x => BitVec.ofNat 8 x.2)] } }
      else { s with twin := { s.twin with recIn := others ++ [(n, got)] } }

/-- The record of the engine frame before was not complete at the boundary (R375). -/
def recMissOp (s : State) : State :=
  let n := (s.engFrameNum + 2 ^ 32 - 1) % 2 ^ 32
  let known : Bool := match s.twinFrame n with | some f => f.recd.isSome | none => false
  if !s.twinOn || !s.isPartner || decide (s.time.bnds < 3) || (s.twin.recDone.any fun r => r.1 == n) || known then s
  else
    let s := (s.inc A.TWIN_REC_MISS).raise P.TWIN 7
    let s := s.wr A.TWIN_REC_US 65535
    let head := match s.twinFrame n with | some f => f.head | none => false
    let s := notClean (noteFrame ⟨n, head, some false⟩ s)
    { s with twin := { s.twin with full := false, nextSeg := some 0, recIn := s.twin.recIn.filter fun r => r.1 != n } }

/-- A slot's entry replaces the partner's own. -/
def applySlot (b : List Byte) (s : State) : State :=
  let be (i n : Nat) : Nat := leNat ((b.drop i).take n).reverse
  let k := be 0 2
  if (s.benchOf k).isSome then s
  else
    let st : SlotSt := match be 2 1 % 128 with
      | 0 => .idle | 1 => .delay | 2 => .wait | 6 => .spent | 7 => .done | _ => .ready
    let s := s.unlist k
    let s := s.setSlot k { s.slot k with st := st, pflags := be 3 1 }
    let delays := if st == SlotSt.delay then s.sched.delays ++ [⟨k, be 4 2, decide (128 ≤ be 2 1)⟩] else s.sched.delays
    let ready := if st == SlotSt.ready then
        s.sched.ready.take (be 6 2 - 1) ++ [k] ++ s.sched.ready.drop (be 6 2 - 1)
      else s.sched.ready
    { s with sched := { s.sched with delays := delays, ready := ready } }

/-- A loop entry replaces the partner's own. -/
def applyLoop (b : List Byte) (s : State) : State :=
  match s.gainEntry s.gainActive (leNat (b.take 4).reverse) with
  | some a =>
    let s := s.memWrite a ((b.drop 4).take 32)
    (s.memWrite (a + 0x34) ((b.drop 36).take 4)).memWrite (a + 0x38) ((b.drop 40).take 8)
  | none => s

/-- A current entry replaces the partner's own. -/
def applyCur (b : List Byte) (s : State) : State :=
  let be (i n : Nat) : Nat := leNat ((b.drop i).take n).reverse
  let v := be 4 12
  let codes := (List.range 8).map fun i => v / 4096 ^ (7 - i) % 4096
  let g := be 16 4
  s.setCur (be 0 4) { s.curOf (be 0 4) with codes := if 2 ^ 31 ≤ g then some codes else none, gen := g % 16 }

/-- The first `n` entries of `size` bytes, and what follows. -/
def takeEntries (size : Nat) : Nat → List Byte → List (List Byte) × List Byte
  | 0, bs => ([], bs)
  | n + 1, bs =>
    let r := takeEntries size n (bs.drop size)
    (bs.take size :: r.1, r.2)

/-- The entries of a record, by section: slots, flags, state blocks, loop entries, current entries (R374). -/
def recordParts (bs : List Byte) : List (List Byte) × List Byte × List (List Byte) × List (List Byte) × List (List Byte) :=
  let be (i k : Nat) : Nat := leNat ((bs.drop i).take k).reverse
  let sl := takeEntries 8 (be 24 2) (bs.drop 32)
  let bl := takeEntries 68 (be 26 2) (sl.2.drop 16)
  let lo := takeEntries 48 (be 28 4) bl.2
  let cu := takeEntries 20 (lo.2.length / 20) lo.2
  (sl.1, sl.2.take 16, bl.1, lo.1, cu.1)

/-- A copy with the entries of a record in place of its own. -/
def TwinCopy.patch (c : TwinCopy) (p : List (List Byte) × List Byte × List (List Byte) × List (List Byte) × List (List Byte)) : TwinCopy :=
  let key (n : Nat) (b : List Byte) : Nat := leNat (b.take n).reverse
  { slots := p.1.foldl (fun m b => amSet slotDef m (key 2 b) b) c.slots
    flags := p.2.1
    blocks := p.2.2.1.foldl (fun m b => amSet blockDef m (key 4 b) b) c.blocks
    loop := p.2.2.2.1.foldl (fun m b => amSet loopDef m (key 4 b) b) c.loop
    currents := p.2.2.2.2.foldl (fun m b => amSet curDef m (key 4 b) b) c.currents }

/-- TAKE leaves, naming T (R380). -/
def takeSend (s : State) : State :=
  let t := (s.pairNum s.frameNum + 3) % 2 ^ 32
  let s := { s with twin := { s.twin with take := some (t, false), again := false } }
  puntyAll (s.puntyHeader 5 0 (s.pairNum s.frameNum) t) s

/-- After a clean frame a side A partner in MIRROR asks for authority where CLEAN_CNT has reached REVERT_HOLD, or where an earlier
request was not answered in time (R380). -/
def takeAuto (s : State) : State :=
  let h := s.actF A.TWIN_REVERT F.TWIN_REVERT_REVERT_HOLD
  if s.twinSt == 5 && s.side == 0 && s.twin.take.isNone &&
      (s.twin.again || (h != 0 && decide (h ≤ s.get A.TWIN_STAT F.TWIN_STAT_CLEAN_CNT))) then
    takeSend s
  else s

/-- One complete record is applied (R375, R376). A partner that holds the full state compares its own state after the frame, with the
loop entries that records alone give it; one that comes to hold it with this record compares that state with the record's entries in
place (DEDUCED, log entry 18). -/
def recordTake (s : State) (r : Nat × List Byte) : State :=
  let n := r.1
  let be (i k : Nat) : Nat := leNat ((r.2.drop i).take k).reverse
  let seg := be 12 4
  let p := recordParts r.2
  let was := s.twin.full
  let next := if seg = 0 then some 1 else if s.twin.nextSeg = some seg then some (seg + 1) else some 0
  let full := was || (seg == 7 && next == some 8)
  let s := p.2.2.2.1.foldl (fun t b => applyLoop b t) s
  let own := ((s.twin.copies.find? fun x => x.1 == n).map (·.2)).getD TwinCopy.empty
  let own := if was then own else own.patch p
  let same := decide ({ own with loop := s.twinCopy.loop }.digest.toNat = be 16 8)
  let s := if was && same then s
    else
      let s := p.1.foldl (fun t b => applySlot b t) s
      let s := s.setFlags (leNat (p.2.1.take 8).reverse)
      let s := { s with sched := { s.sched with tcFired := leNat (p.2.1.drop 8).reverse } }
      let s := p.2.2.1.foldl (fun t b => match t.blockAddr (leNat (b.take 4).reverse) with
        | some a => t.memWrite a (b.drop 4)
        | none => t) s
      p.2.2.2.2.foldl (fun t b => applyCur b t) s
  let s := { s with twin := { s.twin with full := full, nextSeg := if full then none else next } }
  let head := match s.twinFrame n with | some f => f.head | none => false
  let agree := !full || same
  let s := noteFrame ⟨n, head, some agree⟩ s
  let clean := full && head && same
  let s := if clean then s.add A.TWIN_STAT F.TWIN_STAT_CLEAN_CNT 1 else notClean s
  if !agree then
    let s := diverge 4 s
    { s with twin := { s.twin with full := false, nextSeg := some 0 } }
  else if s.twinSt = 4 && clean then twinEnter 5 s
  else if s.twinSt = 6 && decide (8 ≤ s.get A.TWIN_STAT F.TWIN_STAT_CLEAN_CNT) then twinEnter 5 s
  else if clean then takeAuto s
  else s

/-- RECORD_APPLY: complete records are applied at step 1 of the scheduler's boundary table (R375). A device that is no partner drops
them. -/
def recordApplyOp (s : State) : State :=
  if !s.sched.holding then s
  else
    let rs := s.twin.recDone
    let s := { s with twin := { s.twin with recDone := [] } }
    if s.isPartner then rs.foldl recordTake s else s

/-! ### ACK (R373) -/

/-- The partner sends the ACK of engine frame `n`. -/
def ackSend (n : Nat) (s : State) : State :=
  let ws := s.puntyHeader 4 264 (s.pairNum n) 0 ++ (List.range 64).map (fun l => w32 (s.seqOf l)) ++
    [w32 (s.get A.TWIN_STAT F.TWIN_STAT_CLEAN_CNT), w32 (if s.twin.full then 0 else 1)]
  puntyAll ws { s with twin := { s.twin with ackSent := some n } }

/-- At the end of its carriage of an engine frame the partner sends the ACK. -/
def ackCarried (s : State) : State :=
  let n := s.engFrameNum
  if s.isPartner && decide (2 ≤ s.time.bnds) && s.twin.ackSent != some n && !(s.scan.carry.any fun c => c.1 == n)
      && ((List.range 8).any fun e => match (s.engine e).cur with | some f => f.num == n && f.carried && (s.engine e).set.isEmpty | none => false)
      && s.waiting.isEmpty then ackSend n s
  else s

/-- At its boundary N + 2 the partner sends the ACK of a frame it did not carry. -/
def ackBoundary (n : Nat) (s : State) : State :=
  if s.isPartner && decide (3 ≤ s.time.bnds) && s.twin.ackSent != some n then ackSend n s else s

/-- An ACK arrives at the home device (R373, R377). -/
def ackOp (pl : Nat) (ws : List Word) (s : State) : State :=
  let x := puntyTake pl 4 264 ws 0 s
  if !x.1 || !x.2.holdsAuthority then x.2
  else
    let s := x.2
    let n := s.ownNum (wordAt ws 2).toNat
    let rebase := puntyBody ws 65 == 1
    let s := { s with twin := { s.twin with
      ack := some ((List.range 64).map (puntyBody ws))
      based := if rebase then s.twin.based else (n + 2 ^ 32 - 1) % 2 ^ 32
      wantRebase := s.twin.wantRebase || (rebase && s.twin.seg.isNone) } }
    if peerState ws = 5 ∧ s.twinSt = 2 then twinEnter 3 s
    else if peerState ws ≠ 5 ∧ s.twinSt = 3 then twinEnter 2 s
    else s

/-! ### Authority (R378 to R381) -/

/-- A partner takes authority at the boundary that is due (R378). -/
def takeoverOp (s : State) : State :=
  if !s.twinOn || !s.isPartner || !s.twin.takeDue then s
  else
    let s := (s.inc A.TWIN_TAKEOVER_CNT).raise P.TWIN 2
    twinEnter 2 (s.put A.TWIN_STAT F.TWIN_STAT_FAILOVER 1)

/-- A command of TWIN.CMD is rejected. -/
def twinReject (s : State) : State := s.guard1 P.TWIN 31 0x62 (some 2)

/-- CMD TAKE. -/
def cmdTake (s : State) : State := if s.twinSt == 5 && s.side == 0 then takeSend s else twinReject s

/-- CMD YIELD. -/
def cmdYield (s : State) : State := if s.twinSt == 3 then takeSend s else twinReject s

/-- CMD REJOIN. -/
def cmdRejoin (s : State) : State :=
  if s.twinSt == 6 then { s with twin := { s.twin with full := false, nextSeg := some 0 } } else twinReject s

/-- CMD CLEAR_FAILOVER. -/
def cmdClearFailover (s : State) : State :=
  if s.get A.TWIN_STAT F.TWIN_STAT_FAILOVER = 1 ∧ !s.peerSeen then twinFault (s.put A.TWIN_STAT F.TWIN_STAT_FAILOVER 0)
  else twinReject s

/-- A write of TWIN.CMD (R384). -/
def twinCmd (v : Word) (s : State) : State :=
  if s.injArmed P.TWIN 31 then twinReject (s.injTake P.TWIN 31)
  else match fget v F.TWIN_CMD_OP with
  | 1 => cmdTake s
  | 2 => cmdYield s
  | 3 => cmdRejoin s
  | 4 => cmdClearFailover s
  | _ => twinReject s

/-- TAKE arrives: the device that is asked answers TAKE_OK (R380). -/
def takeMsgOp (pl : Nat) (ws : List Word) (s : State) : State :=
  let x := puntyTake pl 5 0 ws 0 s
  if !x.1 then x.2
  else
    let s := x.2
    let t := (wordAt ws 3).toNat
    if (s.holdsAuthority && peerState ws == 5) || s.twinSt == 5 then
      puntyAll (s.puntyHeader 6 0 t 0) { s with twin := { s.twin with take := some (t, true) } }
    else s

/-- TAKE_OK arrives. -/
def takeOkOp (pl : Nat) (ws : List Word) (s : State) : State :=
  let x := puntyTake pl 6 0 ws 0 s
  if !x.1 then x.2
  else
    let s := x.2
    match s.twin.take with
    | some (t, false) =>
      if (wordAt ws 2).toNat = t then { s with twin := { s.twin with take := some (t, true) } } else s
    | _ => s

/-- At boundary T + 1 the roles change (R380). -/
def takebackOp (s : State) : State :=
  match s.twin.take with
  | some (t, true) =>
    if s.twinOn && s.pairNum s.frameNum == (t + 1) % 2 ^ 32 then
      let s := { s with twin := { s.twin with take := none } }
      let s := (s.inc A.TWIN_TAKEBACK_CNT).raise P.TWIN 3
      if s.isPartner then twinEnter 3 s
      else
        let s := twinEnter 5 s
        notClean { s with twin := { s.twin with full := true, nextSeg := none, headSent := none, seg := none } }
    else s
  | _ => s

/-- A take-back that was not answered before boundary T + 1 changes nothing; a side A partner asks again after its next clean frame
(R380). -/
def takeExpire (s : State) : State :=
  match s.twin.take with
  | some (t, ok) =>
    let past := (s.pairNum s.frameNum + 2 ^ 32 - (t + 1)) % 2 ^ 32
    if past < 2 ^ 31 ∧ (!ok ∨ 0 < past) then
      { s with twin := { s.twin with take := none, again := s.twinSt == 5 && s.side == 0 && !ok } }
    else s
  | none => s

/-- A boundary of the twin block (R365, R378). -/
def twinBoundary (s : State) : State :=
  let s := s.wr A.TWIN_PAIR_FRAME (w32 (s.pairNum s.frameNum))
  if !s.twinOn then s
  else takeExpire { s with twin := { s.twin with usedHead := none, takeDue := s.twin.takeover } }

/-- What step 1 of the boundary still has to do at the partner: the record of the engine frame before is missed or applied, and the ACK
of a frame that it did not carry leaves (R373, R375). -/
def twinStep1 (s : State) : State :=
  ackBoundary ((s.engFrameNum + 2 ^ 32 - 1) % 2 ^ 32) (recordApplyOp (recMissOp s))

/-- A head miss whose wait ended before the boundary that comes now, and that no command has told (R372). -/
def headElapsed (s : State) : State :=
  if !s.twinOn || !s.isPartner || decide (s.time.bnds < 2) || (s.twinFrame s.engFrameNum).isSome then s else headMissNow s

/-- TWIN settings of an epoch take effect (R362, R377). -/
def twinEpoch (s : State) : State :=
  let s := twinLinks s
  if s.twinOn then (if s.twinSt = 0 then twinEnter 1 s else s)
  else if s.twinSt = 0 then s else twinEnter 0 s

end Sys2Proof.Machine
end

