-- ==== Sys2Proof/Machine/Fixture.lean ====
section
/-!
DEFINITION. A conforming fixture (R255, R257, R268 to R272, R276 to R281, R283, R284), as far as the rules bind it (log entry 17):
one fixture, which stands for every fixture. What only its maker gives (temperatures, measured currents, faults, the sensor, the SEQ
of its answers) is a free value. Its clock moves by the SYNCs it follows and by the presentation times it applies.
-/
namespace Sys2Proof.Machine

/-- Change the fixture. -/
def onFix (g : Fixture → Fixture) (s : State) : State := { s with fixture := g s.fixture }

/-- The link and index of the fixture's ID. -/
def Fixture.link (x : Fixture) : Nat := x.fixId / 4096 % 64
def Fixture.index (x : Fixture) : Nat := x.fixId % 4096

/-- LINK of a message. -/
def msgLink (ws : List Word) : Nat := fget (wordAt ws 2) ⟨13, 8⟩

/-- The presentation time of a message, ns. -/
def msgPt (ws : List Word) : Nat :=
  ((wordAt ws 3).toNat * 2 ^ 32 + (wordAt ws 4).toNat) * 10 ^ 9 + fget (wordAt ws 5) ⟨29, 0⟩

/-! ### Sequence (R257) -/

/-- What the fixture takes at the first frame of a session. -/
def Fixture.newSession (x : Fixture) (sess seq : Nat) : Fixture :=
  { x with session := some sess, high := seq, seen := [seq], pend := [], gen := none }

/-- Judge a frame by session and sequence number: whether it is accepted, and the fixture after it. -/
def Fixture.judge (x : Fixture) (ws : List Word) : Bool × Fixture :=
  let sess := fget (wordAt ws 2) ⟨31, 16⟩
  let seq := (wordAt ws 1).toNat
  if x.session ≠ some sess then (true, x.newSession sess seq)
  else
    let ahead := (seq + 2 ^ 32 - x.high) % 2 ^ 32
    let behind := (x.high + 2 ^ 32 - seq) % 2 ^ 32
    if 1 ≤ ahead ∧ ahead < 2 ^ 31 then
      (true, { x with high := seq, seen := seq :: x.seen.filter fun q => (seq + 2 ^ 32 - q) % 2 ^ 32 ≤ 63 })
    else if 1 ≤ behind ∧ behind ≤ 63 ∧ !x.seen.contains seq then (true, { x with seen := seq :: x.seen })
    else (false, x)

/-! ### Records (R258 to R263) -/

/-- A record as a fixture reads it: index, END, CGEN, FIRST, codes (STRIKE), cells. -/
structure FixRec where
  index : Nat
  isEnd : Bool
  cgen : Nat
  first : Nat
  codes : List Nat
  cells : List Cell
deriving DecidableEq, Repr

/-- Eight current codes laid out in four words. -/
def readCodes (ws : List Word) : List Nat :=
  (List.range 8).map fun i => (wordAt ws (i / 2)).toNat / (if i % 2 = 0 then 65536 else 1) % 4096

/-- The records of a LEVEL or STRIKE body; none where a record runs past the body. -/
def readRecs (strike : Bool) : Nat → List Word → Option (List FixRec)
  | 0, _ => some []
  | n + 1, ws =>
    let w0 := wordAt ws 0
    let w1 := wordAt ws 1
    let nc := fget w0 ⟨10, 0⟩
    let skip := if strike then 6 else 2
    if ws.length < skip + 2 * nc then none
    else
      let body := ws.drop skip
      let cells := (List.range nc).map fun i => BitVec.ofNat 64 ((wordAt body (2 * i)).toNat * 2 ^ 32 + (wordAt body (2 * i + 1)).toNat)
      let r : FixRec := ⟨fget w0 ⟨31, 20⟩, bitOf w0 19, fget w1 ⟨15, 12⟩, fget w1 ⟨9, 0⟩,
        if strike then readCodes (ws.drop 2) else [], cells⟩
      (readRecs strike n (ws.drop (skip + 2 * nc))).map fun l => r :: l

/-- The bytes that `count` records of a type take at least, where they are of one size. -/
def recNeed (ty count : Nat) : Nat := if ty = 3 then 4 * count else if ty = 5 then 20 * count else if ty = 4 then 8 else 0

/-! ### Gathering (R268 to R272) -/

/-- What the fixture holds for a presentation time. -/
def Fixture.pendAt (x : Fixture) (pt : Nat) : FixPend :=
  (x.pend.find? fun p => p.pt == pt).getD ⟨pt, [], [], none, none, none, false, 0⟩

/-- Whether orders 0 to K − 1 are covered. -/
def covers (cells : List (Nat × Cell)) : Option Nat → Bool
  | some k => (List.range k).all fun i => cells.any fun c => c.1 == i
  | none => false

/-- Whether the fixture's values for a presentation time are complete (R268). -/
def Fixture.complete (x : Fixture) (p : FixPend) : Bool :=
  covers p.cells p.last && match p.cgens.eraseDups with
    | [g] => x.gen == some g || (match p.cur with | some c => c.1 == g | none => false)
    | _ => false

/-- Whether the fixture applies what it holds for a presentation time (R269, R270): a STRIKE takes precedence over HOLD, and HOLD over
LEVEL; what is not complete is never applied. -/
def Fixture.ready (x : Fixture) (p : FixPend) : Bool :=
  match p.strike with
  | some k => covers k.2.1 k.2.2
  | none => !p.hold && x.complete p

/-- Put back what is held for a presentation time; with the store full, values that become complete are discarded (R272). -/
def Fixture.putPend (x : Fixture) (p : FixPend) : Fixture :=
  let was := x.ready (x.pendAt p.pt)
  let others := x.pend.filter fun q => q.pt != p.pt
  if !was && x.ready p && decide (x.pendMax ≤ (others.filter x.ready).length) then { x with pend := others, overflow := true }
  else { x with pend := others ++ [p] }

/-- Take one record of a LEVEL or STRIKE frame. -/
def Fixture.takeRec (x : Fixture) (strike : Bool) (pt : Nat) (frame : Word) (r : FixRec) : Fixture :=
  let p := x.pendAt pt
  let cells := r.cells.zipIdx.map fun c => (r.first + c.2, c.1)
  let last := if r.isEnd then some (r.first + r.cells.length) else none
  if strike then
    let old := p.strike.getD (r.codes, [], none)
    x.putPend { p with strike := some (r.codes, old.2.1 ++ cells, last.or old.2.2), frame := frame }
  else x.putPend { p with cells := p.cells ++ cells, cgens := p.cgens ++ [r.cgen], last := last.or p.last, frame := frame }

/-- Take the body of an accepted downstream frame. What comes for a presentation time that the fixture's clock has passed completes too
late to be applied, and is dropped (R269). -/
def Fixture.takeBody (x : Fixture) (ws : List Word) (recs : List FixRec) : Fixture :=
  let ty := tuiperType ws
  let pt := msgPt ws
  let count := fget (wordAt ws 7) ⟨31, 16⟩
  if pt < x.clock then x
  else if ty = 1 ∨ ty = 2 then
    (recs.filter fun r => r.index == x.index).foldl (fun y r => y.takeRec (ty == 2) pt (wordAt ws 6) r) x
  else if ty = 3 then
    let hit := (List.range count).any fun i =>
      let w := wordAt ws (8 + i)
      let a := fget w ⟨31, 20⟩
      decide (a ≤ x.index) && decide (x.index < a + fget w ⟨12, 0⟩)
    if hit then x.putPend { x.pendAt pt with hold := true } else x
  else if ty = 5 then
    (List.range count).foldl (fun y i =>
      let b := ws.drop (8 + 5 * i)
      if fget (wordAt b 0) ⟨31, 20⟩ = x.index then
        y.putPend { y.pendAt pt with cur := some (fget (wordAt b 0) ⟨15, 12⟩, readCodes (b.drop 1)) }
      else y) x
  else x

/-- Note the source of an accepted frame (R284). -/
def Fixture.heardFrom (x : Fixture) (ws : List Word) (src : Nat) : Fixture :=
  if bitOf (wordAt ws 0) 17 then { x with partner := some (src, x.clock) } else { x with home := some src }

/-- A downstream frame from the address `src` is judged and kept or discarded (R257). -/
def fixtureFrameOp (ws : List Word) (src : Nat) (s : State) : State :=
  let x := s.fixture
  let ty := tuiperType ws
  let count := fget (wordAt ws 7) ⟨31, 16⟩
  let body := (ws.take (msgLen ws / 4)).drop 8
  let recs := if ty = 1 ∨ ty = 2 then readRecs (ty == 2) count body else some []
  if !msgOk ws (recNeed ty count) ∨ ty < 1 ∨ 5 < ty ∨ !x.assigned ∨ msgLink ws ≠ x.link then s
  else match recs with
  | none => s
  | some rs =>
    let j := x.judge ws
    if !j.1 then s
    else
      let y := j.2.heardFrom ws src
      let y := if ty = 5 then y else { y with lastRx := x.clock }
      { s with fixture := y.takeBody ws rs }

/-- Cells put in place by order. -/
def putCells (old : List Cell) (new : List (Nat × Cell)) (k : Nat) : List Cell :=
  old.zipIdx.map fun c => if c.2 < k then ((new.find? fun n => n.1 == c.2).map (·.2)).getD c.1 else c.1

/-- What a fixture shows once it applies what it holds for a presentation time. -/
def Fixture.applied (x : Fixture) (p : FixPend) : Fixture :=
  match p.strike with
  | some k => { x with cells := putCells x.cells k.2.1 (k.2.2.getD 0), codes := k.1, lastPt := some p.pt, frame := p.frame }
  | none =>
    let y := { x with cells := putCells x.cells p.cells (p.last.getD 0), lastPt := some p.pt, frame := p.frame }
    match p.cur with
    | some c => { y with codes := c.2, gen := some c.1 }
    | none => y

/-- At the instant the fixture's clock reads `pt` (R269, R270): what is held for `pt` is applied where it is complete and later than
the last presentation time applied, and let go. -/
def fixtureApplyOp (pt : Nat) (s : State) : State :=
  let x := s.fixture
  let late : Bool := match x.lastPt with | some l => decide (pt ≤ l) | none => false
  let p := x.pendAt pt
  let y := { x with clock := max x.clock pt, pend := x.pend.filter fun q => decide (pt < q.pt) }
  { s with fixture := if !late && x.ready p then y.applied p else y }

/-- Whether a cell holds duties: LIGHT or COMPANION; the others hold RAW parameters. -/
def dutyFmt (fmt : Nat) : Bool := fmt == 0 || fmt == 3

/-- No LEVEL, STRIKE, HOLD or PRESENT frame has been accepted for LOSS_DARK_MS (R271): every duty becomes 0. The fixture's clock goes on
to that instant. -/
def fixtureLossDarkOp (s : State) : State :=
  let x := s.fixture
  if x.lossDark = 0 then s
  else
    { s with fixture := { x with
      clock := max x.clock (x.lastRx + x.lossDark * 1000000)
      cells := x.cells.zipIdx.map fun c => if dutyFmt (x.fmts.getD c.2 0) then 0 else c.1 } }

/-! ### Time (R274 to R276) -/

/-- The preferred of the masters heard: the lowest PRIO, then the lowest address. -/
def bestMaster (l : List (Nat × Nat × Nat)) : Option Nat :=
  (l.foldl (fun (m : Option (Nat × Nat)) h => match m with
    | none => some (h.2.1, h.1)
    | some b => if decide (h.2.1 < b.1) || (h.2.1 == b.1 && decide (h.1 < b.2)) then some (h.2.1, h.1) else m) none).map (·.2)

/-- A correction of the fixture's clock by t2 − t1 − MPD; t2 is kept on the corrected clock, so that nothing is corrected twice. -/
def Fixture.discipline (x : Fixture) : Fixture :=
  match x.sync, x.mpd with
  | some (q, t1, t2), some m =>
    let off : Int := (t2 : Int) - (t1 : Nat) - (m : Nat)
    { x with clock := ((x.clock : Int) - off).toNat, sync := some (q, t1, ((t2 : Int) - off).toNat) }
  | _, _ => x

/-- A SYNC of a sender reaches the fixture. -/
def fixtureSyncOp (ws : List Word) (src : Nat) (s : State) : State :=
  if !msgOk ws 36 ∨ tuiperType ws ≠ 9 ∨ bodyF ws 0 31 28 ≠ 1 then s
  else
    let x := s.fixture
    let others := (x.heard.filter fun h => h.1 != src).map fun h => (h.1, h.2.1, h.2.2 + 1)
    let heard := (src, bodyF ws 0 23 16, 0) :: others.filter fun h => decide (h.2.2 ≤ 3)
    let x := { x with heard := heard }
    if bestMaster heard = some src then
      let t1 := (bodyAt ws 1 * 2 ^ 32 + bodyAt ws 2) * 10 ^ 9 + bodyAt ws 3
      { s with fixture := { x with sync := some (bodyF ws 0 15 0, t1, x.clock) }.discipline }
    else { s with fixture := x }

/-- The header of a message of the fixture. -/
def Fixture.header (x : Fixture) (type link seq len : Nat) : List Word :=
  [w32 (2 ^ 28 + type * 2 ^ 24 + 2 ^ 16 + len), w32 seq, w32 (x.session.getD 0 * 65536 + link * 256), 0, 0, 0, 0, 0x10000]

/-- The fixture sends a message to an address. -/
def fixSend (dst : Nat) (ws : List Word) (s : State) : State := onFix (fun x => { x with out := x.out ++ [(dst, ws)] }) s

/-- The DELAY_REQs that the fixture may still send in the second its clock shows (R276). -/
def Fixture.dreqLeft (x : Fixture) : Nat := if x.dreqs.1 = secOf x.clock then 16 - x.dreqs.2 else 16

/-- A DELAY_REQ after a SYNC, to the master that is followed, at most 16 in a second (R276). -/
def fixtureDelayReqOp (s : State) : State :=
  let x := s.fixture
  match x.sync, bestMaster x.heard with
  | some (q, _, t2), some m =>
    if !x.assigned ∨ x.dreqLeft = 0 then s
    else
      fixSend m (x.header 9 x.link 0 68 ++ [w32 (2 * 2 ^ 28 + q)] ++ timeWords t2 ++ timeWords x.clock ++ [w32 x.fixId, 0])
        (onFix (fun x => { x with dreqs := (secOf x.clock, 17 - x.dreqLeft) }) s)
  | _, _ => s

/-- A DELAY_RESP naming the fixture's ID (R276). -/
def fixtureDelayRespOp (ws : List Word) (s : State) : State :=
  let x := s.fixture
  if !msgOk ws 36 ∨ tuiperType ws ≠ 9 ∨ bodyF ws 0 31 28 ≠ 3 ∨ !x.assigned ∨ bodyF ws 7 17 0 ≠ x.fixId then s
  else match x.sync with
  | some (q, _, _) =>
    if q = bodyF ws 0 15 0 then { s with fixture := { x with mpd := some (bodyAt ws 8) }.discipline } else s
  | none => s

/-! ### Telemetry (R283, R284) -/

/-- `n` free words. -/
def freshWords : Nat → State → List Nat × State
  | 0, s => ([], s)
  | n + 1, s =>
    let a := s.fresh (2 ^ 32)
    let r := freshWords n a.2
    (a.1 :: r.1, r.2)

/-- Where a report goes (R284): the source of the last frame accepted with PARTNER = 0, and that of the last with PARTNER = 1 where it
came within the last second. -/
def Fixture.reportTo (x : Fixture) : List Nat :=
  x.home.toList ++ (match x.partner with
    | some p => if x.clock ≤ p.2 + 10 ^ 9 then [p.1] else []
    | none => [])

/-- The body of a report (R283); HEALTH, fault code, temperatures, emitter words and the sensor's values are the free words `r`. -/
def Fixture.reportBody (x : Fixture) (r : List Nat) : List Word :=
  let sens := x.sensor && x.sensorEn
  let w (i : Nat) : Nat := r.getD i 0
  [w32 (x.index * 2 ^ 20 + x.nEmit * 65536 + sens.toNat * 32768 + x.sensXyz.toNat * 16384 + x.overflow.toNat * 128 + w 0 % 5),
   x.fw, w32 (w 1)] ++ (List.range x.nEmit).map (fun e => w32 (w (2 + e)) &&& 0xCFFFFFFF) ++
    (if sens then x.frame :: (List.range 3).map (fun i => w32 (w (2 + x.nEmit + i))) else [])

/-- A TELEMETRY frame is sent (R283, R284), where a frame has told the fixture an address for it. Reports lie at least a millisecond
apart: the fixture's clock goes on to that instant. -/
def fixtureTelemetryOp (s : State) : State :=
  if !s.fixture.assigned ∨ s.fixture.reportTo = [] then s
  else
    let s := onFix (fun x => { x with clock := max x.clock ((x.telAt.map fun t => t + 1000000).getD 0) }) s
    let x := s.fixture
    let r := freshWords (5 + x.nEmit) s
    let body := x.reportBody r.1
    let h := x.header 6 x.link x.telSeq (32 + 4 * body.length)
    let h := (((h.set 3 (w32 (secOf x.clock / 2 ^ 32))).set 4 (w32 (secOf x.clock))).set 5 (w32 (nsOf x.clock))).set 6 x.frame
    let s := x.reportTo.foldl (fun t d => fixSend d (h ++ body) t) r.2
    onFix (fun x => { x with telSeq := (x.telSeq + 1) % 2 ^ 32, overflow := false, telAt := some x.clock }) s

/-! ### ENUM and SET (R277 to R281) -/

/-- A 64-bit value in two body words. -/
def bodyUid (ws : List Word) (i : Nat) : Nat := bodyAt ws i * 2 ^ 32 + bodyAt ws (i + 1)

/-- An ENUM or SET request is judged: taken where it is valid and R257 accepts it; a frame of another link than the fixture's own is
not judged by the fixture's own history. `src` is the address it came from. -/
def fixRequest (type op need : Nat) (ws : List Word) (src : Nat) (s : State) : Bool × State :=
  let x := s.fixture
  if !msgOk ws need ∨ tuiperType ws ≠ type ∨ bodyF ws 0 31 28 ≠ op then (false, s)
  else if x.assigned ∧ msgLink ws ≠ x.link then (true, s)
  else
    let j := x.judge ws
    (j.1, if j.1 then { s with fixture := j.2.heardFrom ws src } else s)

/-- DISCOVER (R279): each one that the fixture acts on draws a REPLY of its own. -/
def discoverOp (ws : List Word) (src : Nat) (s : State) : State :=
  let r := fixRequest 7 1 20 ws src s
  let x := r.2.fixture
  if r.1 && !x.muted && decide (bodyUid ws 1 ≤ x.uid.toNat) && decide (x.uid.toNat ≤ bodyUid ws 3) then
    onFix (fun x => { x with replies := x.replies ++ [(msgLink ws, src)] }) r.2
  else r.2

/-- A REPLY due is sent, with the LINK of the request, to its source (R278, R279). The delays are drawn at random: which of several
REPLYs goes first is free. -/
def fixtureReplyOp (s : State) : State :=
  let p := s.fresh s.fixture.replies.length
  let x := s.fixture
  match x.replies[p.1]? with
  | none => s
  | some (l, src) =>
    let q := p.2.fresh (2 ^ 32)
    let body := [w32 (4 * 2 ^ 28), w32 (x.uid.toNat / 2 ^ 32), w32 x.uid.toNat, w32 (x.model * 65536), x.fw,
      w32 (x.nEmit * 2 ^ 28 + x.sensor.toNat * 2 ^ 27 + x.sensXyz.toNat * 2 ^ 26 + x.preempt.toNat * 2 ^ 25 +
        x.assigned.toNat * 2 ^ 24 + (if x.assigned then x.fixId else 0)),
      w32 (x.curStep * 65536 + x.ncells), w32 (x.pendMax * 2 ^ 24 + x.rxMax)]
    fixSend src (x.header 7 l q.1 64 ++ body) (onFix (fun x => { x with replies := x.replies.eraseIdx p.1 }) q.2)

/-- MUTE (R279). -/
def muteOp (ws : List Word) (src : Nat) (s : State) : State :=
  let r := fixRequest 7 2 20 ws src s
  if r.1 && bodyUid ws 1 == r.2.fixture.uid.toNat then onFix (fun x => { x with muted := true }) r.2 else r.2

/-- UNMUTE (R279). -/
def unmuteOp (ws : List Word) (src : Nat) (s : State) : State :=
  let r := fixRequest 7 3 20 ws src s
  if r.1 && (bodyUid ws 1 == r.2.fixture.uid.toNat || bodyUid ws 1 == 2 ^ 64 - 1) then onFix (fun x => { x with muted := false }) r.2
  else r.2

/-- A fixture powers up or restarts (R257, R279, R281). -/
def Fixture.powerUp (x : Fixture) : Fixture :=
  { x with muted := false, session := none, high := 0, seen := [], gen := none, pend := [], lastPt := none, identify := 0,
           cells := x.cells.map fun _ => 0, codes := List.replicate 8 0, frame := 0, overflow := false, heard := [], sync := none,
           mpd := none, replies := [], telSeq := 0, home := none, partner := none, lastRx := x.clock, dreqs := (0, 0), telAt := none }

/-- Write a parameter: the fixture after it, or the reason of a NACK (R281). -/
def Fixture.setParam (x : Fixture) (param v link : Nat) : Fixture ⊕ Nat :=
  match param with
  | 1 =>
    if v / 2 ^ 31 % 2 = 1 then .inl (if x.assigned then { x with assigned := false, fixId := 0, pend := [] } else x)
    else
      let id := v % 2 ^ 18
      if id / 4096 ≠ link then .inr 2
      else if x.assigned ∧ x.fixId = id then .inl x else .inl { x with assigned := true, fixId := id, pend := [] }
  | 2 => if 10 ≤ v ∧ v ≤ 10000 then .inl { x with telPeriod := v } else .inr 2
  | 3 => if v ≤ 600000 then .inl { x with lossDark := v } else .inr 2
  | 4 => if v ≤ 1 then .inl { x with identify := v } else .inr 2
  | 5 => if v ≤ 1 then .inl { x with sensorEn := v == 1 } else .inr 2
  | 6 => if v = 0x5A3C then .inl x.powerUp else .inr 2
  | _ => .inr 1

/-- The value of a parameter in force; none where it is unknown. RESTART has none of its own: it reads as a free value. -/
def Fixture.getParam (x : Fixture) (param free : Nat) : Option Nat :=
  match param with
  | 1 => some (if x.assigned then x.fixId else 2 ^ 31)
  | 2 => some x.telPeriod
  | 3 => some x.lossDark
  | 4 => some x.identify
  | 5 => some x.sensorEn.toNat
  | 6 => some free
  | _ => none

/-- ACK or NACK of a SET request, to its source. -/
def setAnswer (ws : List Word) (src op v : Nat) (s : State) : State :=
  let q := s.fresh (2 ^ 32)
  let x := q.2.fixture
  fixSend src (x.header 8 (msgLink ws) q.1 48 ++
    [w32 (op * 2 ^ 28 + bodyF ws 0 23 0), w32 (x.uid.toNat / 2 ^ 32), w32 x.uid.toNat, w32 v]) q.2

/-- SET WRITE (R280, R281). -/
def setWriteOp (ws : List Word) (src : Nat) (s : State) : State :=
  let r := fixRequest 8 1 16 ws src s
  let s := r.2
  let all := bodyUid ws 1 == 2 ^ 64 - 1
  let param := bodyF ws 0 15 0
  if !r.1 || !(all || bodyUid ws 1 == s.fixture.uid.toNat) then s
  else match s.fixture.setParam param (bodyAt ws 3) (msgLink ws) with
  | .inr reason => if all then s else setAnswer ws src 4 reason s
  | .inl x =>
    if all then { s with fixture := x }
    else if param = 6 then
      let s := setAnswer ws src 3 (bodyAt ws 3) s
      { s with fixture := { x with out := s.fixture.out } }
    else
      let s := { s with fixture := x }
      setAnswer ws src 3 ((x.getParam param 0).getD 0) s

/-- SET READ (R280). -/
def setReadOp (ws : List Word) (src : Nat) (s : State) : State :=
  let r := fixRequest 8 2 16 ws src s
  if r.1 && bodyUid ws 1 == r.2.fixture.uid.toNat then
    let q := r.2.fresh (2 ^ 32)
    match q.2.fixture.getParam (bodyF ws 0 15 0) q.1 with
    | some v => setAnswer ws src 3 v q.2
    | none => setAnswer ws src 4 1 q.2
  else r.2

end Sys2Proof.Machine
end

