-- ==== Sys2Proof/Machine/Dmx.lean ====
section
/-!
DEFINITION. DMX512 and RDM (R325 to R328, R332), and the injections of stream timeouts at a boundary (R455).
The times at which packets start and end are the sender's (log entry 4).
-/
namespace Sys2Proof.Machine

/-- A field of CFG of port `n` in the active set. -/
def State.dmxCfg (s : State) (n : Nat) (f : Fld) : Nat := s.actF (A.DMX_CFG n) f

/-- Whether port `n` is enabled in direction `dir` (0 OUTPUT, 1 INPUT), the page in service. -/
def State.dmxOn (s : State) (n dir : Nat) : Bool :=
  s.dmxCfg n F.DMX_CFG_EN == 1 && s.dmxCfg n F.DMX_CFG_DIR == dir && !s.offline P.DMX

/-! ### OUTPUT (R325, R326) -/

/-- Keep the slots formed for frame `n` with its presentation time; frames that a later one has replaced are dropped. -/
def dmxKeep (now frame pt : Nat) (vals : List Nat) (l : List (Nat × Nat × List Nat)) : List (Nat × Nat × List Nat) :=
  let l := (frame, pt, vals) :: l.filter fun x => x.1 != frame
  l.filter (fun x => decide (now < x.2.1)) ++ ((l.filter fun x => decide (x.2.1 ≤ now)).take 1)

/-- Form the slots of frame `frame` for port `n`, its presentation time being known. -/
def dmxForm (n frame : Nat) (vals : List Nat) (s : State) : State :=
  match s.scan.pts.find? fun x => x.1 == frame with
  | some x => s.setDmx n { s.dmxPort n with shown := dmxKeep s.nowNs frame x.2 vals (s.dmxPort n).shown }
  | none => s

/-- UNIVERSE ports take the slot values of frame `frame` (R326). -/
def dmxUniverse (frame : Nat) (s : State) : State :=
  (List.range 16).foldl (fun (t : State) n =>
    if t.dmxOn n 0 && t.dmxCfg n F.DMX_CFG_SRC == 0 then
      let m := t.actF (A.DMX_SRC_IDX n) ⟨15, 0⟩
      dmxForm n frame ((List.range 512).map fun k => t.slotValue m (k + 1)) t
    else t) s

/-- The slots a PARISON port reads from the parison of frame `frame`; cells beyond the raster give 0 and are recorded (R326). -/
def dmxParison (n frame : Nat) (s : State) : State :=
  let slots := s.dmxCfg n F.DMX_CFG_SLOTS
  let spc := s.dmxCfg n F.DMX_CFG_SPC
  let wide := s.dmxCfg n F.DMX_CFG_WIDE
  let per := spc * (1 + wide)
  let cells := (slots + per - 1) / per
  let first := s.actF (A.DMX_SRC_IDX n) F.DMX_SRC_IDX_IDX
  let vals := (List.range cells).flatMap fun i =>
    let v := if first + i < 16777216 then s.mem64 (parisonBase frame + (first + i) * 8) else 0
    (List.range spc).flatMap fun k =>
      let c := comp16 v k
      if wide = 1 then [c / 256, c % 256] else [c / 256]
  let s := if 16777216 < first + cells then s.guard1 P.DMX 29 0xD3 (some 3) else s
  dmxForm n frame (vals.take slots) s

/-- PARISON ports read the parison of the frame before the one in progress (R80, R326). -/
def dmxParisons (frame : Nat) (s : State) : State :=
  (List.range 16).foldl (fun (t : State) n =>
    if t.dmxOn n 0 && t.dmxCfg n F.DMX_CFG_SRC == 1 then dmxParison n frame t else t) s

/-- The frame a packet that begins now carries: the one with the latest presentation time not after now (R326). -/
def DmxPort.latest (x : DmxPort) (now : Nat) : Option (Nat × Nat × List Nat) :=
  x.shown.foldl (fun (m : Option (Nat × Nat × List Nat)) y =>
    if now < y.2.1 then m
    else match m with
      | none => some y
      | some z => if z.2.1 < y.2.1 then some y else m) none

/-- Whether an RDM transaction has the line of port `n`. -/
def State.rdmOn (s : State) (n : Nat) : Bool := match s.net.rdm with | some x => x.port == n && x.phase != 0 | none => false

/-- DMX_PACKET_START: `slots` then holds the slots on the line (R325, R326). -/
def dmxStartOp (n : Nat) (s : State) : State :=
  let x := s.dmxPort n
  if !s.dmxOn n 0 || x.sending || s.rdmOn n then s
  else
    match x.latest s.nowNs with
    | none => s
    | some y =>
      let k := s.dmxCfg n F.DMX_CFG_SLOTS
      let s := s.setDmx n { x with sending := true, slots := (List.range k).map fun i => y.2.2.getD i 0 }
      let s := (s.inc (A.DMX_PKTS n)).put (A.DMX_STAT n) F.DMX_STAT_LAST_SLOTS k
      s.wr (A.DMX_LAST_FRAME n) (w32 y.1)

/-- DMX_PACKET_END: a queued RDM request is sent after the packet (R328). -/
def dmxEndOp (n : Nat) (s : State) : State :=
  if !(s.dmxPort n).sending then s
  else
    let s := s.setDmx n { s.dmxPort n with sending := false }
    match s.net.rdm with
    | some x => if x.port == n && x.phase == 0 then { s with net := { s.net with rdm := some { x with phase := 1 } } } else s
    | none => s

/-! ### INPUT (R327) -/

/-- Bring the timed-out status of port `n` up to date. -/
def State.dmxShow (s : State) (n : Nat) : State :=
  let b := (s.dmxPort n).timedOut.toNat
  (s.put A.DMX_TIMED_OUT ⟨n, n⟩ b).put (A.DMX_STAT n) F.DMX_STAT_TIMED_OUT b

/-- The record of a port's timeout, where one is due (R23, R327). -/
def dmxRecord (n : Nat) (s : State) : State :=
  if s.time.due.contains (.dmx n) then
    (((s.dueTaken (.dmx n)).dmxShow n).guard1 P.DMX 27 (openCode (A.DMX_TIMEOUT n)) none).raise P.DMX n
  else s

/-- Port `n` times out at a boundary (R23, R327). -/
def dmxTimeout (n : Nat) (s : State) : State :=
  if (s.dmxPort n).timedOut then s else (s.setDmx n { s.dmxPort n with timedOut := true }).streamDue (.dmx n)

/-- Port `n` is timed out no longer. -/
def dmxResume (n : Nat) (s : State) : State := (s.setDmx n { s.dmxPort n with timedOut := false }).dmxShow n

/-- The time since the last unit of port `n` has reached TIMEOUT_MS (R23). -/
def State.dmxElapsed (s : State) (n : Nat) : Bool :=
  decide (s.actF (A.DMX_TIMEOUT n) F.DMX_TIMEOUT_TIMEOUT_MS * 1000000 ≤ s.nowNs - (s.dmxPort n).lastUnit)

/-- The lowest-numbered INPUT port. -/
def State.dmxFirstIn (s : State) : Option Nat := (List.range 16).find? fun n => s.dmxOn n 1

/-- DMX_INPUT_PACKET_END (R327). -/
def dmxInputOp (n : Nat) (p : DmxPacket) (s : State) : State :=
  if !s.dmxOn n 1 then s
  else
    let inj := s.dmxFirstIn == some n && s.injArmed P.DMX 18
    let s := if inj then s.injTake P.DMX 18 else s
    if p.framingError || p.shortBreak || inj then (s.inc (A.DMX_ERR n)).raise P.DMX 18
    else if p.startCode ≠ 0 then s.inc (A.DMX_ALT_SC n)
    else
      let slots := (p.slots.take 512).map (·.toNat)
      let s := s.inc (A.DMX_PKTS n)
      let s := (s.put (A.DMX_STAT n) F.DMX_STAT_VALID 1).put (A.DMX_STAT n) F.DMX_STAT_LAST_SLOTS slots.length
      let s := dmxRecord n s
      let was := (s.dmxPort n).timedOut
      let s := s.setDmx n { s.dmxPort n with slots := slots, lastUnit := s.nowNs, newUnit := true, polK := none }
      if was then ((dmxResume n s).put (A.DMX_STAT n) F.DMX_STAT_FADING 0).raise P.DMX 16 else s

/-- The 512 slot values port `n` contributes to the universe map, under its loss policy (R23, R327). -/
def State.dmxValues (s : State) (n : Nat) : List Nat :=
  let x := s.dmxPort n
  (List.range 512).map fun k =>
    let v := if s.dmxOn n 1 then x.slots.getD k 0 else 0
    if x.timedOut then
      policySlot (s.actF (A.DMX_SAFE n) F.DMX_SAFE_POLICY) v (s.actF (A.DMX_SAFE n) F.DMX_SAFE_SLOT) (x.polK.getD 1)
        (s.actF (A.DMX_TIMEOUT n) F.DMX_TIMEOUT_FADE_FRAMES)
    else v

/-- The INPUT ports at boundary `frame`: timeouts reached or injected, the frame counts of the policies, and the frame that first uses a new
unit. -/
def dmxBoundary (frame : Nat) (s : State) : State :=
  (List.range 16).foldl (fun (t : State) n =>
    if !t.dmxOn n 1 then t
    else
      let t := if t.injArmed P.DMX n then dmxTimeout n (t.injTake P.DMX n) else if t.dmxElapsed n then dmxTimeout n t else t
      let x := t.dmxPort n
      let k : Option Nat := if x.timedOut then some (match x.polK with | some k => k + 1 | none => 1) else none
      let fading := x.timedOut && t.actF (A.DMX_SAFE n) F.DMX_SAFE_POLICY == 1 &&
        decide ((k.getD 0) < t.actF (A.DMX_TIMEOUT n) F.DMX_TIMEOUT_FADE_FRAMES)
      let t := t.put (A.DMX_STAT n) F.DMX_STAT_FADING fading.toNat
      let t := if x.newUnit then t.wr (A.DMX_LAST_FRAME n) (w32 frame) else t
      t.setDmx n { t.dmxPort n with polK := k, newUnit := false }) s

/-- Injected timeouts of flows count at a boundary (R455); no source of an sACN flow then counts as live. -/
def flowInject (s : State) : State :=
  s.flowsLive.foldl (fun (t : State) f =>
    if t.injArmed (P.FLOW f) (f % 16) then
      let t := t.injTake (P.FLOW f) (f % 16)
      flowTimeout f (t.setFlow f { t.flow f with sources := (t.flow f).sources.map fun z => { z with live := false } })
    else t) s

/-- A port that is no longer an enabled OUTPUT forms no frames, and one that is no longer an enabled INPUT has no unit (R332). -/
def dmxEpoch (s : State) : State :=
  (List.range 16).foldl (fun (t : State) n =>
    let x := t.dmxPort n
    let x := if t.dmxOn n 0 then x else { x with shown := [] }
    let t := t.setDmx n x
    if t.dmxOn n 1 then t
    else
      let t := if x.timedOut then dmxResume n (t.dueTaken (.dmx n)) else t
      let t := (t.put (A.DMX_STAT n) F.DMX_STAT_VALID 0).put (A.DMX_STAT n) F.DMX_STAT_FADING 0
      if t.dmxOn n 0 then t else t.setDmx n { t.dmxPort n with slots := [], polK := none, newUnit := false }) s

/-! ### RDM (R328) -/

/-- Report the end of a transaction. -/
def rdmResult (res : Nat) (busy : Bool) (s : State) : State :=
  (s.wr A.DMX_RDM_STAT (w32 (busy.toNat * 2 ^ 31 + res * 2 ^ 28))).raise P.DMX 17

/-- The transaction ends with a result. -/
def rdmEnd (res : Nat) (s : State) : State := rdmResult res false { s with net := { s.net with rdm := none } }

/-- Byte `k` of the request in RDM_DATA. -/
def State.rdmByte (s : State) (k : Nat) : Byte :=
  BitVec.ofNat 8 ((s.rd (A.DMX_RDM_DATA (k / 4))).toNat / 2 ^ (24 - 8 * (k % 4)))

/-- A request with its E1.20 checksum: the sum of its bytes, most significant byte first. PRESUMED from ANSI E1.20. -/
def rdmWithSum (d : List Byte) : List Byte :=
  let c := d.foldl (fun n b => n + b.toNat) 0
  d ++ [BitVec.ofNat 8 (c / 256), BitVec.ofNat 8 c]

/-- RDM_CMD SEND, or its refusal (R328, R332). While the port's Jack core is being reloaded the transaction ends with NO_RESPONSE (R422). -/
def rdmCmd (v : Word) (s : State) : State :=
  let inj := s.injArmed P.DMX 31
  let s := if inj then s.injTake P.DMX 31 else s
  let n := fget v F.DMX_RDM_CMD_PORT
  let k := fget v F.DMX_RDM_CMD_BYTES
  let ok := fget v F.DMX_RDM_CMD_OP == 1 && decide (24 ≤ k) && decide (k ≤ 255) && (s.rdmByte 2).toNat == k && s.dmxOn n 0 &&
    s.dmxCfg n F.DMX_CFG_RDM_EN == 1 && s.net.rdm.isNone
  if !ok || inj then rdmResult 4 s.net.rdm.isSome (s.guard1 P.DMX 31 0xD4 (some 4))
  else
    let phase := if (s.dmxPort n).sending then 0 else 1
    let s := { s with net := { s.net with rdm := some ⟨n, rdmWithSum ((List.range k).map s.rdmByte), phase⟩ } }
    if bitOf (s.rd A.GAFFER_JACK_STAT) (8 + n / 2) then rdmEnd 2 s else s.wr A.DMX_RDM_STAT (w32 (2 ^ 31))

/-- RDM_REQUEST_END: the line is released; a request to all devices waits for no response (R328). -/
def rdmRequestEndOp (s : State) : State :=
  match s.net.rdm with
  | some x =>
    if x.phase != 1 then s
    else if (x.data.drop 3).take 6 == List.replicate 6 0xFF then rdmEnd 3 s
    else { s with net := { s.net with rdm := some { x with phase := 2 } } }
  | none => s

/-- Whether the checksum of a response is right: the E1.20 sum, or the encoded one of a discovery response. PRESUMED from ANSI
E1.20. -/
def rdmSumOk (d : List Byte) : Bool :=
  if d.head? = some 0xFE ∨ d.head? = some 0xAA then
    let b := (d.dropWhile fun x => x == 0xFE).drop 1
    let at' (i : Nat) : Byte := b.getD i 0
    let c := (b.take 12).foldl (fun n x => n + x.toNat) 0
    b.length == 16 && c % 65536 == (at' 12 &&& at' 13).toNat * 256 + (at' 14 &&& at' 15).toNat
  else
    let n := d.length
    decide (2 ≤ n) && ((d.take (n - 2)).foldl (fun n b => n + b.toNat) 0) % 65536 ==
      (d.getD (n - 2) 0).toNat * 256 + (d.getD (n - 1) 0).toNat

/-- RDM_RESPONSE_END: the response, whose first start bit came `took` ns ago, is placed whole in RDM_Q as KIND 3 (R319, R328). -/
def rdmResponseEndOp (d : List Byte) (collision : Bool) (took : Nat) (s : State) : State :=
  match s.net.rdm with
  | some x =>
    if x.phase != 2 then s
    else
      let flags := (!rdmSumOk d).toNat * 2 + collision.toNat
      rdmEnd 1 (queuePacket (s.dmxCfg x.port F.DMX_CFG_RDM_Q) (80 + x.port) 3 flags 0xFF d (s.nowNs - took) s)
  | none => s

/-- RDM_RESPONSE_TIMEOUT (R328). -/
def rdmTimeoutOp (s : State) : State :=
  match s.net.rdm with
  | some x => if x.phase == 2 then rdmEnd 2 s else s
  | none => s

/-- The DMX page is reset or withdrawn: packets and transactions in progress end (R427, R479). -/
def dmxAbort (s : State) : State := { s with net := { s.net with dmx := [], rdm := none } }

end Sys2Proof.Machine
end

