-- ==== Sys2Proof/Machine/Block.lean ====
section
/-!
DEFINITION. What a reset of one block does (R479): its status registers and counters, its working state, and the work it has in
progress. Shell registers, settings, buffers, leases, memory and flash are kept.
-/
namespace Sys2Proof.Machine

/-- A word with its RO, RC and W1C fields at reset (R479). -/
def statusReset (r : RegDef) (w : Word) : Word :=
  r.fields.foldl (fun (v : Word) f =>
    if f.acc == .ro || f.acc == .rc || f.acc == .w1c then fput v ⟨f.hi, f.lo⟩ f.reset else v) w

/-- Status that a block reset leaves: fused values, live levels of pins and PLLs, the cause of the last reset, and the whole keeper
domain, which survives every reset (R7, R429, R433, R457). -/
def keptStatus (a : Nat) : Bool :=
  [A.SYS_RESET_CAUSE, A.LIFE_STATE, A.LIFE_KEYS, A.LIFE_MIN_SEC_VER, A.CLK_PLL_STAT, A.HOST_LINK_STAT, A.CAL_REF_STAT].contains a ||
    a / 0x1000 == P.KEEP

/-- Whether an address is a register of page `p` above offset 0x07F whose status a reset of the block takes back. -/
def blockReg (p a : Nat) : Bool := a / 0x1000 == p && decide (0x80 ≤ a % 0x1000) && !keptStatus a

/-- Reset the status registers and counters of page `p` above offset 0x07F, those kept per requester among them. COMMIT_STAT.WAITING
goes on reporting the epoch that waits. -/
def blockStatus (p : Nat) (s : State) : State :=
  let s := ((s.rf.live.map (·.1)).filter (blockReg p)).foldl (fun t a => match findReg a with
    | some r => t.wr a (statusReset r (t.rd a))
    | none => t) s
  let s := (s.rf.bank.filter fun x => x.1 % 4 < 2 && blockReg p (x.1 / 4)).foldl (fun t x => match findReg (x.1 / 4) with
    | some r => { t with rf := { t.rf with bank := amSet (fun _ => 0) t.rf.bank x.1 (statusReset r x.2) } }
    | none => t) s
  if p = P.SYS then s.put A.SYS_COMMIT_STAT ⟨31, 31⟩ (s.commit.sealing || s.commit.waitFrame.isSome).toNat else s

/-- The job of a bench ends as after an uncorrectable local-store error, and its cache is empty (R132, R479). -/
def benchReset (b : Nat) (s : State) : State :=
  let r := stopJob b false false s
  let s := match r.1 with
    | some (j, _) => faultSlot b j.slot (dRepeat j.desc) j.frame r.2
    | none => r.2
  schedKick (s.setBench b ⟨none, []⟩)

/-- The scheduler's flags, lists and slots are those of reset; jobs in progress end without effect on them. -/
def schedReset (s : State) : State :=
  let s := (List.range 16).foldl (fun t b => (stopJob b false false t).2) s
  { s with sched := { s.sched with
    slots := [], delays := [], ready := [], affinity := [], held := [], holding := false, clips := [], tcPrev := none, tcNow := none, tcFired := 0,
    layers := List.replicate 16 ⟨false, false, true, false⟩ } }

/-- A flow page forgets what its 16 flows received; posts that wait are dropped with their leases. -/
def flowReset (k : Nat) (s : State) : State :=
  (List.range 16).foldl (fun (t : State) j =>
    let f := 16 * k + j
    let t := t.setFlow f FlowSt.none
    (List.range 2).foldl (fun (u : State) n => u.release (.post f n)) t) s

/-- An engine ends the carriage of its frame at once; its bases in use and waiting are settings and stay. -/
def scanReset (e : Nat) (s : State) : State :=
  let s := engineAbort e s
  let x := s.engine e
  carriageAll (baseHolds e (s.setEngine e { EngSt.init with base := x.base, next := x.next }))

/-- A port forgets the frames it holds and waits for, without count; its link is down until it comes up again (R301, R330, R479). -/
def portReset (p : Nat) (s : State) : State :=
  let req := (s.port p).pre.any (·.req)
  let s := s.setPort p PortSt.init
  let s := if req then txResult 3 s else s
  let s := freqSync (portFault p s)
  if p = 68 ∨ p = 69 then twinLinkDown s else s

/-- The working state of the block behind page `p` returns to that after reset, and its work in progress ends. -/
def blockWork (p : Nat) (s : State) : State :=
  match blkOf p with
  | some .sys => { (s.wr schedFrameAt 0).put A.SYS_SNAP F.SYS_SNAP_REQ 0 with commit := { s.commit with snapDue := false } }
  | some .bench => benchReset (p - 0x40) s
  | some .sched => schedReset s
  | some .lease => { s with lease := { s.lease with done := [] } }
  | some .maps => buildAbort s
  | some .ingest =>
    { s with ingest := { s.ingest with uHeld := [], uNow := [], idxK := [], conVals := [], conFlags := [], conDue := [],
                                       videoBytes := 0, userAt := [] } }
  | some .flow => flowReset (p - 0x60) s
  | some .marver => marverAbort s
  | some .solver =>
    let s := solverCutNow s
    { s with solver := { s.solver with k := 2, pos := 0, old := none, shed := [], temps := [], latT := [], latD := [], last := none } }
  | some .cloop => { s with loop := ⟨[], none, 0, false, 0, 0⟩ }.release .resetAll
  | some .scan => scanReset (p - 0xB0) s
  | some .tuiper =>
    { s with tuiper := { s.tuiper with seq := [], curs := [], req := none, tseq := [], syncs := [], sup := [], faultQ := [] } }
  | some .sets => setsCount (ownSets { s with tuiper := { s.tuiper with setSt := [], detected := [], rearms := [], transQ := [] } })
  | some .fl | some .sp | some .pl | some .mg => portReset (p - 0x100) s
  | some .dmx => dmxAbort s
  | some .q => queueAbort (p - 0x150) s
  | some .time =>
    { s with time := { s.time with t := s.rd64 A.KEEP_SEC_LO * 10 ^ 9 * 2 ^ 32, incr := tickT, gov := none, lastGov := none, dRem := 0,
                                   integ := 0, sampleAt := none, okRun := 0, badRun := 0, stepRun := 0, locked := [], stepped := false } }
  | some .ptp => { s with time := { s.time with doms := [PtpDom.init, PtpDom.init] } }
  | some .trig => { s with time := { s.time with trigs := [], caps := [], trigW := [], trigP := [] } }
  | some .sync => { s with time := { s.time with gl := ⟨none, [], 0, 0, 0, false, false⟩, ltc := ⟨0, 0⟩ } }
  | some .twin => twinEnter 0 s
  | some .lehr => { s with lehr := ⟨[], [], [], [], [], [], none, 0, 0⟩ }
  | some .cal => { s with cal := ⟨0, 0, [], none, 0, [], 0, s.cal.held, false, s.cal.eyes⟩ }
  | some .life => { s with dbg := { s.dbg with fuse := none } }
  | some .gaffer =>
    { s with gaffer := { Gaffer.initial with flash := s.gaffer.flash, slots := s.gaffer.slots, settings := s.gaffer.settings } }
  | _ => s

/-- PAGE_STAT.FAULT of the GAFFER page (R432). -/
def gafferFault (s : State) : State :=
  s.setFault P.GAFFER (s.get A.GAFFER_BOOT_STAT F.GAFFER_BOOT_STAT_STAGE == 3 ||
    s.get A.GAFFER_SET_STAT F.GAFFER_SET_STAT_RESULT == 4)

/-- PAGE_STAT.FAULT of a page follows the status that a reset of its block has taken back. That of MEM and of a bench stays until its
event is cleared (R91, R132). -/
def faultSync (p : Nat) (s : State) : State :=
  match blkOf p with
  | some .marver => s.setFault p (s.get A.MARVER_STAT F.MARVER_STAT_CUT == 1)
  | some .solver => solverFault s
  | some .scan =>
    let st := s.rd (A.SCAN_STAT (p - 0xB0))
    s.setFault p (fget st F.SCAN_STAT_LOSS == 1 || fget st F.SCAN_STAT_LOCK_BAD == 1)
  | some .fl | some .sp | some .pl | some .mg => portFault (p - 0x100) s
  | some .sync => s.setFault p (s.get A.SYNC_BND_STAT F.SYNC_BND_STAT_SRC_OK == 0)
  | some .lehr => lehrFault s
  | some .lane => s.setFault p (s.get (A.LANE_STAT (p - 0x1A0)) F.LANE_STAT_NO_SPARE == 1)
  | some .gaffer => gafferFault s
  | _ => s

/-- What a block does once its reset has finished: it resumes work under the active set (R479). -/
def blockResume (p : Nat) (s : State) : State :=
  match blkOf p with
  | some .twin => twinEpoch s
  | some .ptp | some .time => timeEpoch s
  | some .lehr => lehrEpoch s
  | some .cal => calHold (calTrim s)
  | some .bench | some .sched => schedKick s
  | some .sync => srcSync s
  | some .scan => baseShow (p - 0xB0) (lockShow ((p - 0xB0) / 2 * 2) s)
  | some .tuiper => faultsRecount s
  | _ => s

end Sys2Proof.Machine
end

