-- ==== Sys2Proof/Machine/Glory.lean ====
section
/-!
DEFINITION. Glory's slices and repairs, the life-cycle fuses, freeze and the test access port (R435 to R453, R456 to R458).
What a slice measures is an operand of the command that ends it (log entry 20).
-/
namespace Sys2Proof.Machine

/-! ### The life cycle (R445, R446) -/

/-- The life-cycle state in force: 0 BLANK, 1 FACTORY, 2 FIELD, 3 FIELD_LOCKED, 4 RETIRED. -/
def State.life (s : State) : Nat := s.get A.LIFE_STATE F.LIFE_STATE_STATE

/-- Whether the state allows error injection. -/
def State.mayInject (s : State) : Bool := s.life == 1 || s.life == 2

/-- Whether the state allows DEBUG.FREEZE, the TAP FREEZE and the dump chains. -/
def State.mayFreeze (s : State) : Bool := s.life == 1 || s.life == 2 || s.life == 4

/-! ### Slices (R435 to R441) -/

/-- Blocks that Glory itself withdraws for a slice. -/
def isWindow (p : Nat) : Bool := p == P.SAMPLER || p == P.MARVER || p == P.SOLVER || p == P.CLOOP

/-- Blocks testable in the field (R436). -/
def isFieldBlock (p : Nat) : Bool :=
  isWindow p || match blkOf p with
    | some .bench | some .scan | some .fl | some .sp | some .pl | some .mg | some .lane | some .dmx | some .twin | some .q => true
    | _ => false

/-- Whether the life-cycle state allows a slice on a page. -/
def State.sliceAllowed (s : State) (p : Nat) : Bool :=
  if s.life = 2 ∨ s.life = 3 then isFieldBlock p
  else s.life == 1 && (blkOf p).isSome && !([P.KEEP, P.GLORY, P.LIFE, P.DEBUG].contains p)

/-- Logic sections, march sections and memory instances of a page's block. -/
def logicCount (p : Nat) : Nat := Config.gloryInfo p / 256 % 64
def marchCount (p : Nat) : Nat := Config.gloryInfo p % 64
def memCount (p : Nat) : Nat := Config.gloryInfo p / 65536 % 64

/-- Whether TEST_SEL names a section of the block (R437). -/
def testOk (p test : Nat) : Bool :=
  (test / 64 == 1 && decide (test % 64 < logicCount p)) || (test / 64 == 2 && decide (test % 64 < marchCount p))

/-- A REQ write with a test selection (R435, R437). -/
def stReqOp (p test : Nat) (s : State) : State :=
  if s.sliceAllowed p && testOk p test then
    (s.put (H.ST_CTRL p) ⟨15, 8⟩ test).put (H.ST_CTRL p) ⟨0, 0⟩ 1
  else
    let s := (s.inc A.GLORY_REFUSED).wr A.GLORY_REF_PAGE (w32 p)
    s.guard1 p 31 (openCode (H.ST_CTRL p)) none

/-- Whether a bench holds a SAMPLE job in RUN or AFFINITY. -/
def State.sampling (s : State) : Bool :=
  (s.sched.benches.any fun b => match b.job with | some j => dKind j.desc == 2 | none => false) ||
    s.sched.affinity.any fun e => dKind (s.slotDesc e.slot) == 2

/-- Whether the next boundary lies at least BUDGET_US + 10 µs ahead. -/
def State.windowAhead (s : State) : Bool :=
  decide ((((s.nowNs + (s.get A.GLORY_CTRL F.GLORY_CTRL_BUDGET_US + 10) * 1000 : Nat)) : Rat) ≤ s.nextBoundary.1)

/-- Whether a slice on the page may start now (R436). -/
def State.testable (s : State) (p : Nat) : Bool :=
  if p = P.SAMPLER then !s.sampling
  else if p = P.MARVER then s.marver.begun && !s.marver.busy && s.windowAhead
  else if p = P.SOLVER then
    !s.solver.busy && (s.solver.frames.any fun f => f.fin == 1 && f.frame == (s.frameNum + 2 ^ 32 - 1) % 2 ^ 32) && s.windowAhead
  else if p = P.CLOOP then true
  else if isFieldBlock p then
    s.offline p && (blkOf p != some .q || s.get (A.Q_OCC (p - 0x150)) F.Q_OCC_WORDS == 0)
  else s.life == 1 && s.quiet

/-- Whether a slice runs on a page. -/
def State.sliceOn (s : State) (p : Nat) : Bool := match s.dbg.slice with | some x => x.page == p | none => false

/-- SLICE_START: the lowest waiting page whose block is testable (R435, R438). -/
def sliceStartOp (s : State) : State :=
  if s.dbg.slice.isSome ∨ s.get A.GLORY_CTRL F.GLORY_CTRL_EN = 0 then s
  else
    match allPages.find? fun p => bitOf (s.rd (H.ST_CTRL p)) 0 && s.testable p with
    | none => s
    | some p =>
      let test := s.get (H.ST_CTRL p) ⟨15, 8⟩
      let inj := s.detect P.GLORY 1 false
      let s := inj.2.put (H.ST_CTRL p) ⟨0, 0⟩ 0
      let s := (s.put (H.PAGE_STAT p) ⟨30, 30⟩ 1).put (H.ST_STAT p) ⟨2, 0⟩ 1
      let s := s.wr A.GLORY_STAT (w32 (2 ^ 31 + p * 65536 + test))
      { s with dbg := { s.dbg with
        slice := some ⟨s.nowNs + s.get A.GLORY_CTRL F.GLORY_CTRL_BUDGET_US * 1000, p, test, isWindow p, inj.1⟩ } }

/-- Why a slice ends: it ran on, service was demanded or the budget ran out, or it was stopped for another reason. -/
inductive SliceStop where
  | ran
  | service
  | other
deriving DecidableEq, Repr

/-- The result of a slice (R439). -/
def sliceResult (x : Slice) (why : SliceStop) (m : SliceMeasure) : Nat :=
  let golden := if x.inv then ~~~ m.golden else m.golden
  if x.test / 64 = 2 ∧ m.mismatches ≠ 0 then 3
  else if m.done < m.total then (if why = .service then 5 else 4)
  else if x.test / 64 = 2 ∨ m.sig = golden then 2 else 3

/-- Repairs of a page take effect when its block leaves a slice or its withdrawal (R444). -/
def repairsApply (p : Nat) (s : State) : State :=
  { s with dbg := { s.dbg with repairs := s.dbg.repairs.map fun r => if r.page = p then { r with inForce := true } else r } }

/-- The slice in progress ends (R438, R439, R441). -/
def sliceFinish (why : SliceStop) (m : SliceMeasure) (s : State) : State :=
  match s.dbg.slice with
  | none => s
  | some x =>
    let res := sliceResult x why m
    let s := { s with dbg := { s.dbg with slice := none } }
    let s := (s.wr A.GLORY_LAST (w32 (x.page * 65536 + res * 256 + x.test))).wr A.GLORY_STAT 0
    let s := s.wr A.GLORY_LAST_PATTERNS (w32 (m.total % 65536 * 65536 + m.done % 65536))
    let s := s.wr64 A.GLORY_MISR_LO m.sig.toNat
    let s := if x.test / 64 = 2 then
        let s := s.put A.GLORY_FAIL_MEM F.GLORY_FAIL_MEM_COUNT (min m.mismatches 65535)
        if m.mismatches = 0 then s
        else ((s.put A.GLORY_FAIL_MEM F.GLORY_FAIL_MEM_MEM m.mem).put A.GLORY_FAIL_MEM F.GLORY_FAIL_MEM_BIT m.bit).put A.GLORY_FAIL_ADDR
          F.GLORY_FAIL_ADDR_ADDR m.addr
      else s
    let s := s.inc A.GLORY_SLICE_CNT
    let s := if res = 3 then s.inc A.GLORY_FAIL_CNT else if res = 5 then s.inc A.GLORY_ABORT_CNT
      else if res = 4 then s.inc A.GLORY_INCOMPLETE_CNT else s
    let s := ((s.raise P.GLORY 0).raiseIf (res == 3) P.GLORY 1).raiseIf (res == 5) P.GLORY 2
    let s := if x.window then s else blockResume x.page (faultSync x.page (blockWork x.page s))
    let s := repairsApply x.page s
    let s := (s.put (H.PAGE_STAT x.page) ⟨30, 30⟩ 0).put (H.ST_STAT x.page) ⟨2, 0⟩ res
    let s := s.put (H.ST_STAT x.page) ⟨31, 16⟩ (s.get (H.ST_STAT x.page) ⟨31, 16⟩ + 1)
    s.raise x.page 29

/-- What an unmeasured slice had reached when it was stopped: free values, short of the section total (log entry 20). -/
def freeMeasure (test : Nat) (s : State) : SliceMeasure × State :=
  let a := s.fresh 65536
  let t := a.2.fresh (65536 - a.1)
  let g := t.2.fresh (2 ^ 64)
  let m := g.2.fresh 65536
  let e := m.2.fresh (2 ^ 40)
  (⟨a.1, a.1 + t.1 + 1, BitVec.ofNat 64 g.1, 0, if test / 64 = 2 then m.1 else 0, e.1 / 2 ^ 32, e.1 / 2 ^ 24 % 256, e.1 % 2 ^ 24⟩, e.2)

/-- Stop the slice on page `p`, if one runs there. -/
def sliceStopOn (why : SliceStop) (p : Nat) (s : State) : State :=
  match s.dbg.slice with
  | some x => if x.page = p then
      let m := freeMeasure x.test s
      sliceFinish why m.1 m.2
    else s
  | none => s

/-- SLICE_END: the count reaches the section total, or the slice stops short of it (R438, R439). -/
def sliceEndOp (m : SliceMeasure) (s : State) : State := sliceFinish .other m s

/-- When the budget of the slice in progress runs out (R438). -/
def State.sliceDue (s : State) : Nat := (s.dbg.slice.map (·.due)).getD 0

/-- SLICE_BUDGET_EXPIRE, once the budget timer has reached 0 (R440). -/
def sliceBudgetOp (m : SliceMeasure) (s : State) : State := if s.nowNs < s.sliceDue then s else sliceFinish .service m s

/-- A slice whose budget ran out before the boundary has stopped (R440). -/
def sliceElapsed (s : State) : State :=
  match s.dbg.slice with
  | some x => if x.due ≤ s.nowNs then sliceStopOn .service x.page s else s
  | none => s

/-! ### Repairs (R444) -/

/-- Repairs of an instance by kind. -/
def State.repairsOf (s : State) (p mem : Nat) (column : Bool) : List Repair :=
  s.dbg.repairs.filter fun r => r.page == p && r.mem == mem && r.column == column

/-- Report a repair. -/
def repairResult (res p mem : Nat) (s : State) : State :=
  let rows := 2 - (s.repairsOf p mem false).length
  let cols := 2 - (s.repairsOf p mem true).length
  (s.wr A.GLORY_REPAIR_STAT (w32 (res * 2 ^ 28 + rows * 16 + cols))).raiseIf (res == 1) P.GLORY 3

/-- A write of GLORY.REPAIR: 1 ROW, 2 COLUMN, 3 FUSE. -/
def gloryRepair (op p mem : Nat) (s : State) : State :=
  let inj := s.injArmed P.GLORY 31
  let s := if inj then s.injTake P.GLORY 31 else s
  let bad := op == 0 || decide (3 < op) || (blkOf p).isNone || decide (memCount p ≤ mem) || !s.offline p || s.sliceOn p ||
    s.life == 0 || s.life == 4 || (op == 3 && s.life != 1)
  if bad || inj then repairResult 3 p mem (s.guard1 P.GLORY 31 0x69 (some 1))
  else if op = 3 then
    repairResult 1 p mem { s with dbg := { s.dbg with
      repairs := s.dbg.repairs.map fun r => if r.page = p ∧ r.mem = mem then { r with fused := true } else r } }
  else if 2 ≤ (s.repairsOf p mem (op == 2)).length then repairResult 2 p mem s
  else
    let r : Repair := ⟨p, mem, op == 2, s.get A.GLORY_REPAIR_IDX F.GLORY_REPAIR_IDX_IDX, false, false⟩
    repairResult 1 p mem { s with dbg := { s.dbg with repairs := s.dbg.repairs ++ [r] } }

/-! ### Fuses (R445, R447, R472) -/

/-- A fuse write is rejected. -/
def fuseReject (s : State) : State :=
  (s.put A.LIFE_FUSE_STAT F.LIFE_FUSE_STAT_RESULT 2).guard1 P.LIFE 31 0x6A (some 0)

/-- A fuse operation begins where its write is good. -/
def fuseBegin (key : Nat) (ok : Bool) (op : FuseOp) (s : State) : State :=
  let inj := s.injArmed P.LIFE 31
  let s := if inj then s.injTake P.LIFE 31 else s
  if key ≠ 0x6C1E ∨ !ok ∨ inj ∨ s.dbg.fuse.isSome then fuseReject s
  else { s.wr A.LIFE_FUSE_STAT (w32 (2 ^ 31)) with dbg := { s.dbg with fuse := some op } }

/-- LIFE.ADVANCE: the next state in order, or RETIRED from FIELD. -/
def lifeAdvance (v : Word) (s : State) : State :=
  let t := fget v F.LIFE_ADVANCE_TARGET
  let now := s.get A.LIFE_STATE F.LIFE_STATE_NEXT
  fuseBegin (fget v F.LIFE_ADVANCE_KEY) ((t == now + 1 && decide (t ≤ 4)) || (now == 2 && t == 4)) (.advance t) s

/-- LIFE.REVOKE: not the slot of the running image. -/
def lifeRevoke (v : Word) (s : State) : State :=
  let k := fget v F.LIFE_REVOKE_SLOT
  let allowed := if s.life = 0 then k == 0 else s.life != 4
  fuseBegin (fget v F.LIFE_REVOKE_KEY) (allowed && !(s.gaffer.started && s.gaffer.image.keySlot == k)) (.revoke k) s

/-- LIFE.SEC_BUMP: not beyond the running image's SEC_VER. -/
def lifeSecBump (v : Word) (s : State) : State :=
  let next := s.get A.LIFE_MIN_SEC_VER F.LIFE_MIN_SEC_VER_MIN + 1
  let allowed := s.life != 4 && s.gaffer.started && decide (next ≤ s.gaffer.image.secVer) && decide (next ≤ 64)
  fuseBegin (fget v F.LIFE_SEC_BUMP_KEY) allowed .secBump s

/-- Burn the fuses of an operation. -/
def fuseBurn (op : FuseOp) (s : State) : State :=
  match op with
  | .advance t => s.put A.LIFE_STATE F.LIFE_STATE_NEXT t
  | .revoke k => s.put A.LIFE_KEYS ⟨4 + k, 4 + k⟩ 1
  | .secBump => s.add A.LIFE_MIN_SEC_VER F.LIFE_MIN_SEC_VER_MIN 1

/-- FUSE_DONE (R472): nothing is burnt where the supply was short. -/
def fuseEnd (supplyOk : Bool) (s : State) : State :=
  match s.dbg.fuse with
  | none => s
  | some op =>
    let s := { s with dbg := { s.dbg with fuse := none } }
    let s := if supplyOk then fuseBurn op s else s
    (s.wr A.LIFE_FUSE_STAT (w32 ((if supplyOk then 1 else 3) * 2 ^ 28))).raise P.LIFE 0

/-! ### Freeze (R448 to R451) -/

/-- A freeze begins from a source: 1 FRZ_N, 2 DEBUG.FREEZE, 3 the TAP. -/
def freezeBegin (src : Nat) (s : State) : State :=
  { s with power := { s.power with mode := .frozen }
           dbg := { s.dbg with freezeSrc := src, forced := 0, forcedLnk := 0, forcedShow := 0, stoppedDomains := [] } }

/-- A write of DEBUG.FREEZE. -/
def debugFreezeWrite (v : Word) (s : State) : State :=
  let inj := s.injArmed P.DEBUG 31
  let s := if inj then s.injTake P.DEBUG 31 else s
  if fget v F.DEBUG_FREEZE_KEY ≠ 0x7A5C ∨ !s.mayFreeze ∨ inj then s.guard1 P.DEBUG 31 0x6C (some 0)
  else if fget v F.DEBUG_FREEZE_GO = 1 then freezeBegin 2 s else s

/-- FRZ_N is low for longer than its filter width; an injection removes the pulse (R455). -/
def frzNOp (s : State) : State :=
  let r := pinRemoved P.DEBUG (openCode A.DEBUG_FRZ_CFG) none s
  if r.1 then r.2 else freezeBegin 1 r.2

/-- FREEZE_CLOCK_STOP: row `domain` of the clock table stops, `sub` being the port of a link clock; KEEPCLK never stops. -/
def clockStopOp (domain sub : Nat) (forced : Bool) (s : State) : State :=
  if s.power.mode ≠ .frozen ∨ 9 ≤ domain then s
  else
    let d := s.dbg
    let d := { d with stoppedDomains := if d.stoppedDomains.contains (domain, sub) then d.stoppedDomains
                                        else d.stoppedDomains ++ [(domain, sub)] }
    if !forced then { s with dbg := d }
    else
      let d := { d with forced := d.forced ||| 2 ^ domain }
      let d := if domain = 7 then { d with forcedLnk := d.forcedLnk ||| (1 <<< (sub % 64)) }
        else if domain = 8 then { d with forcedShow := d.forcedShow ||| 2 ^ (sub % 4) } else d
      { s with dbg := d }

/-- FREEZE_OVERTEMP (R450). -/
def freezeOvertempOp (s : State) : State :=
  if s.power.mode = .frozen then { s with power := { s.power with thermtrip := true } } else s

/-! ### The test access port (R452, R453) -/

/-- What the TAP shifts out, with the pins under EXTEST released. -/
def tapShift (ws : List Word) (s : State) : State := { s with dbg := { s.dbg with tapOut := ws, pinsDriven := none } }

/-- BYPASS, and every unlisted code. -/
def tapBypass (s : State) : State := tapShift [0] s

/-- EXTEST acts only while RST_N is low or the device is frozen. -/
def extestOp (pins : List Nat) (s : State) : State :=
  if s.power.rstLow ∨ s.power.mode = .frozen then
    { s with dbg := { s.dbg with tapOut := s.dbg.boundary.map w32, boundary := pins, pinsDriven := some pins } }
  else tapBypass s

/-- SAMPLE/PRELOAD: the boundary register takes the values given. -/
def samplePreloadOp (pins : List Nat) (s : State) : State :=
  let s := tapShift (s.dbg.boundary.map w32) s
  { s with dbg := { s.dbg with boundary := pins } }

/-- The 32-bit identity. -/
def idcodeWord : Word := w32 (0xB * 2 ^ 28 + 0x4096 * 2 ^ 12 + 0x4C7 * 2 + 1)

/-- The directory of the dump chains (R453). -/
def State.dumpDirectory (s : State) : List Word :=
  let c := Config.dumpChain 0 % 256
  let d := s.dbg
  w32 (c * 2 ^ 24 + d.freezeSrc * 2 ^ 22 + d.forced) ::
    ((List.range (c - 1)).map fun k => w32 (Config.dumpChain (k + 1))) ++
    [w32 d.forcedLnk.toNat, w32 (d.forcedLnk.toNat / 2 ^ 32), w32 d.forcedShow]

/-- DUMP_SCAN: the selected chain, or zeros; the contents of chains 1 onward are free values. -/
def dumpScanOp (s : State) : State :=
  if s.power.mode ≠ .frozen ∨ !s.mayFreeze then tapShift [0] s
  else if s.dbg.tapChain = 0 then tapShift s.dumpDirectory s
  else
    let n := if s.dbg.tapChain < Config.dumpChain 0 % 256 then (Config.dumpChain s.dbg.tapChain % 2 ^ 24 + 31) / 32 else 1
    let r := freshWords n s
    tapShift (r.1.map w32) r.2

/-- The TAP instruction FREEZE. -/
def tapFreezeOp (s : State) : State := if s.power.mode = .run ∧ s.mayFreeze then freezeBegin 3 (tapShift [] s) else tapShift [] s

end Sys2Proof.Machine
end

