-- ==== Sys2Proof/Machine/Reset.lean ====
section
/-!
DEFINITION. Reset of the device, its supplies and its clocks (R6 to R8, R61, R335, R409, R451, R465 to R469, R471).
-/
namespace Sys2Proof.Machine

/-- Causes of RESET_CAUSE, by bit (R61). -/
def causePor : Nat := 0
def causePin : Nat := 1
def causeWarm : Nat := 2
def causeWatchdog : Nat := 3
def causeFreeze : Nat := 4

/-- The flash after a reset: a save of the settings that it interrupts has written its copies, in order, up to a byte that nothing tells (R419;
a free value, log entry 1). -/
def interruptedSave (s : State) : State :=
  match s.gaffer.saving with
  | none => s
  | some d =>
    let x := s.fresh (3 * d.length + 1)
    let put (m : AMap Byte) (k : Nat) : AMap Byte :=
      (d.take (x.1 - k * d.length)).zipIdx.foldl (fun m y => amSet (fun _ => 0xFF) m (0x20000 + k * 0x100000 + y.2) y.1) m
    { x.2 with gaffer := { x.2.gaffer with flash := [0, 1, 2].foldl put x.2.gaffer.flash, saving := none } }

/-- A fuse word that a reset interrupts reads as entirely burnt or entirely unburnt: which is a free value (R472, log entry 1). -/
def interruptedFuse (s : State) : State :=
  match s.dbg.fuse with
  | none => s
  | some op =>
    let x := s.fresh 2
    let s := { x.2 with dbg := { x.2.dbg with fuse := none } }
    if x.1 = 0 then s else fuseBurn op s

/-- The device right after the release of a reset with a cause, with nothing written to the flash or the fuses meanwhile (R409): every
block at reset but the keeper, the fuses, the flash, the
host's PCIe link, the TAP and what stands outside the device; device memory is lost only with its supply. -/
def restartFrom (cause : Nat) (s : State) : State :=
  let por := cause == causePor
  let r := State.reset
  let live := s.rf.live.filter fun x => x.1 / 0x1000 == P.KEEP
  let t : State := { r with
    rf := { r.rf with live := live }
    power := { r.power with thermtrip := s.power.thermtrip, rstLow := s.power.rstLow }
    gaffer := { Gaffer.initial with flash := s.gaffer.flash, slots := s.gaffer.slots }
    keepLog := s.keepLog
    dbg := { r.dbg with
      repairs := (s.dbg.repairs.filter (·.fused)).map (fun (x : Repair) => { x with inForce := true })
      tapChain := s.dbg.tapChain, tapOut := s.dbg.tapOut, boundary := s.dbg.boundary, pinsDriven := s.dbg.pinsDriven }
    fixture := s.fixture
    mem := if por then [] else s.mem
    free := s.free
    pending := s.pending }
  let t := t.wr A.SYS_RESET_CAUSE (w32 (2 ^ cause))
  let life := s.get A.LIFE_STATE F.LIFE_STATE_NEXT
  let t := t.wr A.LIFE_STATE (w32 (life * 17))
  let t := (t.wr A.LIFE_KEYS (s.rd A.LIFE_KEYS)).wr A.LIFE_MIN_SEC_VER (s.rd A.LIFE_MIN_SEC_VER)
  let t := if cause = causeWarm ∨ cause = causeWatchdog then t.wr A.HOST_LINK_STAT (s.rd A.HOST_LINK_STAT) else t
  let t := t.put A.KEEP_STAT F.KEEP_STAT_LOST s.power.keeperLost.toNat
  let t := t.raiseIf s.power.keeperLost P.KEEP 2
  let t := { t with time := { t.time with t := t.rd64 A.KEEP_SEC_LO * 10 ^ 9 * 2 ^ 32 } }
  t.irqSync

/-- The device right after the release of a reset with a cause (R409), with what the reset interrupted. -/
def restart (cause : Nat) (s : State) : State := restartFrom cause (interruptedFuse (interruptedSave s))

/-- The device is held in reset with the cause of its next release; a power-on reset shows POR whatever else occurs (R466). -/
def holdReset (cause : Nat) (s : State) : State :=
  let cause := if s.power.por then causePor else cause
  { s with power := { s.power with mode := .held, cause := cause, thermtrip := false } }

/-- POWER_ON_RESET: the internal power-on reset is active (R465). -/
def powerOnOp (s : State) : State := holdReset causePor { s with power := { s.power with por := true } }

/-- SUPPLY_FALL: a monitored rail falls; the keeper logs POWER_LOSS (R430, R467). -/
def supplyFallOp (s : State) : State := powerOnOp (if s.power.por then s else logEvent 1 s)

/-- RST_N falls: a freeze ends so, and a fuse word being burnt is finished first (R451, R466, R472). -/
def rstFall (s : State) : State :=
  let s := { s with power := { s.power with rstLow := true } }
  if s.dbg.fuse.isSome ∧ s.power.mode = .run then { s with power := { s.power with rstWait := true } }
  else if s.power.mode = .held then s
  else holdReset (if s.power.mode = .frozen then causeFreeze else causePin) s

/-- RST_N rises: the device starts, unless the power-on reset is active. A reset that waits for a fuse word still waits. -/
def rstRise (s : State) : State :=
  let s := { s with power := { s.power with rstLow := false } }
  if s.power.mode = .held ∧ !s.power.por then restart s.power.cause s else s

/-- RST_N, with a pulse removed by an injection recorded in the SYS page (R466, R455). -/
def rstNOp (low : Bool) (s : State) : State :=
  if low then
    let r : Bool × State := if s.power.mode = .run then pinRemoved P.SYS (openCode A.SYS_RESET) none s else (false, s)
    if r.1 then r.2 else rstFall r.2
  else rstRise s

/-- RESET_RELEASE: the rails are in range and the power-on reset ends; the device starts where RST_N is high (R409, R465). -/
def resetReleaseOp (s : State) : State :=
  if s.power.mode ≠ .held then s
  else
    let s := { s with power := { s.power with por := false } }
    if s.power.rstLow then s else restart s.power.cause s

/-- FUSE_DONE, followed by an RST_N that waited for it (R472): the device is held, or starts anew where RST_N is high again. -/
def fuseDoneOp (supplyOk : Bool) (s : State) : State :=
  let s := fuseEnd supplyOk s
  if s.power.rstWait then
    let t := holdReset causePin { s with power := { s.power with rstWait := false } }
    if t.power.rstLow ∨ t.power.por then t else restart t.power.cause t
  else s

/-- A write of SYS.RESET: a wrong key is rejected (R61). -/
def sysReset (v : Word) (s : State) : State :=
  let inj := s.injArmed P.SYS 31
  let s := if inj then s.injTake P.SYS 31 else s
  if fget v F.SYS_RESET_KEY ≠ 0x5A3C ∨ inj then s.guard1 P.SYS 31 (openCode A.SYS_RESET) none
  else if fget v F.SYS_RESET_WARM = 1 then restart causeWarm s else s

/-! ### Clocks (R6 to R8, R469) -/

/-- PAGE_STAT.FAULT of the CLK page (R7). -/
def clkFault (s : State) : State :=
  let all := s.get A.CLK_PLL_STAT F.CLK_PLL_STAT_LOCKED == 0x7F
  let s := if all then { s with power := { s.power with pllOnce := true } } else s
  s.setFault P.CLK (s.power.pllOnce && !all)

/-- PLL_LOCK_LOST: the PLL's output runs on (R8). -/
def pllLostOp (k : Nat) (s : State) : State :=
  if 7 ≤ k ∨ !bitOf (s.rd A.CLK_PLL_STAT) k then s
  else clkFault (((s.put A.CLK_PLL_STAT ⟨k, k⟩ 0).inc A.CLK_LOCK_LOST).raise P.CLK 0)

/-- PLL_LOCK_REGAINED. The first lock after a reset shows the reference chosen at its release, which is REFCLK_IN (R469; log
entry 5). -/
def pllRegainedOp (k : Nat) (s : State) : State :=
  if 7 ≤ k then s
  else
    let s := if s.rd A.CLK_PLL_STAT = 0 ∧ !s.power.pllOnce then
        calTrim (s.wr A.CAL_REF_STAT (w32 (s.power.refExt.toNat * (2 ^ 31 + 2 ^ 30)))) else s
    clkFault (s.put A.CLK_PLL_STAT ⟨k, k⟩ 1)

/-- REFCLK_ABSENT: a reference in use is left for the internal oscillator until the next reset (R469). -/
def refclkAbsentOp (s : State) : State :=
  let inUse := s.get A.CAL_REF_STAT F.CAL_REF_STAT_IN_USE == 1
  let s := (s.wr A.CAL_REF_STAT 0)
  let s := { s with power := { s.power with refExt := false } }
  if inUse then calTrim ((s.inc A.CLK_REF_MOVES).raise P.CLK 1) else s

/-- A good write of FREQ_SEL starts a new gate (R8). -/
def freqSelect (v : Word) (s : State) : State := (s.wr A.CLK_FREQ_SEL v).wr A.CLK_FREQ_HZ 0

/-- FREQ_GATE_END: `cycles` were counted over the gate (R7). -/
def freqGateEndOp (cycles : Nat) (s : State) : State :=
  if s.freqDown then s.wr A.CLK_FREQ_HZ 0
  else s.wr A.CLK_FREQ_HZ (w32 (if s.get A.CLK_FREQ_SEL F.CLK_FREQ_SEL_DOMAIN = 9 then cycles else cycles * 1000))

end Sys2Proof.Machine
end

