-- ==== Sys2Proof/Machine/Gaffer.lean ====
section
/-!
DEFINITION. The Gaffer: flash, images, the settings store, start, the mailbox, Jack cores and live update (R409 to R426, R432).
Reason codes, and what the punty record holds, are not laid out by the manual: reasons are free values (log entry 1), and the record,
a working form, is not written.
-/
namespace Sys2Proof.Machine

/-! ### Flash and images (R410 to R413) -/

/-- A byte of flash; nothing written reads as erased (log entry 23). -/
def State.flashB (s : State) (a : Nat) : Byte := amGet (fun _ => 0xFF) s.gaffer.flash a

/-- Read `n` bytes of flash. -/
def State.flashRead (s : State) (a n : Nat) : List Byte := (List.range n).map fun i => s.flashB (a + i)

/-- A 32-bit word of flash, least significant byte first (log entry 18). -/
def State.flash32 (s : State) (a : Nat) : Nat := leNat (s.flashRead a 4)

/-- Write bytes of flash. -/
def flashWrite (a : Nat) (d : List Byte) (s : State) : State :=
  { s with gaffer := { s.gaffer with
    flash := d.zipIdx.foldl (fun (m : AMap Byte) x => amSet (fun _ => 0xFF) m (a + x.2) x.1) s.gaffer.flash } }

/-- Where a slot begins: 0 ACTIVE, 1 STAGING, 2 FALLBACK. -/
def slotAt (i : Nat) : Nat := 0x1000000 + i * 0x2000000

/-- Where a settings copy begins. -/
def setAt (k : Nat) : Nat := 0x20000 + k * 0x100000

/-- Copy one slot to another. -/
def slotCopy (src dst : Nat) (s : State) : State :=
  let a := slotAt src
  let b := slotAt dst
  let m := s.gaffer.flash.filter fun x => x.1 < b || b + 0x2000000 ≤ x.1
  let from' := s.gaffer.flash.filter fun x => decide (a ≤ x.1) && decide (x.1 < a + 0x2000000)
  { s with gaffer := { s.gaffer with
    flash := from'.foldl (fun (m : AMap Byte) x => amSet (fun _ => 0xFF) m (x.1 - a + b) x.2) m } }

/-- A slot as the directory shows it. -/
def State.slotOf (s : State) (i : Nat) : Slot := s.gaffer.slots.getD i ⟨0, 0⟩

/-- SLOT_STAT and SLOT_VER follow the directory (R410). -/
def slotReport (s : State) : State :=
  [0, 1, 2].foldl (fun (t : State) i =>
    (t.wr (A.GAFFER_SLOT_STAT i) (w32 ((t.slotOf i).state * 2 ^ 28))).wr (A.GAFFER_SLOT_VER i) (t.slotOf i).version) s

/-- Set a slot's directory entry. -/
def putSlot (i : Nat) (x : Slot) (s : State) : State :=
  slotReport { s with gaffer := { s.gaffer with slots := s.gaffer.slots.set i x } }

/-- Set a slot's state. -/
def slotState (i st : Nat) (s : State) : State := putSlot i { s.slotOf i with state := st } s

/-- A header word of the image in a slot. -/
def State.imageWord (s : State) (i w : Nat) : Nat := s.flash32 (slotAt i + 4 * w)

/-- What an image's header says (R412). -/
def State.imageInfo (s : State) (i : Nat) : ImageInfo :=
  let w := s.imageWord i 1
  ⟨w / 2 ^ 24, w / 2 ^ 16 % 256, w / 256 % 256, w % 256, w32 (s.imageWord i 2), s.imageWord i 3⟩

/-- Whether the life-cycle state accepts images of a key slot (R446). -/
def State.keyAccepted (s : State) (k : Nat) : Bool :=
  (s.life == 1 && k == 0) || ((s.life == 2 || s.life == 3) && decide (1 ≤ k) && decide (k ≤ 3))

/-- Whether the image in a slot is valid (R413). -/
def State.imageValid (s : State) (i : Nat) : Bool :=
  let len := s.imageWord i 4
  let sec (k : Nat) : Nat × Nat := (s.imageWord i (5 + 2 * k), s.imageWord i (6 + 2 * k))
  let x := s.imageInfo i
  s.imageWord i 0 == 0x4B46494D && decide (1 ≤ len) && decide (len ≤ 33553920) &&
    ([0, 1, 2, 3].all fun k => decide ((sec k).1 + (sec k).2 ≤ len)) && decide ((sec 0).2 ≤ 0x200000) &&
    s.keyAccepted x.keySlot && bitOf (s.rd A.LIFE_KEYS) x.keySlot && !bitOf (s.rd A.LIFE_KEYS) (4 + x.keySlot) &&
    decide (s.get A.LIFE_MIN_SEC_VER F.LIFE_MIN_SEC_VER_MIN ≤ x.secVer) && Config.sigOk (s.flashRead (slotAt i) (512 + len))

/-! ### The settings store (R415 to R419) -/

/-- One step of the CRC-32 of IEEE 802.3 over a byte. -/
def crc32Bits : Nat → Nat → Nat
  | 0, c => c
  | n + 1, c => crc32Bits n (if c % 2 = 1 then (c / 2) ^^^ 0xEDB88320 else c / 2)

/-- The CRC-32 of IEEE 802.3. -/
def crc32 (d : List Byte) : Nat := d.foldl (fun c b => crc32Bits 8 (c ^^^ b.toNat)) 0xFFFFFFFF ^^^ 0xFFFFFFFF

/-- A settings copy with its header (R415). -/
def settingsBytes (ver gen : Nat) (recs : List Byte) : List Byte :=
  let h := leBytes 4 0x4B534554 ++ leBytes 4 ver ++ leBytes 4 gen ++ leBytes 4 (recs.length / 8)
  h ++ leBytes 4 (crc32 (h ++ recs)) ++ List.replicate 44 0 ++ recs

/-- COUNT of a settings copy. -/
def State.setCount (s : State) (k : Nat) : Nat := s.flash32 (setAt k + 12) % 2 ^ 17

/-- GENERATION of a settings copy. -/
def State.setGen (s : State) (k : Nat) : Nat := s.flash32 (setAt k + 8)

/-- A settings copy from word 0 to its last record. -/
def State.setBytes (s : State) (k : Nat) : List Byte := s.flashRead (setAt k) (64 + 8 * s.setCount k)

/-- Whether a copy is intact for an image whose settings format is `ver` (R415). -/
def State.setIntact (s : State) (ver k : Nat) : Bool :=
  s.flash32 (setAt k) == 0x4B534554 && decide (s.setCount k ≤ 131064) &&
    s.flash32 (setAt k + 16) == crc32 (s.flashRead (setAt k) 16 ++ (s.setBytes k).drop 64) &&
    Config.setVerReadable ver (s.flash32 (setAt k + 4) % 256)

/-- The intact copies. -/
def State.intactSets (s : State) (ver : Nat) : List Nat := [0, 1, 2].filter fun k => s.setIntact ver k

/-- SET_STAT.RESULT and the copy used among the intact ones (R416). -/
def State.chooseSettings (s : State) (l : List Nat) : Nat × Option Nat :=
  let agree (a b : Nat) : Bool := s.setBytes a == s.setBytes b
  let pair := l.find? fun a => l.any fun b => b != a && agree a b
  let newest := l.find? fun a => l.all fun b => b == a || later (s.setGen a) (s.setGen b)
  match l with
  | [] => (5, none)
  | [a] => (3, some a)
  | _ =>
    if l.length = 3 ∧ l.all (fun b => agree (l.headD 0) b) then (0, some (l.headD 0))
    else match pair, newest with
      | some a, _ => (1, some a)
      | none, some a => (2, some a)
      | none, none => (4, none)

/-- Records of a settings copy as register writes: address and value. -/
def parseRecords : Nat → List Byte → List (Nat × Word)
  | 0, _ => []
  | n + 1, d => if d.length < 8 then []
    else
      let w := leNat (d.take 4)
      (w / 2 ^ 16 % 4096 * 4096 + w % 4096, w32 (leNat ((d.drop 4).take 4))) :: parseRecords n (d.drop 8)

/-- The records of a settings copy, converted where its format is not the image's own (R415). -/
def State.setRecords (s : State) (ver k : Nat) : List Byte :=
  let recs := (s.setBytes k).drop 64
  let old := s.flash32 (setAt k + 4) % 256
  if old = ver then recs else Config.migrate old ver recs

/-- The settings copy is chosen (R416). -/
def settingsChoose (ver : Nat) (s : State) : State :=
  let l := s.intactSets ver
  let c := s.chooseSettings l
  let used := c.2.getD 0
  let s := s.wr A.GAFFER_SET_STAT (w32 (c.1 * 2 ^ 28 + (l.foldl (fun n k => n + 2 ^ k) 0) * 2 ^ 24 + used * 2 ^ 20))
  let s := if c.1 = 4 then (s.wr A.SYS_SETTINGS_STAT 1).raise P.SYS 6 else s
  match c.2 with
  | none => { s with gaffer := { s.gaffer with settings := [] } }
  | some k =>
    let d := s.setRecords ver k
    let s := (s.wr A.GAFFER_SET_GEN (w32 (s.setGen k)))
    { s with gaffer := { s.gaffer with settings := parseRecords (d.length / 8) d } }

/-- Under MAJORITY, NEWEST and SINGLE the firmware rewrites the other copies with the chosen content (R416). -/
def settingsRewrite (s : State) : State :=
  let r := s.get A.GAFFER_SET_STAT F.GAFFER_SET_STAT_RESULT
  let k := s.get A.GAFFER_SET_STAT F.GAFFER_SET_STAT_USED
  if r = 0 ∨ 3 < r then s
  else
    let d := s.setBytes k
    [0, 1, 2].foldl (fun (t : State) i => if i = k then t else flashWrite (setAt i) d t) s

/-- Begin a save of a record list: GENERATION is one later than the latest intact copy's, and free where none is intact (R419). -/
def saveBegin (ver : Nat) (recs : List Byte) (s : State) : State :=
  let l := s.intactSets ver
  let x := s.fresh (2 ^ 32)
  let g := match l.find? fun a => l.all fun b => b == a || !earlier (s.setGen a) (s.setGen b) with
    | some a => ((s.setGen a + 1) % 2 ^ 32, s)
    | none => (x.1, x.2)
  { g.2 with gaffer := { g.2.gaffer with saving := some (settingsBytes ver g.1 recs) } }

/-! ### Start (R409, R414) -/

/-- STAGE of the start. -/
def State.stage (s : State) : Nat := s.get A.GAFFER_BOOT_STAT F.GAFFER_BOOT_STAT_STAGE

/-- A CONFIRMED STAGING image is put in force: ACTIVE to FALLBACK, then STAGING to ACTIVE; no image that fails is copied (R413,
R414). -/
def takeStaging (s : State) : State :=
  if (s.slotOf 1).state ≠ 3 then s
  else
    let s := if s.imageValid 0 then putSlot 2 (s.slotOf 0) (slotCopy 0 2 s) else s
    if s.imageValid 1 then putSlot 1 ⟨0, 0⟩ (putSlot 0 (s.slotOf 1) (slotCopy 1 0 s)) else slotState 1 6 s

/-- An image is the one that runs: FW_VER, IF_GEN and the bank. -/
def runImage (x : ImageInfo) (bank : Nat) (s : State) : State :=
  let s := { s with gaffer := { s.gaffer with image := x } }
  let s := (s.wr A.GAFFER_FW_VER x.version).put A.SYS_PART_REV F.SYS_PART_REV_IF_GEN x.ifGen
  s.put A.GAFFER_BOOT_STAT F.GAFFER_BOOT_STAT_BANK bank

/-- The next Tuiper session, kept in the keeper (R256, R431). -/
def nextSession (s : State) : State :=
  let n := (s.get (A.KEEP_RETAIN 0) ⟨15, 0⟩ + 1) % 65536
  let n := if n = 0 then 1 else n
  (s.put (A.KEEP_RETAIN 0) ⟨15, 0⟩ n).wr A.TUIPER_SESSION (w32 n)

/-- The image of slot `i` starts: the firmware loads the Jack cores, Lehr and the microcode and begins the start calibrations. -/
def firmwareStart (i : Nat) (s : State) : State :=
  let x := s.imageInfo i
  let s := runImage x 0 (s.wr A.GAFFER_BOOT_STAT (w32 (2 ^ 28 + i * 2 ^ 24)))
  let s := settingsRewrite (settingsChoose x.setVer { s with gaffer := { s.gaffer with started := true } })
  let s := nextSession ((s.wr A.GAFFER_JACK_STAT 0xFF).put A.CAL_STAT F.CAL_STAT_BUSY 1)
  gafferFault { s with cal := { s.cal with op := 1, startAt := s.nowNs } }

/-- BOOT_ROM_RUN, once every PLL has locked (R409, R414). -/
def bootRomOp (s : State) : State :=
  if s.gaffer.started ∨ s.stage ≠ 0 ∨ s.get A.CLK_PLL_STAT F.CLK_PLL_STAT_LOCKED ≠ 0x7F then s
  else
    let s := takeStaging (slotReport s)
    if s.imageValid 0 then firmwareStart 0 s
    else
      let s := (slotState 0 6 s).raise P.GAFFER 2
      if s.imageValid 2 then firmwareStart 2 s
      else gafferFault (settingsChoose 0 (s.wr A.GAFFER_BOOT_STAT (w32 (3 * 2 ^ 28))))

/-- A start calibration has ended: its results are placed directly, and the next begins: SENSORS, TIMEBASE, then every lane (R400,
R409). -/
def startCalNext (s : State) : State :=
  let op := s.cal.op
  let lane := s.cal.lane
  let s := s.cal.sens.foldl (fun (t : State) x => t.wr (A.CAL_SENS_RES x.1) (w32 (wrapN 16 x.2))) s
  let s := { s with cal := { s.cal with tbForce := s.cal.tb.getD s.cal.tbForce } }
  let s := s.cal.sel.foldl (fun t x => laneApply x t) s
  let s := calTrim { s with cal := { s.cal with sens := [], tb := none, sel := [] } }
  let s := s.put A.CAL_STAT F.CAL_STAT_PENDING 0
  if op = 3 ∧ lane = 69 then { s with cal := { s.cal with op := 0 } }
  else
    let s := s.put A.CAL_STAT F.CAL_STAT_BUSY 1
    { s with cal := { s.cal with op := min 3 (op + 1), lane := if op = 3 then lane + 1 else 0, startAt := s.nowNs } }

/-- CAL_COMPLETE: of a calibration commanded, once it has taken its time, or of one of the start calibrations. -/
def calibrationEnd (m : CalMeasure) (s : State) : State :=
  if s.stage = 1 ∧ s.get A.CAL_STAT F.CAL_STAT_BUSY = 1 then startCalNext (calCompleteOp m s)
  else if s.nowNs < s.calDue m then s
  else calCompleteOp m s

/-! ### Jack cores (R422) -/

/-- A Jack core's reload begins: an RDM transaction on its ports ends without a response. -/
def jackStart (c : Nat) (s : State) : State :=
  let s := (s.put A.GAFFER_JACK_STAT ⟨8 + c, 8 + c⟩ 1).put A.GAFFER_JACK_STAT ⟨c, c⟩ 0
  match s.net.rdm with
  | some x => if x.port / 2 = c then rdmEnd 2 s else s
  | none => s

/-- Whether a core is being reloaded. -/
def State.jackBusy (s : State) (c : Nat) : Bool := bitOf (s.rd A.GAFFER_JACK_STAT) (8 + c)

/-- The next core of a sequence of reloads starts. -/
def jackNext (s : State) : State :=
  match s.gaffer.jackNew with
  | c :: _ => if s.jackBusy c then s else jackStart c s
  | [] => s

/-- JACK_RELOAD_DONE. -/
def jackDoneOp (c : Nat) (s : State) : State :=
  if 8 ≤ c ∨ !s.jackBusy c then s
  else
    let s := (s.put A.GAFFER_JACK_STAT ⟨8 + c, 8 + c⟩ 0).put A.GAFFER_JACK_STAT ⟨c, c⟩ 1
    if s.gaffer.jackNew.head? = some c then jackNext { s with gaffer := { s.gaffer with jackNew := s.gaffer.jackNew.drop 1 } } else s

/-! ### The mailbox (R420, R421) -/

/-- PHASE of an update. -/
def State.phase (s : State) : Nat := s.get A.GAFFER_UPD_STAT F.GAFFER_UPD_STAT_PHASE

/-- The response reaches its requester. -/
def mbxReply (q : MbxReq) (status : Nat) (words : List Word) (len : Nat) (s : State) : State :=
  let x := s.fresh (2 ^ 32)
  let r : MbxRsp := ⟨q.src, status, q.tag, w32 x.1 :: words, 4 + len⟩
  let s := x.2
  let w0 := w32 (status * 2 ^ 24 + q.tag % 256 * 2 ^ 16 + r.len)
  match q.src with
  | .host =>
    let s := (w0 :: r.words).zipIdx.foldl (fun (t : State) y => t.wr (A.GAFFER_MBX_RSP y.2) y.1) s
    (s.wr A.GAFFER_MBX_STAT (w32 (2 ^ 30))).raise P.GAFFER 1
  | .mg0 _ _ =>
    let s := { s with gaffer := { s.gaffer with
      mgLast := r :: s.gaffer.mgLast.filter (fun y => y.src != q.src), mgOut := r :: s.gaffer.mgOut } }
    handOver 70 (plainFrame false .standard) s

/-- The request in service is answered and leaves the queue. -/
def mbxDone (status : Nat) (words : List Word) (len : Nat) (s : State) : State :=
  match s.gaffer.mbxQ with
  | [] => s
  | q :: qs => mbxReply q status words len { s with gaffer := { s.gaffer with mbxQ := qs, mbxBusy := false } }

/-- Word `i` of a request's payload, most significant byte first. -/
def MbxReq.word (q : MbxReq) (i : Nat) : Nat := leNat ((q.payload.drop (4 * i)).take 4).reverse

/-- Bytes as words, most significant byte first. -/
def packWords : Nat → List Byte → List Word
  | 0, _ => []
  | n + 1, d => w32 (leNat ((d ++ [0, 0, 0]).take 4).reverse) :: packWords n (d.drop 4)

/-- INFO: versions of the slots, the running bank and the image (the layout is log entry 18's). -/
def State.infoWords (s : State) : List Word :=
  [(s.slotOf 0).version, (s.slotOf 1).version, (s.slotOf 2).version,
   w32 (s.get A.GAFFER_BOOT_STAT F.GAFFER_BOOT_STAT_BANK), s.gaffer.image.version]

/-- Whether an update may begin (R382, R423). -/
def State.updateOk (s : State) : Bool :=
  let x := s.imageInfo 1
  let im := s.gaffer.image
  (s.slotOf 1).state == 2 && x.ifGen == im.ifGen && decide (im.setVer ≤ x.setVer) && s.phase == 0 && s.gaffer.saving.isNone &&
    s.get A.TWIN_STAT F.TWIN_STAT_FAILOVER == 0 && !(s.twinOn && (s.twinSt == 1 || s.twinSt == 4 || s.twinSt == 6)) &&
    !(s.twinOn && x.recVer != im.recVer)

/-- Commands that write STAGING. -/
def imageCmd (q : MbxReq) (s : State) : State :=
  let refused := mbxDone 2 [] 0 s
  let bad := mbxDone 3 [] 0 s
  if s.phase ≠ 0 then refused
  else match q.cmd with
  | 0x10 =>
    if q.payload.length < 4 ∨ 0x2000000 < q.word 0 then bad
    else mbxDone 0 [] 0 (slotState 1 1 { s with gaffer := { s.gaffer with staged := q.word 0 } })
  | 0x11 =>
    let d := q.payload.drop 4
    if (s.slotOf 1).state ≠ 1 then refused
    else if q.payload.length < 4 ∨ s.gaffer.staged < q.word 0 + d.length then bad
    else mbxDone 0 [] 0 (flashWrite (slotAt 1 + q.word 0) d s)
  | 0x12 =>
    let b := q.word 0
    if (s.slotOf 1).state ≠ 1 then refused
    else if q.payload.length < 8 ∨ s.bufSize b < q.word 1 ∨ s.gaffer.staged < q.word 1 then bad
    else mbxDone 0 [] 0 (flashWrite (slotAt 1) (s.memRead (s.bufBase b) (q.word 1)) s)
  | _ => if (s.slotOf 1).state ≠ 1 then refused else { s with gaffer := { s.gaffer with mbxBusy := true } }

/-- SET_SAVE: the record list of a buffer is taken and the save begins (R419). -/
def setSaveCmd (q : MbxReq) (s : State) : State :=
  let b := q.word 0
  let n := q.word 1
  if s.phase ≠ 0 ∨ s.gaffer.saving.isSome then mbxDone 2 [] 0 s
  else if q.payload.length < 8 ∨ 131064 < n ∨ s.bufSize b < 8 * n then mbxDone 3 [] 0 s
  else
    let s := (saveBegin s.gaffer.image.setVer (s.memRead (s.bufBase b) (8 * n)) s).hold .mailbox b
    { s with gaffer := { s.gaffer with mbxBusy := true } }

/-- SET_READ. -/
def setReadCmd (q : MbxReq) (s : State) : State :=
  let k := q.word 0
  let off := q.word 1
  if q.payload.length < 8 ∨ 2 < k ∨ 0x100000 ≤ off then mbxDone 3 [] 0 s
  else
    let n := min 1016 (0x100000 - off)
    mbxDone 0 (packWords ((n + 3) / 4) (s.flashRead (setAt k + off) n)) n s

/-- A reversal falls due at the next boundary (R426). -/
def reversalDue (s : State) : State :=
  if s.phase = 4 ∧ s.gaffer.reversal.isNone then { s with gaffer := { s.gaffer with reversal := some s.time.bnds } } else s

/-- Serve one request (R421). -/
def mbxHandle (q : MbxReq) (s : State) : State :=
  let refused := mbxDone 2 [] 0 s
  let recovery := s.stage == 3
  let isImage := decide (0x10 ≤ q.cmd) && decide (q.cmd ≤ 0x13)
  let fromMg : Bool := match q.src with | .host => false | .mg0 _ _ => true
  if fromMg && decide (0x10 ≤ q.cmd) && decide (q.cmd ≤ 0x50) && s.get A.GAFFER_MBX_CFG F.GAFFER_MBX_CFG_MG_WRITE == 0 then refused
  else if q.cmd = 1 then mbxDone 0 [] 0 s
  else if q.cmd = 2 then mbxDone 0 s.infoWords 20 s
  else if isImage then (if recovery && (s.life == 0 || s.life == 4) then refused else imageCmd q s)
  else if recovery then mbxDone 4 [] 0 s
  else match q.cmd with
  | 0x20 => if s.updateOk then mbxDone 0 [] 0 (s.put A.GAFFER_UPD_STAT F.GAFFER_UPD_STAT_PHASE 1) else refused
  | 0x21 => if s.phase = 4 then mbxDone 0 [] 0 (reversalDue s) else refused
  | 0x22 => if s.phase = 0 ∧ (s.slotOf 1).state = 2 then mbxDone 0 [] 0 (slotState 1 3 s) else refused
  | 0x30 => setSaveCmd q s
  | 0x31 => setReadCmd q s
  | 0x40 =>
    let c := q.word 0
    if q.payload.length < 4 ∨ 7 < c then mbxDone 3 [] 0 s
    else if s.jackBusy c then mbxDone 1 [] 0 s
    else mbxDone 0 [] 0 (jackStart c s)
  | 0x50 => if q.payload.length < 4 ∨ q.word 0 ≠ 0x5A3C then mbxDone 3 [] 0 s else restart causeWarm s
  | _ => mbxDone 3 [] 0 s

/-- Serve the requests that wait, one at a time in order of arrival: from READY on or in recovery, and not while a handover holds
them (R409, R420, R424). -/
def mbxServe : Nat → State → State
  | 0, s => s
  | n + 1, s =>
    match s.gaffer.mbxQ with
    | [] => s
    | q :: _ => if s.gaffer.mbxBusy || s.stage < 2 || s.phase == 3 then s else mbxServe n (mbxHandle q s)

/-- Whether a request from MG0 is pending. -/
def State.mgPending (s : State) : Bool := s.gaffer.mbxQ.any fun q => match q.src with | .host => false | .mg0 _ _ => true

/-- MG_DROP: a datagram that arrives while one is pending, or while MG_EN is 0, is discarded (R420). -/
def mgDropOp (s : State) : State :=
  if !s.portOn 70 then s
  else
    let s := takeRx 70 s
    if s.mgPending ∨ s.get A.GAFFER_MBX_CFG F.GAFFER_MBX_CFG_MG_EN = 0 then s.inc A.GAFFER_MG_DROP else s

/-- A request arrives: by the doorbell, rejected while one is unanswered, or on MG0, where a repeated TAG gets the stored response
(R420). -/
def mbxSubmit (q : MbxReq) (s : State) : State :=
  match q.src with
  | .host =>
    let r := s.detect P.GAFFER 31 (s.get A.GAFFER_MBX_STAT F.GAFFER_MBX_STAT_BUSY == 1)
    if r.1 then r.2.guard1 P.GAFFER 31 0x08 (some 0)
    else
      let s := r.2.wr A.GAFFER_MBX_STAT (w32 (2 ^ 31))
      mbxServe 3 { s with gaffer := { s.gaffer with mbxQ := s.gaffer.mbxQ ++ [q] } }
  | .mg0 _ _ =>
    if !s.portOn 70 then s
    else if s.mgPending ∨ s.get A.GAFFER_MBX_CFG F.GAFFER_MBX_CFG_MG_EN = 0 then mgDropOp s
    else
      let s := takeRx 70 s
      match s.gaffer.mgLast.find? fun r => r.src == q.src && r.tag == q.tag with
      | some r => handOver 70 (plainFrame false .standard) { s with gaffer := { s.gaffer with mgOut := r :: s.gaffer.mgOut } }
      | none => mbxServe 3 { s with gaffer := { s.gaffer with mbxQ := s.gaffer.mbxQ ++ [q] } }

/-- The request that MBX_REQ holds (R420). -/
def State.hostRequest (s : State) : MbxReq :=
  let w0 := s.rd (A.GAFFER_MBX_REQ 0)
  let len := min 1020 (fget w0 ⟨15, 0⟩)
  ⟨.host, fget w0 ⟨31, 24⟩, fget w0 ⟨23, 16⟩, (wordBytes ((List.range 255).map fun i => s.rd (A.GAFFER_MBX_REQ (i + 1)))).take len⟩

/-- A command of a source with its payload words: the host writes it into MBX_REQ and rings the doorbell. -/
def mbxCommand (src : MbxSrc) (cmd tag : Nat) (payload : List Byte) (s : State) : State :=
  let p := payload.take 1020
  match src with
  | .host =>
    if s.get A.GAFFER_MBX_STAT F.GAFFER_MBX_STAT_BUSY = 1 then mbxSubmit ⟨.host, cmd, tag, p⟩ s
    else
      let ws := w32 (cmd % 256 * 2 ^ 24 + tag % 256 * 2 ^ 16 + p.length) :: packWords ((p.length + 3) / 4) p
      let s := ws.zipIdx.foldl (fun (t : State) y => t.wr (A.GAFFER_MBX_REQ y.2) y.1) s
      mbxSubmit s.hostRequest s
  | .mg0 _ _ => mbxSubmit ⟨src, cmd % 256, tag % 256, p⟩ s

/-- Whether the request in service is `cmd`. -/
def State.serving (s : State) (cmd : Nat) : Bool :=
  s.gaffer.mbxBusy && match s.gaffer.mbxQ with | q :: _ => q.cmd == cmd | [] => false

/-- IMAGE_VERIFY_DONE: STAGING becomes VERIFIED or BAD_SIGNATURE; in recovery it goes into ACTIVE and the device restarts (R413,
R414). -/
def imageVerifyDoneOp (s : State) : State :=
  if !s.serving 0x13 then s
  else if s.imageValid 1 then
    let s := mbxDone 0 [] 0 (putSlot 1 ⟨2, (s.imageInfo 1).version⟩ s)
    if s.stage = 3 then restart causeWarm (putSlot 1 ⟨0, 0⟩ (putSlot 0 (s.slotOf 1) (slotCopy 1 0 s))) else mbxServe 3 s
  else mbxServe 3 (mbxDone 5 [] 0 (slotState 1 6 s))

/-- SET_SAVE_DONE: the three copies are written and the conflict is cleared (R419). -/
def setSaveDoneOp (s : State) : State :=
  match s.gaffer.saving with
  | none => s
  | some d =>
    let s := [0, 1, 2].foldl (fun (t : State) k => flashWrite (setAt k) d t) s
    let s := (s.wr A.SYS_SETTINGS_STAT 0).release .mailbox
    let s := { s with gaffer := { s.gaffer with saving := none } }
    if s.serving 0x30 then mbxServe 3 (mbxDone 0 [] 0 s) else s

/-! ### Live update (R423 to R426) -/

/-- An update ends before the switch with a cause. -/
def updateAbort (cause : Nat) (s : State) : State :=
  let s := (s.wr A.GAFFER_UPD_STAT (w32 (cause * 2 ^ 24))).raise P.GAFFER 3
  mbxServe 3 { s with gaffer := { s.gaffer with migrated := none, handoverAt := none } }

/-- UPDATE_LOAD_DONE. -/
def updateLoadDoneOp (s : State) : State :=
  if s.phase ≠ 1 then s
  else if s.imageValid 1 then s.put A.GAFFER_UPD_STAT F.GAFFER_UPD_STAT_PHASE 2
  else updateAbort 2 (slotState 1 6 s)

/-- The records of the settings in use. -/
def State.settingsRecords (s : State) : List Byte :=
  s.gaffer.settings.flatMap fun x => leBytes 4 (x.1 / 4096 * 65536 + x.1 % 4096) ++ leBytes 4 x.2.toNat

/-- UPDATE_MIGRATION_DONE: handover waits for the first boundary at least 1 ms later, or the update is aborted (R424, R425). -/
def updateMigrationOp (ok : Bool) (s : State) : State :=
  if s.phase ≠ 2 ∨ s.gaffer.handoverAt.isSome then s
  else if ok then
    let new := (s.imageInfo 1).setVer
    let old := s.gaffer.image.setVer
    let recs := if new = old then s.settingsRecords else Config.migrate old new s.settingsRecords
    { s with gaffer := { s.gaffer with migrated := some recs, handoverAt := some (s.nowNs + 1000000) } }
  else updateAbort 1 (slotState 1 5 s)

/-- What a frame boundary does to an update: a handover that is due begins, and PROB_LEFT decreases (R424). -/
def gafferBoundary (s : State) : State :=
  if s.phase = 2 then
    match s.gaffer.handoverAt with
    | some t => if t ≤ s.nowNs then s.put A.GAFFER_UPD_STAT F.GAFFER_UPD_STAT_PHASE 3 else s
    | none => s
  else if s.phase = 4 then
    s.put A.GAFFER_UPD_STAT F.GAFFER_UPD_STAT_PROB_LEFT (s.get A.GAFFER_UPD_STAT F.GAFFER_UPD_STAT_PROB_LEFT - 1)
  else s

/-- UPDATE_HANDOVER: the new image runs in the other bank and serves the requests held; probation begins, with the Jack cores
reloaded one at a time (R424). -/
def updateHandoverOp (s : State) : State :=
  if s.phase ≠ 3 then s
  else
    let bank := 1 - s.get A.GAFFER_BOOT_STAT F.GAFFER_BOOT_STAT_BANK
    let s := runImage (s.imageInfo 1) bank { s with gaffer := { s.gaffer with oldImage := s.gaffer.image } }
    let s := (s.put A.GAFFER_UPD_STAT F.GAFFER_UPD_STAT_PHASE 4).put A.GAFFER_UPD_STAT F.GAFFER_UPD_STAT_PROB_LEFT 1200
    let s := { s with gaffer := { s.gaffer with handoverAt := none, reversal := none, jackNew := List.range 8 } }
    mbxServe 3 (jackNext (s.raise P.GAFFER 4))

/-- UPDATE_CONFIRMED (R424). -/
def updateConfirmedOp (s : State) : State :=
  if s.phase ≠ 4 ∨ s.get A.GAFFER_UPD_STAT F.GAFFER_UPD_STAT_PROB_LEFT ≠ 0 ∨ s.gaffer.reversal.isSome then s
  else
    let recs := s.gaffer.migrated.getD []
    let s := slotState 1 3 (s.put A.GAFFER_UPD_STAT F.GAFFER_UPD_STAT_PHASE 0)
    let s := { s with gaffer := { s.gaffer with settings := parseRecords (recs.length / 8) recs, migrated := none } }
    (saveBegin s.gaffer.image.setVer recs s).raise P.GAFFER 5

/-- Answer every pending request FAILED. -/
def mbxFailAll : Nat → State → State
  | 0, s => s
  | n + 1, s => if s.gaffer.mbxQ.isEmpty then s else mbxFailAll n (mbxDone 5 [] 0 s)

/-- UPDATE_REVERSED: the old bank runs again from the boundary after the failure (R426). -/
def updateReversedOp (s : State) : State :=
  match s.gaffer.reversal with
  | none => s
  | some b =>
    if s.phase ≠ 4 ∨ s.time.bnds ≤ b then s
    else
      let s := runImage s.gaffer.oldImage (1 - s.get A.GAFFER_BOOT_STAT F.GAFFER_BOOT_STAT_BANK) s
      let s := slotState 1 4 (s.wr A.GAFFER_UPD_STAT (w32 (4 * 2 ^ 24)))
      let todo := s.gaffer.jackNew
      let again := (List.range 8).filter fun c => !todo.contains c || (todo.head? == some c && s.jackBusy c)
      let s := { s with gaffer := { s.gaffer with reversal := none, migrated := none, jackNew := again } }
      mbxFailAll 3 (jackNext (s.raise P.GAFFER 6))

/-- What an update still has to do of the boundary before, when the next one comes: the handover, whose 500 µs have passed, the reversal or the
confirmation (R424, R426). -/
def updateElapsed (s : State) : State := updateHandoverOp (updateConfirmedOp (updateReversedOp s))

/-- PROBATION_FAILURE (R426). -/
def probationFailureOp (s : State) : State := reversalDue s

/-- WATCHDOG_EXPIRE: a reversal in probation, and a warm reset otherwise (R426). -/
def watchdogOp (s : State) : State :=
  let s := (s.inc A.GAFFER_WDOG_CNT).raise P.GAFFER 8
  if s.phase = 4 then reversalDue s else restart causeWatchdog s

/-- A takeover or take-back involves the device: an update before the switch is aborted, one in probation reversed (R382, R425,
R426). -/
def updateTwin (s : State) : State :=
  if 1 ≤ s.phase ∧ s.phase ≤ 3 then updateAbort 3 s else reversalDue s

/-- A write of MBX_CFG: PORT 0 is rejected (R432). The doorbell: writing 1 submits MBX_REQ. -/
def doorbellWrite (v : Word) (s : State) : State :=
  if fget v F.GAFFER_MBX_DOORBELL_RING = 1 then mbxSubmit s.hostRequest s else s

/-! ### The HOST page (R433) -/

/-- PCIE_LINK_CHANGE. -/
def pcieLinkOp (up : Bool) (speed width : Nat) (s : State) : State :=
  (s.wr A.HOST_LINK_STAT (w32 (if up then 2 ^ 31 + speed % 16 * 65536 + width % 8 else 0))).raise P.HOST 0

/-- A correctable or uncorrectable PCIe error. -/
def pcieErrorOp (ue : Bool) (s : State) : State :=
  if ue then (s.inc A.HOST_UE_CNT).raise P.HOST 2 else (s.inc A.HOST_CE_CNT).raise P.HOST 1

/-- A TLP of the host takes an injected correctable error (R455). -/
def hostTlp (s : State) : State := if s.injArmed P.HOST 1 then pcieErrorOp false (s.injTake P.HOST 1) else s

/-- FLR: the host requester's VIEW and pair holds, and BAR2_BASE, are cleared, and nothing else (R433). -/
def flrOp (s : State) : State :=
  let keep (x : Nat × Word) : Bool :=
    !(x.1 % 4 == 0 && x.1 / 4 % 0x1000 == 0x00C) && !(x.1 % 2 == 0 && x.1 / 4 % 0x1000 == 1)
  let s := { s with rf := { s.rf with bank := s.rf.bank.filter keep } }
  ((s.wr64 A.HOST_BAR2_BASE_LO 0).inc A.HOST_FLR_CNT).raise P.HOST 3

end Sys2Proof.Machine
end

