-- ==== Sys2Proof/Machine/Guards.lean ====
section
/-!
DEFINITION. The checks of written words (R21): for every range-checked field of the register tables, whether it is clamped or
rejected, its limits, and the LAST_FIELD code and field bit its page gives it.
-/
namespace Sys2Proof.Machine

/-- LAST_FIELD code and field bit of a rejected write to a buffer field (R82); open where the page gives none (log entry 7). -/
def bufCode (a : Nat) : Nat × Option Nat :=
  match blkOf (a / 0x1000) with
  | some .rasterB => (0x17, some 3)
  | some .maps => (0x1B, some 3)
  | some .sched => if a = A.SCHED_STATE_BUF then (0x03, some 2) else (openCode a, none)
  | _ => (openCode a, none)

/-- A buffer field that names an EMPTY or FREE_PENDING buffer rejects the write (R82). -/
def bufChecks (s : State) (a : Nat) (w : Word) : List Chk :=
  let bad := (bufFields a).any fun f => fget w f != nullBuf && (s.bufState (fget w f) == 0 || s.bufState (fget w f) == 3)
  if (bufFields a).isEmpty then [] else [.rej bad (bufCode a).1 (bufCode a).2]

/-- A size of 0 is kept; 1 to 15 become 16, above 4,096 becomes 4,096 (R145). -/
def sizeChk (w : Word) (f : Fld) (code fbit : Nat) : Chk :=
  if fget w f = 0 then .clamp f 0 4096 code (some fbit) else .clamp f 16 4096 code (some fbit)

/-- A binary32 gain: negative, NaN and infinite values are rejected. -/
def gainBad (w : Word) : Bool := bitOf w 31 && w != 0x80000000 || fget w ⟨30, 23⟩ == 255

/-- CLK (R7). -/
def clkChecks (o : Nat) (w : Word) : List Chk :=
  if o = 0x084 then
    let d := fget w F.CLK_FREQ_SEL_DOMAIN
    let p := fget w F.CLK_FREQ_SEL_PORT
    [.rej (9 < d || (d == 7 && 63 < p) || (d == 8 && (p < 64 || 67 < p))) 0x01 (some 0)]
  else []

/-- SYS (R61). -/
def sysChecks (o : Nat) : List Chk :=
  if o = 0x098 then [.clamp F.SYS_COMMIT_CUTOFF_CUTOFF_US 10 1000 (openCode A.SYS_COMMIT_CUTOFF) none]
  else if o = 0x0AC then [.clamp F.SYS_FABRIC_TIMEOUT_TIMEOUT_US 4 1024 (openCode A.SYS_FABRIC_TIMEOUT) none]
  else []

/-- SCHED (R134). The ff of a TC_VAL write is judged by the RATE that stands in the shadow set, the one that the next epoch puts in force
beside the entry: the manual does not say which RATE judges it (DESIGN CHOICE, log entry 39). -/
def schedChecks (s : State) (o : Nat) (w : Word) : List Chk :=
  if o = 0x080 then [.clamp F.SCHED_CTRL_CLOSE_AT 64 248 0x01 (some 0)]
  else if o = 0x084 then [.clamp F.SCHED_AFF_WINDOW_NS 0 50000 0x02 (some 1)]
  else if o = 0x08C then [.rej s.schedEn 0x03 (some 2)]
  else if o = 0x090 then [.rej (fget w F.SCHED_TC_CTRL_SRC == 3) (openCode A.SCHED_TC_CTRL) none]
  else if 0x800 ≤ o ∧ o % 8 = 0 then
    [.rej (!bcdOk w (tcFps (fget (s.shd A.SCHED_TC_CTRL) F.SCHED_TC_CTRL_RATE))) 0x06 (some 5)]
  else []

/-- A flow context (R165). -/
def flowChecks (s : State) (o : Nat) (w : Word) : List Chk :=
  if o < 0x800 then []
  else
    match o % 0x80 with
    | 0x00 => [.rej (6 ≤ fget w F.FLOW_CFG_TYPE) 0x30 (some 0), .rej (fget w F.FLOW_CFG_POLICY == 3) 0x30 (some 0)]
    | 0x14 => [.rej (fget w F.FLOW_TIMEOUT_TIMEOUT_MS == 0) 0x31 (some 1)]
    | 0x20 => [sizeChk w F.FLOW_VSIZE_H 0x33 3, sizeChk w F.FLOW_VSIZE_W 0x33 3]
    | 0x24 => [.rej (2 ≤ fget w F.FLOW_VFMT_SAMPLING) 0x30 (some 0), .rej (fget w F.FLOW_VFMT_TRANSFER == 3) 0x30 (some 0),
               .clamp F.FLOW_VFMT_REF_WHITE 1 10000 0x32 (some 2)]
    | 0x28 => [.rej (gainBad w) 0x35 (some 5)]
    | 0x2C => [.clamp F.FLOW_BUF_NSLOT 2 4 0x32 (some 2)]
    | 0x30 | 0x34 | 0x38 | 0x3C =>
      [.rej (match s.buf (fget w ⟨11, 0⟩) with | some b => !b.hostfill | none => false) (openCode (A.FLOW_HOST_BUF0 0)) none]
    | _ => []

/-- SAMPLER (R166): MSRC_FMT follows VFMT, MSRC_SIZE follows VSIZE and MSRC_GAIN follows GAIN. -/
def samplerChecks (o : Nat) (w : Word) : List Chk :=
  if o < 0x100 ∨ 0x200 ≤ o then []
  else
    match o % 0x10 with
    | 0x0 => [sizeChk w F.FLOW_VSIZE_H 0x22 2, sizeChk w F.FLOW_VSIZE_W 0x22 2]
    | 0x4 => [.rej (2 ≤ fget w F.FLOW_VFMT_SAMPLING || fget w F.FLOW_VFMT_TRANSFER == 3) 0x22 (some 2),
              .clamp F.FLOW_VFMT_REF_WHITE 1 10000 0x22 (some 2)]
    | 0x8 => [.rej (gainBad w) 0x22 (some 2)]
    | _ => []

/-- MARVER (R184, R185). -/
def marverChecks (o : Nat) (w : Word) : List Chk :=
  if o = 0x080 then [.clamp F.MARVER_CTRL_PLAN_LIMIT 64 256 0x51 (some 1)]
  else if 0x100 ≤ o ∧ o % 0x10 = 0 then
    [.rej (6 ≤ fget w F.MARVER_LCFG_MODE ||
      (fget w F.MARVER_LCFG_MASK_EN == 1 && fget w F.MARVER_LCFG_MASK_LAYER == (o - 0x100) / 0x10)) 0x50 (some 0)]
  else []

/-- Whether a field of DIRECT_BASE names a buffer that rejects the write: one without HOSTFILL, or one that R82 refuses (R230). -/
def State.baseBad (s : State) (id : Nat) : Bool :=
  id != nullBuf && (match s.buf id with | some b => !b.hostfill || b.freePending | none => true)

/-- A scan engine (R218, R225, R230, R247 to R249). -/
def scanChecks (s : State) (a o : Nat) (w : Word) : List Chk :=
  if o = 0x080 then
    let act := nearest (fget w F.SCAN_CTRL_ACTIVE) 128 252
    [.rej (fget w F.SCAN_CTRL_CLASS == 0 && fget w F.SCAN_CTRL_SYNC == 1) 0x84 (some 4),
     .clamp F.SCAN_CTRL_ACTIVE 128 252 0x80 (some 0), .clamp F.SCAN_CTRL_UR_AT 64 (act - 4) 0x80 (some 0)]
  else if o = 0x088 then [.clamp F.SCAN_PERIOD_NS 4166667 41708333 0x81 (some 1)]
  else if o = 0x090 then [.clamp F.SCAN_LAMP_LATCH_NS 0 250000000 0x82 (some 2)]
  else if o = 0x08C then [.clamp F.SCAN_PHASE_NS 0 ((s.shd (a - 4)).toNat - 1) 0x81 (some 1)]
  else if o = 0x098 then
    let e := (a - 0xB0000) / 0x1000
    [.rej ((e % 2 == 1 && (s.lockOf s.act e).2) || s.baseBad (fget w F.SCAN_DIRECT_BASE_CUR) ||
      s.baseBad (fget w F.SCAN_DIRECT_BASE_DRV)) 0x84 (some 4)]
  else if 0x200 ≤ o ∧ o < 0x300 ∧ o % 0x20 = 0 then [.clamp F.SCAN_LMAP_LEN_LEN 0 4096 0x83 (some 3)]
  else if 0x200 ≤ o ∧ o < 0x300 ∧ o % 0x20 = 4 then [.clampS F.SCAN_LINK_TRIM_NS 10000 0x83 (some 3)]
  else if o = 0x800 then [.clamp F.SCAN0_LATCH_DELAY_NS 0 250000000 0x87 (some 7)]
  else if o = 0x808 then [.clamp F.SCAN0_ARRIVE_GUARD_US 0 10000 0x88 (some 8)]
  else []

/-- TUIPER (R296). -/
def tuiperChecks (o : Nat) (w : Word) : List Chk :=
  match o with
  | 0x080 => [.rej (fget w F.TUIPER_CTRL_ETYPE < 0x600) 0x90 (some 0)]
  | 0x084 => [.rej (!bitOf w 8) 0x90 (some 0)]
  | 0x08C => [.rej (fget w ⟨31, 28⟩ != 14 || fget w ⟨5, 0⟩ != 0) 0x90 (some 0)]
  | 0x090 => [.rej (fget w F.TUIPER_UDP_CFG_TTL == 0 || fget w F.TUIPER_UDP_CFG_PORT == 0) 0x90 (some 0)]
  | 0x094 => [.clamp F.TUIPER_TX_PAYLOAD_BYTES 256 9000 0x91 (some 1)]
  | 0x098 => [.clamp F.TUIPER_FLUSH_NS_NS 100 50000 0x91 (some 1)]
  | 0x0A0 => if fget w F.TUIPER_TEL_TIMEOUT_MS = 0 then [.rej true 0x91 (some 1)]
             else [.clamp F.TUIPER_TEL_TIMEOUT_MS 10 65535 0x91 (some 1)]
  | _ => []

/-- A port (R298, R329, R330). -/
def portChecks (fl : Bool) (o : Nat) (w : Word) : List Chk :=
  if o = 0x080 then [.clamp F.PORT_MAC_CTRL_MAX_FRAME 64 9216 0xB1 (some 1)]
  else if o = 0x084 then
    [.rej (fget w F.PORT_PHY_CFG_MODE == 3 || (fl && fget w F.PORT_PHY_CFG_MODE == 0 && fget w F.PORT_PHY_CFG_ADV == 0)) 0xB2 (some 2)]
  else if o = 0x08C then [.rej (bitOf w 8) 0xB0 (some 0)]
  else if 0x090 ≤ o ∧ o < 0x110 ∧ o % 8 = 4 then [.rej (bitOf w 31 && bitOf w 8) 0xB0 (some 0)]
  else if o = 0x150 then [.rej (fget w F.PORT_PAUSE_CFG_QUANTA == 0) 0xB2 (some 2)]
  else if o = 0x15C then [.clamp F.PORT_IPV4_CFG_PREFIX 0 32 0xB3 (some 3)]
  else if o = 0x280 ∧ fl then [.clamp F.PORT_PREEMPT_CFG_VERIFY_MS 1 128 0xB3 (some 3)]
  else if o = 0x298 ∧ fl then
    [.rej (fget w F.PORT_RATE_CFG_RATE_MIN == 0 || 3 < fget w F.PORT_RATE_CFG_RATE_MIN || fget w F.PORT_RATE_CFG_REST_WINDOW == 0)
      0xB4 (some 4)]
  else []

/-- A cullet queue: LOW_WM stays below HIGH_WM (R324). -/
def qChecks (s : State) (a o : Nat) : List Chk :=
  if o = 0x08C then [.clamp F.Q_LOW_WM_WORDS 0 (fget (s.shd (a - 4)) F.Q_HIGH_WM_WORDS - 1) 0xC1 (some 1)] else []

/-- DMX (R326, R332). -/
def dmxChecks (s : State) (a o : Nat) (w : Word) : List Chk :=
  if o < 0x100 ∨ 0x500 ≤ o then []
  else
    match o % 0x40 with
    | 0x00 => [.rej (2 ≤ fget w F.DMX_CFG_DIR || fget w F.DMX_CFG_SPC == 0 || 4 < fget w F.DMX_CFG_SPC ||
                     fget w F.DMX_CFG_SLOTS == 0) 0xD0 (some 0),
               .clamp F.DMX_CFG_SLOTS 0 512 0xD1 (some 1)]
    | 0x08 =>
      let brk := max 92 (fget w F.DMX_TIMING_BREAK_US)
      let mab := max 12 (fget w F.DMX_TIMING_MAB_US)
      let least := max (brk + mab + (fget (s.shd (a - 8)) F.DMX_CFG_SLOTS + 1) * 44) 1204
      [.clamp F.DMX_TIMING_BREAK_US 92 255 0xD1 (some 1), .clamp F.DMX_TIMING_MAB_US 12 255 0xD1 (some 1),
       .repl F.DMX_TIMING_REFRESH_US (fget w F.DMX_TIMING_REFRESH_US < least) least 0xD2 (some 2)]
    | 0x0C => [.clamp F.DMX_IN_CFG_IDLE_END_US 50 10000 0xD1 (some 1), .clamp F.DMX_IN_CFG_GLITCH_NS 0 1000 0xD1 (some 1)]
    | 0x10 => [.rej (fget w F.DMX_TIMEOUT_TIMEOUT_MS == 0) 0xD0 (some 0)]
    | 0x14 => [.rej (fget w F.DMX_SAFE_POLICY == 3) 0xD0 (some 0)]
    | _ => []

/-- TIME (R358). -/
def timeChecks (o : Nat) (w : Word) : List Chk :=
  match o with
  | 0x084 => [.rej (fget w F.TIME_GAIN_KP == 0) 0xE0 (some 0)]
  | 0x088 => [.clamp F.TIME_MAX_SLEW_PPB 1000 200000 (openCode A.TIME_MAX_SLEW) none]
  | 0x08C => [.rej (fget w F.TIME_LOCK_STEP_US == 0) 0xE0 (some 0), .clamp F.TIME_LOCK_LOCK_NS 50 65535 0xE0 (some 0)]
  | 0x100 => [.rej (fget w F.TIME_FM_CFG_MPD_AGE_S == 0) 0xE1 (some 1), .clamp F.TIME_FM_CFG_SYNC_LOG 0 4 0xE1 (some 1)]
  | 0x104 => [.clamp F.TIME_MPD_SPREAD_NS 50 65535 0xE1 (some 1)]
  | 0x180 => [.rej (70 < fget w F.TIME_TSQ_SEL_PORT) 0xE3 (some 3)]
  | _ => []

/-- PTP (R359). -/
def ptpChecks (o : Nat) (w : Word) : List Chk :=
  if o = 0x080 then [.rej (fget w F.PTP_CTRL_GOV == 3) 0xE8 (some 0)]
  else if o = 0x100 ∨ o = 0x180 then
    [.rej (fget w F.PTP_CFG_TRANSPORT == 3 || 127 < fget w F.PTP_CFG_DOMAIN) 0xE8 (some 0),
     .clamp F.PTP_CFG_ANN_TO 2 10 0xE8 (some 0)]
  else []

/-- TRIG (R355, R360). -/
def trigChecks (s : State) (a o : Nat) (w : Word) : List Chk :=
  if 0x100 ≤ o ∧ o < 0x300 then
    match o % 0x20 with
    | 0x00 => [.rej (5 ≤ fget w F.TRIG_TCFG_MODE) 0xF0 (some 0)]
    | 0x0C => [.rej (999999999 < fget w F.TRIG_START_NS_NS) 0xF0 (some 0)]
    | 0x10 => [.clamp F.TRIG_PERIOD_NS_NS 1000 (2 ^ 32 - 1) 0xF1 (some 1)]
    | 0x18 => [.clamp F.TRIG_WIDTH_NS 8 ((s.shd (a - 8)).toNat - 4) 0xF1 (some 1)]
    | _ => []
  else if 0x400 ≤ o ∧ o < 0x500 ∧ o % 0x20 = 0 then
    [.rej (fget w F.TRIG_CCFG_EDGE == 0) 0xF2 (some 2), .clamp F.TRIG_CCFG_GLITCH_NS 0 1000 0xF2 (some 2)]
  else []

/-- SYNC (R349, R351, R361). PHASE stays below the period of the RATE staged with it. -/
def syncChecks (s : State) (o : Nat) (w : Word) : List Chk :=
  match o with
  | 0x080 => [.rej (fget w F.SYNC_CTRL_SRC == 3) 0xF8 (some 0)]
  | 0x084 =>
    let n := fget w F.SYNC_RATE_NUM
    let d := fget w F.SYNC_RATE_DEN
    [.rej (d == 0 || n * 1001 < 24000 * d || 240 * d < n) 0xF8 (some 0)]
  | 0x088 =>
    let n := fget (s.shd A.SYNC_RATE) F.SYNC_RATE_NUM
    let d := fget (s.shd A.SYNC_RATE) F.SYNC_RATE_DEN
    [.clamp F.SYNC_PHASE_NS 0 ((d * 10 ^ 9 + n - 1) / n - 1) 0xF9 (some 1)]
  | 0x08C => [.clamp F.SYNC_PULL_NS_NS 1 1000000 0xF9 (some 1)]
  | 0x0C0 => [.clamp F.SYNC_GL_CFG_GL_GLITCH_NS 0 1000 0xFA (some 2), .clamp F.SYNC_GL_CFG_TOL_NS 100 65535 0xFA (some 2)]
  | 0x0C4 => [.clamp F.SYNC_GL_OFFSET_NS 0 41708333 0xF9 (some 1)]
  | 0x0C8 => [.rej (fget w F.SYNC_GL_TIMEOUT_POLICY != 0 || fget w F.SYNC_GL_TIMEOUT_GL_TIMEOUT_MS == 0) 0xFA (some 2)]
  | 0x100 => [.clamp F.SYNC_LTC_CFG_LTC_FLY 0 8 0xFB (some 3), .clamp F.SYNC_LTC_CFG_LTC_GLITCH_NS 0 10000 0xFB (some 3)]
  | 0x104 => [.rej (fget w F.SYNC_LTC_TIMEOUT_POLICY != 0 || fget w F.SYNC_LTC_TIMEOUT_LTC_TIMEOUT_MS == 0) 0xFB (some 3)]
  | _ => []

/-- TWIN (R384). -/
def twinChecks (o : Nat) (w : Word) : List Chk :=
  match o with
  | 0x080 => [.rej (fget w F.TWIN_CTRL_EN == 1 && fget w F.TWIN_CTRL_PAIR_ID == 0) 0x60 (some 0)]
  | 0x088 => [.clamp F.TWIN_WAIT_SEEK_MS 100 60000 0x61 (some 1), .clamp F.TWIN_WAIT_HEAD_WAIT_US 5 200 0x61 (some 1)]
  | 0x08C => [.clamp F.TWIN_FAIL_FAIL_MISS 1 8 0x61 (some 1), .clamp F.TWIN_FAIL_BND_TOL_NS 100 50000 0x61 (some 1)]
  | 0x090 => [.rej (fget w F.TWIN_PUNTY_LINKS == 0 || fget w F.TWIN_PUNTY_ETYPE < 0x600) 0x60 (some 0)]
  | _ => []

/-- LEHR (R406). -/
def lehrChecks (o : Nat) (w : Word) : List Chk :=
  if o = 0x080 then
    [.clamp F.LEHR_CTRL_D_MAX 0 32 0x65 (some 1), .clamp F.LEHR_CTRL_D_MIN 1 16 0x65 (some 1),
     .clamp F.LEHR_CTRL_SLOPE 1 16 0x65 (some 1), .clamp F.LEHR_CTRL_RSLOPE 1 16 0x65 (some 1)]
  else if o = 0x084 then
    let shut := min 110 (fget w F.LEHR_LEVELS_SHUTDOWN)
    [.rej (fget w F.LEHR_LEVELS_THROTTLE < fget w F.LEHR_LEVELS_WARN || shut ≤ fget w F.LEHR_LEVELS_THROTTLE) 0x64 (some 0),
     .clamp F.LEHR_LEVELS_SHUTDOWN 0 110 (openCode A.LEHR_LEVELS) none, .clamp F.LEHR_LEVELS_HYST 1 10 (openCode A.LEHR_LEVELS) none]
  else if o = 0x088 then [.clamp F.LEHR_RISE_RISE_LIMIT 1 200 0x65 (some 1)]
  else if 0x100 ≤ o ∧ o < 0x180 ∧ o % 0x10 = 4 then [.clamp F.LEHR_CL_CFG_FAIL_MARGIN 1 30 0x65 (some 1)]
  else []

/-- The checks of a word written to the register at an address, in the state it is written in (R21). -/
def checksOf (s : State) (a : Nat) (w : Word) : List Chk :=
  let o := a % 0x1000
  if o < 0x80 then (if o = 0x00C then [.rej (fget w ⟨1, 0⟩ == 3) (openCode 0x00C) none] else [])
  else bufChecks s a w ++
    match blkOf (a / 0x1000) with
    | some .clk => clkChecks o w
    | some .sys => sysChecks o
    | some .keep => if o = 0x08C then [.clamp F.KEEP_TAMPER_CFG_GLITCH_US 1 65535 0x02 (some 0)] else []
    | some .gaffer => if o = 0x0B0 then [.rej (fget w F.GAFFER_MBX_CFG_PORT == 0) 0x09 (some 1)] else []
    | some .lease => if o = 0x080 then [.rej (fget w ⟨11, 0⟩ == nullBuf) (openCode A.LEASE_BUF_SEL) none] else []
    | some .rasterB =>
      if 0x100 ≤ o ∧ o < 0x140 then
        [.clamp F.RASTER_LAYER_EXT_H 0 4096 0x16 (some 2), .clamp F.RASTER_LAYER_EXT_W 0 4096 0x16 (some 2)] else []
    | some .maps => if o = 0x080 then [.rej (!s.mapSetOk w) 0x1B (some 3)] else []
    | some .sched => schedChecks s o w
    | some .flow => flowChecks s o w
    | some .sampler => samplerChecks o w
    | some .marver => marverChecks o w
    | some .solver => if o = 0x080 then [.clamp F.SOLVER_CTRL_SOLVE_LIMIT 64 256 0x70 (some 0)] else []
    | some .cloop => if o = 0x080 then [.clamp F.CLOOP_CTRL_TAU_S 1 60 0x78 (some 0)] else []
    | some .scan => scanChecks s a o w
    | some .tuiper => tuiperChecks o w
    | some .fl => portChecks true o w
    | some .sp | some .pl | some .mg => portChecks false o w
    | some .q => qChecks s a o
    | some .dmx => dmxChecks s a o w
    | some .time => timeChecks o w
    | some .ptp => ptpChecks o w
    | some .trig => trigChecks s a o w
    | some .sync => syncChecks s o w
    | some .twin => twinChecks o w
    | some .lehr => lehrChecks o w
    | some .cal =>
      if o = 0x08C then [.clampS F.CAL_REF_PPB_PPB 100000 0x7D (some 1)]
      else if o = 0x0A0 then [.clamp F.CAL_RES_LIMIT_MC 50 5000 0x7D (some 1)] else []
    | some .lane => if o = 0x098 then [.clamp F.LANE_EYE_MIN_W 0 64 0x98 (some 0)] else []
    | some .glory => if o = 0x080 then [.clamp F.GLORY_CTRL_BUDGET_US 10 1000 0x68 (some 0)] else []
    | some .debug =>
      if o = 0x080 then [.rej (bitOf w 31 && !s.mayInject) 0x6C (some 0)]
      else if o = 0x088 then [.clamp F.DEBUG_FRZ_CFG_GLITCH_NS 20 1000 0x6D (some 1)] else []
    | _ => []

end Sys2Proof.Machine
end

