-- ==== Sys2Proof/Machine/Epoch.lean ====
section
/-!
DEFINITION. Commit epochs, snapshots, withdrawal and return of pages, and their reset (R32 to R43, R56, R57, R383, R404, R427, R428,
R479).
-/
namespace Sys2Proof.Machine

/-! ### Commit (R35 to R38) -/

/-- The number of the next boundary: the first after reset is 0 (R61). -/
def State.nextFrame (s : State) : Nat := if s.time.bnds = 0 then 0 else (s.frameNum + 1) % 2 ^ 32

/-- A COMMIT write is rejected with a reason (R35). It is no guard action of the SYS page: R35 names REASON and the event alone
(DESIGN CHOICE, log entry 39). -/
def commitReject (reason : Nat) (s : State) : State := (s.put A.SYS_COMMIT_STAT ⟨29, 28⟩ reason).raise P.SYS 2

/-- Whether an epoch is sealed and waits for its boundary. -/
def State.epochWaits (s : State) : Bool := s.commit.sealing || s.commit.waitFrame.isSome

/-- Every page's SHADOW_DIRTY clears. -/
def dirtyClear (s : State) : State := allPages.foldl (fun t p => t.wr (H.SHADOW_DIRTY p) 0) s

/-- The entries of `a` on pages that meet `f`, and those of `b` on the others. -/
def mapPick {α : Type} (f : Nat → Bool) (a b : AMap α) : AMap α :=
  (b.filter fun x => !f (x.1 / 0x1000)).foldl (fun m x => amIns m x.1 x.2) (a.filter fun x => f (x.1 / 0x1000))

/-- The seal reaches the pages `ps`: each copies its shadow set into its pending set (R36). -/
def pagesSeal (ps : List Nat) (s : State) : State :=
  let s := ps.foldl (fun t p => (t.wr (H.SHADOW_DIRTY p) 0).put (H.PAGE_STAT p) ⟨27, 27⟩ 1) s
  let s := { s with rf := { s.rf with pend := mapPick (fun p => ps.contains p) s.rf.shadow s.rf.pend } }
  if ps.contains P.TRIG then { s with time := { s.time with trigP := s.time.trigW, trigW := [] } } else s

/-- The offset of a seal among the accesses that wait at a crossing: it lies beyond every register. -/
def sealMark : Nat := 0x1000

/-- Whether a write of a requester, or a seal behind one, waits at a page's crossing. -/
def State.writeWaits (s : State) (r : Req) (p : Nat) : Bool := s.commit.waiting.any fun y => y.page == p && y.isWrite && y.r == r

/-- Whether the seal still waits at a page's crossing. -/
def State.sealWaits (s : State) (p : Nat) : Bool := s.commit.waiting.any fun y => y.page == p && y.off == sealMark

/-- The seal of epoch `n` (R36). It reaches a page behind the writes of the same requester that wait at the page's crossing, and every
other page at once. -/
def sealEpoch (r : Req) (n : Word) (s : State) : State :=
  let behind := allPages.filter fun p => s.writeWaits r p
  let s := pagesSeal (allPages.filter fun p => !s.writeWaits r p) s
  let s := (s.wr A.SYS_COMMIT n).put A.SYS_COMMIT_STAT ⟨31, 31⟩ 1
  { s with
    commit := { s.commit with acksLeft := allPages, sealing := true, pendEpoch := n.toNat
                              waiting := s.commit.waiting ++ behind.map fun p => ⟨r, p, sealMark, true, 0⟩ } }

/-- A write of SYS.COMMIT (R35, R418): NOT_READY, BUSY, NUMBER, or the seal. -/
def commitWrite (r : Req) (n : Word) (s : State) : State :=
  if r = .host ∧ s.stage ≠ 2 then commitReject 3 s
  else if s.epochWaits then commitReject 1 s
  else if n ≠ s.rd A.SYS_EPOCH_APPLIED + 1 then commitReject 2 s
  else sealEpoch r n s

/-- The commit completes: the boundary of application is chosen by COMMIT_CUTOFF (R37). -/
def commitComplete (s : State) : State :=
  let cut : Rat := ((s.actF A.SYS_COMMIT_CUTOFF F.SYS_COMMIT_CUTOFF_CUTOFF_US * 1000 : Nat) : Rat)
  let now : Rat := ((s.time.t : Nat) : Rat) / ((2 ^ 32 : Nat) : Rat)
  let late := decide (s.nextBoundary.1 - now ≤ cut)
  let due := if late then (s.nextFrame + 1) % 2 ^ 32 else s.nextFrame
  let s := { s with commit := { s.commit with sealing := false, waitFrame := some due } }
  ((s.wr schedFrameAt (w32 due)).put A.SYS_COMMIT_STAT ⟨30, 30⟩ late.toNat).raiseIf late P.SYS 1

/-- The buffer that an epoch newly names in a buffer register, where it does. -/
def State.newBuf (s : State) (a : Nat) : Option Nat :=
  let b := fget (s.pnd a) ⟨11, 0⟩
  if b = s.actF a ⟨11, 0⟩ ∨ b = nullBuf then none else some b

/-- A state store that is too short for its blocks is clipped (R78, R101). -/
def stateClip (s : State) : State :=
  match s.newBuf A.SCHED_STATE_BUF with
  | some b => if s.bufSize b < 0x40000 then s.guard1 P.SCHED 29 (openCode A.SCHED_STATE_BUF) none else s
  | none => s

/-- A spill buffer beyond what a queue uses of it is clipped (R78, R318). -/
def spillClip (q : Nat) (s : State) : State :=
  match s.newBuf (A.Q_SPILL_BUF q) with
  | some b => if maxSpill < s.bufSize b then s.guard1 (P.Q q) 29 0xC2 (some 2) else s
  | none => s

/-- The checks a page makes before it acknowledges a seal (R37, R78, R97, R291, R398). -/
def sealCheck (p : Nat) (s : State) : State :=
  match blkOf p with
  | some .sched => stateClip (tableCheck s)
  | some .sets => setsCheck s
  | some .lehr => derCopy s
  | some .q => spillClip (p - 0x150) s
  | _ => s

/-- PAGE_SEAL_ACK: a page that the seal has reached acknowledges it; the last completes the commit. -/
def sealAckOp (p : Nat) (s : State) : State :=
  if s.commit.sealing ∧ s.commit.acksLeft.contains p ∧ !s.sealWaits p then
    let s := sealCheck p s
    let left := s.commit.acksLeft.filter (· != p)
    let s := { s with commit := { s.commit with acksLeft := left } }
    if left.isEmpty then commitComplete s else s
  else s

/-- The newest sealed values (R33): the pending set while an epoch waits, and otherwise the active set, which on a page that missed its
epoch is the set of the epoch in force that it has still to load (R39). -/
def State.sealedSet (s : State) : AMap Word :=
  if s.commit.waitFrame.isSome then s.rf.pend
  else mapPick (fun p => bitOf (s.rd (H.PAGE_STAT p)) 25) s.rf.force s.rf.active

/-- SHADOW_CTRL.REVERT: the newest sealed values are copied into every shadow set; rejected while an epoch is being sealed (R33,
R61). -/
def revertOp (s : State) : State :=
  if s.commit.sealing then s.guard1 P.SYS 31 (openCode A.SYS_SHADOW_CTRL) none
  else
    let t := dirtyClear s
    { t with rf := { t.rf with shadow := s.sealedSet }
             time := { t.time with trigW := [] } }

/-! ### Applying an epoch (R38, R39) -/

/-- Whether EPOCH_SEEN of a page follows the boundary itself; the solver, the colour loop and the scan engines take an epoch when
they begin a frame (R14). -/
def seenAtBoundary (p : Nat) : Bool :=
  !(p == P.SOLVER || p == P.CLOOP || (decide (0xB0 ≤ p) && decide (p < 0xB8)))

/-- A port disabled by an epoch drops the frames it holds (R301). -/
def portDisable (p : Nat) (s : State) : State :=
  if s.actF (A.PORT_MAC_CTRL p) F.PORT_MAC_CTRL_EN = 0 then discardWaiting p false s else s

/-- What an epoch does in the scan engines' pages. -/
def scanEpoch (s : State) : State := lmapEpoch (lockEpoch s)

/-- What an epoch does in a port's page. -/
def portEpoch (p : Nat) (s : State) : State :=
  let s := portFault p (portDisable p s)
  let s := if p < 64 then preemptEpoch p s else s
  if p = 68 ∨ p = 69 then twinLinks s else s

/-- What an epoch does in the TUIPER page: the fixtures with faults are counted anew, and with Tuiper enabled the frames that waited for it
may begin (R289, R296). -/
def tuiperEpoch (s : State) : State :=
  let s := faultsRecount s
  if s.tuiperOn then (List.range 64).foldl (fun t p => portKick p t) s else s

/-- What an epoch that a page has taken does in its block. -/
def pageEpoch (p : Nat) (s : State) : State :=
  match blkOf p with
  | some .rasterB | some .maps => rasterEpoch s
  | some .sched => schedEpoch s
  | some .bench => schedKick s
  | some .ingest | some .flow => groupsEpoch (ingestEpoch s)
  | some .scan => scanEpoch s
  | some .tuiper => tuiperEpoch s
  | some .sets => setsEpoch s
  | some .fl | some .sp | some .pl | some .mg => portEpoch (p - 0x100) s
  | some .lane => if p - 0x1A0 < 70 then portFault (p - 0x1A0) s else s
  | some .dmx => dmxUniverse s.frameNum (dmxEpoch s)
  | some .q => xoffSync s
  | some .time | some .ptp => timeEpoch s
  | some .trig => trigEpoch s
  | some .sync => srcSync s
  | some .twin => twinEpoch s
  | some .lehr => lehrEpoch s
  | some .cal => calEpoch s
  | _ => s

/-- The blocks' work at the boundary of an epoch, each block once. A page that misses the epoch does its part when it returns (R39). -/
def epochEffects (s : State) : State :=
  let several (p : Nat) : Bool := p == P.RASTER || p == P.INGEST || p == P.SCAN 0
  let s := [P.RASTER, P.SCHED, P.INGEST, P.SCAN 0, P.TUIPER, P.SETS, P.DMX, P.TIME, P.TRIG, P.SYNC, P.TWIN, P.LEHR, P.CAL].foldl
    (fun t p => if several p || t.inService p then pageEpoch p t else t) s
  let s := (List.range 71).foldl (fun t p => portEpoch p t) s
  let s := (List.range 70).foldl (fun t l => eyeCurrent l t) s
  xoffSync s

/-- EPOCH_APPLY at the chosen boundary (R38, R39): pages in service take their pending sets; the others miss the epoch. -/
def epochApplyOp (s : State) : State :=
  if s.time.bnds = 0 ∨ s.commit.waitFrame ≠ some s.frameNum then s
  else
    let up := s.inService
    let out := allPages.filter fun p => !up p
    let n := w32 s.commit.pendEpoch
    let s := { s with
      rf := { s.rf with active := mapPick up s.rf.pend s.rf.active, force := s.rf.pend }
      commit := { s.commit with waitFrame := none } }
    let s := (allPages.filter fun p => up p).foldl (fun t p =>
      let t := t.put (H.PAGE_STAT p) ⟨27, 27⟩ 0
      if seenAtBoundary p then t.wr (H.EPOCH_SEEN p) n else t) s
    let s := out.foldl (fun t p => (t.put (H.PAGE_STAT p) ⟨25, 25⟩ 1).raise P.SYS 4) s
    let s := (s.wr A.SYS_EPOCH_APPLIED n).wr A.SYS_EPOCH_FRAME (w32 s.frameNum)
    let s := (s.put A.SYS_COMMIT_STAT ⟨31, 31⟩ 0).put A.SYS_COMMIT_STAT ⟨15, 0⟩ out.length
    epochEffects (s.raise P.SYS 0)

/-! ### Snapshots (R42, R43) -/

/-- A request for a snapshot; one made while another waits merges with it. -/
def snapRequest (s : State) : State :=
  if s.get A.SYS_SNAP F.SYS_SNAP_REQ = 1 then s.put (H.EVT_MERGED P.SYS) ⟨3, 3⟩ 1 else s.put A.SYS_SNAP F.SYS_SNAP_REQ 1

/-! ### Withdrawal and return (R383, R404, R427, R428) -/

/-- A withdrawal that is never acted upon. -/
def wdRefuse (p : Nat) (s : State) : State := (s.wr A.GAFFER_WD_LAST (w32 p)).raise P.GAFFER 7

/-- A withdrawal that the pair does not allow. -/
def wdTwin (s : State) : State := s.raise P.TWIN 9

/-- Whether a punty port is the last punty link that is up while the device is paired (R383). -/
def State.lastPunty (s : State) (k : Nat) : Bool := decide (1 < s.twinSt) && s.puntyUp == [k]

/-- A page leaves service: PAGE_STAT.OFFLINE rises. -/
def goOffline (p : Nat) (s : State) : State :=
  { s with commit := { s.commit with withdrawing := s.commit.withdrawing.filter (· != p) } }.put (H.PAGE_STAT p) ⟨29, 29⟩ 1

/-- A port's link goes down with its page or its lane. -/
def portGoesOut (p : Nat) (s : State) : State :=
  let s := if s.linkUp p then linkIsDown p s else discardWaiting p true s
  if p = 68 ∨ p = 69 then twinLinkDown s else s

/-- Whether an engine carries no engine frame. -/
def State.carriageOver (s : State) (e : Nat) : Bool :=
  match (s.engine e).cur with
  | some f => f.carried
  | none => true

/-- A withdrawal that waits takes effect once the bench's job has finished, or the engine's carriage has ended. -/
def withdrawNow (p : Nat) (s : State) : State :=
  if !s.commit.withdrawing.contains p then s
  else
    match blkOf p with
    | some .bench => if (s.bench (p - 0x40)).job.isNone then goOffline p s else s
    | some .scan =>
      if s.carriageOver (p - 0xB0) then engineAbort (p - 0xB0) (goOffline p s) else s
    | _ => s

/-- PAGE_CTRL.WITHDRAW = 1 (R427). -/
def withdrawOp (p : Nat) (s : State) : State :=
  let s := { s with commit := { s.commit with returning := s.commit.returning.filter (· != p)
                                              returnDue := s.commit.returnDue.filter (· != p) } }
  if s.offline p then s
  else
    match blkOf p with
    | some .bench | some .scan =>
      withdrawNow p { s with commit := { s.commit with withdrawing := p :: s.commit.withdrawing.filter (· != p) } }
    | some .fl | some .sp | some .mg => portGoesOut (p - 0x100) (goOffline p s)
    | some .pl => if s.lastPunty (p - 0x144) then wdTwin s else portGoesOut (p - 0x100) (goOffline p s)
    | some .lane =>
      if decide (0x1A0 + 68 ≤ p) && s.lastPunty (p - 0x1A0 - 68) then wdTwin s
      else portGoesOut (p - 0x1A0) (goOffline p s)
    | some .q | some .dmx => goOffline p s
    | some .twin => if 1 < s.twinSt then wdTwin s else goOffline p s
    | _ => wdRefuse p s

/-- PAGE_CTRL.WITHDRAW = 0 (R428, R435, R440): the block returns at the next boundary; a waiting slice request is cancelled and a
slice in progress ends for service. -/
def returnOp (p : Nat) (s : State) : State :=
  let s := s.put (H.ST_CTRL p) ⟨0, 0⟩ 0
  let s := sliceStopOn .service p s
  let s := { s with commit := { s.commit with withdrawing := s.commit.withdrawing.filter (· != p) } }
  if s.offline p then { s with commit := { s.commit with returning := p :: s.commit.returning.filter (· != p) } } else s

/-- Whether a lane waits for the boundary at which its calibration results take effect (R404). -/
def State.laneWaits (s : State) (p : Nat) : Bool :=
  blkOf p == some .lane && s.get (A.LANE_STAT (p - 0x1A0)) F.LANE_STAT_PENDING == 1

/-- PAGE_RETURN_TO_SERVICE, at a boundary after the return, while the page's clock runs: the page loads the set of the epoch in force, clears EPOCH_MISSED and resumes work (R39, R428). -/
def pageReturnOp (p : Nat) (s : State) : State :=
  if !s.commit.returnDue.contains p || s.commit.stopped.contains p || s.laneWaits p then s
  else
    let s := { s with commit := { s.commit with returning := s.commit.returning.filter (· != p)
                                                returnDue := s.commit.returnDue.filter (· != p) } }
    let missed := bitOf (s.rd (H.PAGE_STAT p)) 25
    let s := if missed then
        let s := { s with rf := { s.rf with active := mapPick (· == p) s.rf.force s.rf.active } }
        let s := if s.epochWaits then s else s.put (H.PAGE_STAT p) ⟨27, 27⟩ 0
        if seenAtBoundary p then s.wr (H.EPOCH_SEEN p) (s.rd A.SYS_EPOCH_APPLIED) else s
      else s
    let s := (s.put (H.PAGE_STAT p) ⟨25, 25⟩ 0).put (H.PAGE_STAT p) ⟨29, 29⟩ 0
    pageEpoch p (repairsApply p s)

/-! ### Reset of a block (R479) -/

/-- A page's crossing is clear: nothing abandoned waits in it (R57). A clock that is stopped stays so. -/
def crossingClear (p : Nat) (s : State) : State :=
  let s := { s with commit := { s.commit with stalled := s.commit.stalled.filter (· != p) } }
  s.put (H.PAGE_STAT p) ⟨28, 28⟩ 0

/-- PAGE_CTRL.PAGE_RST = 1: the block and its crossing are reset; PAGE_RST reads 1 until it has finished. -/
def pageRstOp (p : Nat) (s : State) : State :=
  let s := s.put (H.PAGE_CTRL p) ⟨31, 31⟩ 1
  let s := sliceStopOn .other p s
  faultSync p (blockWork p (blockStatus p (crossingClear p s)))

end Sys2Proof.Machine
end

