-- ==== Sys2Proof/Machine/Access.lean ====
section
/-!
DEFINITION. Access to the register space (R27 to R34, R48, R49, R53, R56, R57): reads and writes of a register by its access type,
the registers that act when they are read or written, the crossing of a page, and injections (R454, R455).
-/
namespace Sys2Proof.Machine

/-! ### Register kinds (R30) -/

/-- Whether a register is shadowed. -/
def RegDef.isRws (d : RegDef) : Bool := d.fields.any fun f => f.acc == .rws

/-- Whether no field of a register can be written. -/
def RegDef.readOnly (d : RegDef) : Bool := d.fields.all fun f => f.acc == .ro || f.acc == .rc

/-- Whether a register is a status register, which the VIEW selects (R34). -/
def RegDef.isStatus (d : RegDef) : Bool := d.fields.all fun f => f.acc == .ro || f.acc == .rc || f.acc == .w1c

/-- A word with the written bits of RW, RWI and RWS fields taken over, and W1C fields cleared by the ones written. -/
def RegDef.merge (d : RegDef) (old w : Word) : Word :=
  d.fields.foldl (fun (v : Word) f =>
    let p : Fld := ⟨f.hi, f.lo⟩
    match f.acc with
    | .rw | .rwi | .rws => fput v p (fget w p)
    | .w1c => v &&& ~~~ (fput 0 p (fget w p))
    | _ => v) old

/-- A word with its RC fields cleared. -/
def RegDef.rcCleared (d : RegDef) (w : Word) : Word :=
  d.fields.foldl (fun (v : Word) f => if f.acc == .rc then fput v ⟨f.hi, f.lo⟩ 0 else v) w

/-- A word with only the fields that a read returns: WO fields and W1S command bits read 0. -/
def RegDef.shown (d : RegDef) (w : Word) : Word :=
  d.fields.foldl (fun (v : Word) f => if f.acc == .wo then fput v ⟨f.hi, f.lo⟩ 0 else v) w

/-! ### Reads -/

/-- The view a requester has chosen for a page (R34): 0 ACTIVE, 1 SHADOW, 2 SNAP. -/
def State.viewOf (s : State) (r : Req) (p : Nat) : Nat := fget (s.bank (H.PAGE_CTRL p) 0 r) ⟨1, 0⟩

/-- Registers kept per requester (R61, R93, R134, R297, R331, R358, R456). -/
def isBanked (a : Nat) : Bool :=
  [A.LEASE_BUF_SEL, A.LEASE_BUF_BASE, A.LEASE_BUF_SIZE, A.LEASE_BUF_ATTR, A.LEASE_BUF_RESULT, A.LEASE_BUF_WGEN, A.LEASE_BUF_REFS,
   A.SCHED_SLOT_RESULT, A.SETS_RESULT, A.TIME_TSQ_SEL, A.GLORY_INFO_SEL, A.SYS_SHADOW_CTRL].contains a ||
    (blkOf (a / 0x1000) == some .q && (a % 0x1000 == 0x09C || a % 0x1000 == 0x0A0))

/-- A read that removes what it returns (R93, R289, R295, R321, R357, R358, R434); none for every other register. -/
def takeReg (r : Req) (a : Nat) (s : State) : Option (Word × State) :=
  if a = A.LEASE_FREE_DONE then some (freeDoneTake s)
  else if a = A.TUIPER_FAULT_Q then some (faultQTake s)
  else if a = A.SETS_TRANS_Q then some (transQTake s)
  else if a = A.TIME_TSQ_POP then some (tsqTake r s)
  else if a = A.KEEP_LOG0 then some (log0Take s)
  else
    match blkOf (a / 0x1000) with
    | some .q =>
      if a % 0x1000 = 0x098 then
        let x := queuePop r (a / 0x1000 - 0x150) s
        some (x.1, xoffSync x.2)
      else none
    | some .trig =>
      if 0x400 ≤ a % 0x1000 ∧ a % 0x1000 < 0x500 ∧ a % 0x20 = 4 then some (captureTake ((a % 0x1000 - 0x400) / 0x20) s) else none
    | _ => none

/-- GLORY.INFO of the page a requester has selected (R437). -/
def State.gloryInfo (s : State) (r : Req) : Word :=
  let p := fget (s.bank A.GLORY_INFO_SEL 0 r) ⟨11, 0⟩
  if (blkOf p).isSome then w32 (memCount p * 2 ^ 16 + logicCount p * 2 ^ 8 + marchCount p) else 0

/-- Which word offset 0x08C of SYS returns to a requester, by its STAT_SEL (R61). -/
def State.commitStatAt (s : State) (r : Req) : Nat := if bitOf (s.bank A.SYS_SHADOW_CTRL 0 r) 1 then schedFrameAt else A.SYS_COMMIT_STAT

/-- The value in force of a register that is not shadowed, as a requester reads it. -/
def State.liveVal (s : State) (r : Req) (d : RegDef) (a : Nat) : Word :=
  if isBanked a then s.bank a 0 r
  else if a % 0x1000 = 0x00C then fput (s.rd a) ⟨1, 0⟩ (s.viewOf r (a / 0x1000))
  else if a = A.SYS_COMMIT_STAT then s.rd (s.commitStatAt r)
  else if a = A.SCHED_GCLR_LO ∨ a = A.SCHED_GCLR_HI then s.rd (a - 0x10)
  else if a = A.TIME_TSQ_STAT then w32 (s.port (s.tsqPort r)).tsq.length
  else if a = A.GLORY_INFO then s.gloryInfo r
  else d.shown (s.rd a)

/-- Registers whose SNAP value differs by requester or is not held in a word of its own. -/
def snapSpecial (a : Nat) : Bool :=
  isBanked a || a == A.TIME_TSQ_STAT || a == A.GLORY_INFO || a == A.LEASE_FREE_DONE ||
    a == A.TUIPER_FAULT_Q || a == A.SETS_TRANS_Q || a == A.TIME_TSQ_POP || a == A.KEEP_LOG0 ||
    (blkOf (a / 0x1000) == some .q && a % 0x1000 == 0x098) ||
    (blkOf (a / 0x1000) == some .trig && decide (0x400 ≤ a % 0x1000) && decide (a % 0x1000 < 0x500) && a % 0x20 == 4)

/-- Where the snapshot keeps such a register for a requester. -/
def snapKey (a : Nat) (r : Req) : Nat := 0x1000000 + a * 2 + reqIdx r

/-- A register's value in the SNAP view (R34, R42); SNAP_VALID is always live. -/
def State.snapVal (s : State) (r : Req) (a : Nat) : Word :=
  let v := amGet resetOf s.rf.snap (if a = A.SYS_COMMIT_STAT then s.commitStatAt r else if snapSpecial a then snapKey a r else a)
  if a % 0x1000 = 0x008 then setBit v 26 (bitOf (s.rd a) 26) else v

/-- What a read of one word returns through a view, its side effects apart (R34). -/
def State.regVal (s : State) (r : Req) (d : RegDef) (a view : Nat) : Word :=
  if d.isRws then (if view = 1 then s.shd a else if view = 2 then amGet resetOf s.rf.snap a else s.act a)
  else if view = 2 ∧ d.isStatus ∧ a % 0x1000 ≠ 0 ∧ a % 0x1000 ≠ 0x004 then s.snapVal r a
  else s.liveVal r d a

/-- A read of RC fields clears them, both halves of a pair at once (R30, R49). -/
def rcClear (d : RegDef) (a : Nat) (s : State) : State :=
  if d.fields.any fun f => f.acc == .rc then
    let s := s.wr a (d.rcCleared (s.rd a))
    if d.pair = .lo then s.wr (a + 4) 0 else s
  else s

/-- Throttled time and the engines' traffic are counted up to a read of their counters (R92, R406). -/
def countsRead (a view : Nat) (s : State) : State :=
  let s := if a = A.LEHR_THR_MS_LO then thrFlush s else s
  if view ≠ 2 ∧ (a = A.MEM_RD_BYTES_LO ∨ a = A.MEM_WR_BYTES_LO) then memTraffic s else s

/-- A read of one register (R30, R34, R48, R49): the word returned, and the state after. -/
def readReg (r : Req) (a : Nat) (s : State) : Word × State :=
  match findReg a with
  | none => (0, s)
  | some d =>
    let view := s.viewOf r (a / 0x1000)
    if d.pair = .hi then (s.bank (holdAt (a / 0x1000)) 0 r, s)
    else
      match (if view = 2 then none else takeReg r a s) with
      | some x => x
      | none =>
        let s := countsRead a view s
        let v := s.regVal r d a view
        let s := if d.pair = .lo then s.setBank (holdAt (a / 0x1000)) 0 r (s.regVal r d (a + 4) view) else s
        (v, if view = 2 then s else rcClear d a s)

/-! ### Snapshots (R42, R43) -/

/-- The registers of a page that a snapshot keeps per requester. -/
def snapAddrs (p : Nat) : List Nat :=
  match blkOf p with
  | some .lease => [A.LEASE_BUF_RESULT, A.LEASE_BUF_WGEN, A.LEASE_BUF_REFS, A.LEASE_FREE_DONE]
  | some .sched => [A.SCHED_SLOT_RESULT]
  | some .sets => [A.SETS_RESULT, A.SETS_TRANS_Q]
  | some .tuiper => [A.TUIPER_FAULT_Q]
  | some .q => [p * 0x1000 + 0x098, p * 0x1000 + 0x09C, p * 0x1000 + 0x0A0]
  | some .time => [A.TIME_TSQ_STAT, A.TIME_TSQ_POP]
  | some .trig => (List.range 8).map fun c => A.TRIG_POP c
  | some .keep => [A.KEEP_LOG0]
  | some .glory => [A.GLORY_INFO]
  | _ => []

/-- What a requester would read from a register now. -/
def State.peek (s : State) (r : Req) (a : Nat) : Word :=
  let hi := blkOf (a / 0x1000) = some .q ∧ a % 0x1000 = 0x09C
  match takeReg r (if hi then a - 4 else a) s with
  | some x => if hi then x.2.bank (holdAt (a / 0x1000)) 0 r else x.1
  | none => match findReg a with
    | some d => s.liveVal r d a
    | none => 0

/-- The snapshot of the pages `ps`, which keep old contents elsewhere. -/
def snapTake (s : State) (ps : List Nat) : AMap Word :=
  let pageOf (k : Nat) : Nat := if k < 0x1000000 then k / 0x1000 else (k - 0x1000000) / 2 / 0x1000
  let old := s.rf.snap.filter fun x => !ps.contains (pageOf x.1)
  let new := (s.rf.live ++ s.rf.active).filter fun x => ps.contains (x.1 / 0x1000)
  let m := new.foldl (fun m x => amSet resetOf m x.1 x.2) old
  (ps.flatMap snapAddrs).foldl (fun m a =>
    amSet resetOf (amSet resetOf m (snapKey a .host) (s.peek .host a)) (snapKey a .gaffer) (s.peek .gaffer a)) m

/-- Note at a boundary what its step 2 has to do: the snapshot that waits while HOLD is 0, and the pages that return (R39, R43). -/
def step2Due (s : State) : State :=
  { s with commit := { s.commit with
    snapDue := s.get A.SYS_SNAP F.SYS_SNAP_REQ == 1 && s.get A.SYS_SNAP F.SYS_SNAP_HOLD == 0
    returnDue := s.commit.returning } }

/-- What a snapshot does once it is due: the pages in service are captured, and the others keep their last (R42, R43). -/
def snapCapture (s : State) : State :=
  let ps := allPages.filter fun p => s.inService p
  let stale := allPages.filter fun p => !s.inService p
  let s := { s with rf := { s.rf with snap := snapTake s ps } }
  let s := ps.foldl (fun t p => t.put (H.PAGE_STAT p) ⟨26, 26⟩ 1) s
  let s := stale.foldl (fun t _ => t.raise P.SYS 4) s
  let seq := s.get A.SYS_SNAP_STAT F.SYS_SNAP_STAT_SEQ + 1
  let s := s.wr A.SYS_SNAP_STAT (w32 (seq % 256 * 2 ^ 24 + min 255 stale.length * 2 ^ 16 + s.frameNum % 65536))
  (s.put A.SYS_SNAP F.SYS_SNAP_REQ 0).raise P.SYS 3

/-- SNAPSHOT_CAPTURE at step 2 of a boundary (R42). Throttled time and the engines' traffic are counted up to it. -/
def snapshotOp (s : State) : State :=
  if s.commit.snapDue then snapCapture (memTraffic (thrFlush { s with commit := { s.commit with snapDue := false } })) else s

/-- Step 2 of a boundary: the capture, and then the epoch (R42). -/
def step2 (s : State) : State := epochApplyOp (snapshotOp s)

/-! ### Writes -/

/-- Judge a word for a register: the word to store, if any, and the state with the guard actions recorded (R21, R53, R455). -/
def State.judge (s : State) (a : Nat) (w : Word) : Option Word × State :=
  let p := a / 0x1000
  let cs := checksOf s a w
  let forced := !cs.isEmpty && s.injArmed p 31
  let j := judgeWord cs forced w
  let s := if forced then s.injTake p 31 else s
  let s := s.guardActs p j.acts
  let s := if blkOf p = some .flow ∧ !j.acts.isEmpty then s.wr (A.FLOW_GUARD_FLOW (p - 0x60)) (w32 ((a % 0x1000 - 0x800) / 0x80)) else s
  (j.val, s)

/-- Note an RWS write (R32). -/
def dirtyMark (p : Nat) (s : State) : State :=
  (s.put (H.SHADOW_DIRTY p) ⟨31, 31⟩ 1).add (H.SHADOW_DIRTY p) ⟨15, 0⟩ 1

/-- A trigger whose CFG or START is written is armed by the epoch that takes the write (R356). -/
def trigMark (a : Nat) (s : State) : State :=
  if a / 0x1000 = P.TRIG ∧ 0x100 ≤ a % 0x1000 ∧ a % 0x1000 < 0x300 ∧ a % 0x20 < 0x10 then
    let n := (a % 0x1000 - 0x100) / 0x20
    { s with time := { s.time with trigW := n :: s.time.trigW.filter (· != n) } }
  else s

/-- What the lower half of a pair takes with a write of its upper half (R28). -/
def pairLow (a : Nat) (old hold : Word) : Word := match findReg (a - 4) with | some l => l.merge old hold | none => old

/-- The register whose limits follow the value of the one at `a`: scan PHASE, queue LOW_WM, DMX REFRESH_US, trigger WIDTH and genlock
PHASE (R248, R324, R325, R349, R356). -/
def follower (a : Nat) : Option Nat :=
  let o := a % 0x1000
  match blkOf (a / 0x1000) with
  | some .scan => if o = 0x088 then some (a + 4) else none
  | some .q => if o = 0x088 then some (a + 4) else none
  | some .dmx => if 0x100 ≤ o ∧ o < 0x500 ∧ o % 0x40 = 0 then some (a + 8) else none
  | some .trig => if 0x100 ≤ o ∧ o < 0x300 ∧ o % 0x20 = 0x10 then some (a + 8) else none
  | some .sync => if o = 0x084 then some (a + 4) else none
  | _ => none

/-- A staged value that a write elsewhere has put out of its limits is clamped or replaced, with its guard action (R21). -/
def refit (a : Nat) (s : State) : State :=
  match follower a with
  | some b =>
    let j := judgeWord (checksOf s b (s.shd b)) false (s.shd b)
    if j.acts.isEmpty then s else (s.guardActs (b / 0x1000) j.acts).wrShadow b (j.val.getD (s.shd b))
  | none => s

/-- A write of an RWS register lands in the shadow set (R33, R48). -/
def rwsWrite (r : Req) (d : RegDef) (a : Nat) (w : Word) (s : State) : State :=
  let j := s.judge a (d.merge (s.shd a) w)
  match j.1 with
  | none => j.2
  | some v =>
    let s := if d.pair = .hi then j.2.wrShadow (a - 4) (pairLow a (j.2.shd (a - 4)) (j.2.bank (holdAt (a / 0x1000)) 1 r)) else j.2
    refit a (trigMark a (dirtyMark (a / 0x1000) (s.wrShadow a v)))

/-- A write of a register that takes effect at once (R30). -/
def plainWrite (r : Req) (d : RegDef) (a : Nat) (w : Word) (s : State) : State :=
  let j := s.judge a (d.merge (s.rd a) w)
  match j.1 with
  | none => j.2
  | some v =>
    let s := if d.pair = .hi then j.2.wr (a - 4) (pairLow a (j.2.rd (a - 4)) (j.2.bank (holdAt (a / 0x1000)) 1 r)) else j.2
    (s.wr a v).irqSync

/-- A write of a register kept per requester. -/
def bankedWrite (r : Req) (a : Nat) (w : Word) (s : State) : State :=
  let j := s.judge a (match findReg a with | some d => d.merge 0 w | none => 0)
  match j.1 with
  | none => j.2
  | some v => j.2.setBank a 0 r v

/-! ### Injections (R454, R455) -/

/-- The injection points of a page. -/
def injBits (p : Nat) : Nat :=
  2 ^ 31 + 2 ^ 30 +
    match blkOf p with
    | some .mem | some .bench => 3
    | some .rasterB | some .keep | some .hostB | some .glory => 2
    | some .flow => 0x2FFFF
    | some .solver => 8
    | some .cloop | some .lehr => 4
    | some .scan | some .ptp => 6
    | some .tuiper | some .q => if blkOf p = some .tuiper then 0x11 else 0x10
    | some .fl | some .sp | some .pl | some .mg => 0xA
    | some .sync => 0x54
    | some .twin => 0xC0
    | some .lane => 1
    | some .gaffer => 0x100
    | some .dmx => 0x4FFFF
    | _ => 0

/-- A write of EVT_INJ arms injections; while DEBUG.INJ_CTRL.EN is 0 the register is read-only. Detectors that evaluate all the
time take theirs at once. -/
def injArm (p : Nat) (w : Word) (s : State) : State :=
  if s.get A.DEBUG_INJ_CTRL F.DEBUG_INJ_CTRL_EN = 0 then s.guard1 p 31 0xFF none
  else
    let s := s.wr (H.EVT_INJ p) (s.rd (H.EVT_INJ p) ||| (w &&& w32 (injBits p)))
    if p = P.KEEP ∧ s.injArmed p 1 then
      logEvent 2 (((s.injTake p 1).put A.KEEP_STAT F.KEEP_STAT_TAMPER 1).raise p 1)
    else if p = P.GAFFER ∧ s.injArmed p 8 then watchdogOp (s.injTake p 8)
    else if p = P.PTP then domInject 1 (domInject 0 s)
    else s

/-! ### The page shell (R31, R32) -/

/-- A write of PAGE_CTRL: VIEW for its requester, WITHDRAW, and PAGE_RST. -/
def pageCtrlWrite (r : Req) (p : Nat) (w : Word) (s : State) : State :=
  let j := s.judge (H.PAGE_CTRL p) w
  match j.1 with
  | none => j.2
  | some v =>
    let s := j.2.setBank (H.PAGE_CTRL p) 0 r (v &&& 3)
    let s := s.put (H.PAGE_CTRL p) ⟨30, 30⟩ (bitOf v 30).toNat
    let s := if bitOf v 30 then withdrawOp p s else returnOp p s
    if bitOf v 31 then pageRstOp p s else s

/-- A write of EVT_STAT: each 1 clears its bit, but for the events `met`, which the block set in the cycle of the write: those bits stay
1, and their merging is recorded (R50, R51). A cleared UE or LS_UE ends the fault it reports (R91, R132). -/
def evtClear (p : Nat) (w met : Word) (s : State) : State :=
  let both := w &&& met &&& s.rd (H.EVT_STAT p)
  let s := s.wr (H.EVT_MERGED p) (s.rd (H.EVT_MERGED p) ||| both)
  let w := w &&& ~~~ both
  let s := (s.wr (H.EVT_STAT p) (s.rd (H.EVT_STAT p) &&& ~~~ w)).irqSync
  if bitOf w 1 ∧ (blkOf p = some .mem ∨ blkOf p = some .bench) then
    let s := s.setFault p false
    if blkOf p = some .bench then schedKick s else s
  else s

/-- A write of ST_CTRL (R435 to R439): TEST_SEL, ABORT and REQ. -/
def stWrite (p : Nat) (w : Word) (s : State) : State :=
  let s := if bitOf w 1 then sliceStopOn .other p s else s
  if bitOf w 0 then stReqOp p (fget w ⟨15, 8⟩) s else s.put (H.ST_CTRL p) ⟨15, 8⟩ (fget w ⟨15, 8⟩)

/-- A write of EVT_STAT that meets the events `met` in its cycle (R50). -/
def evtStatWrite (r : Req) (p : Nat) (w met : Word) (s : State) : State :=
  (evtClear p w met (match r with | .host => hostTlp s | .gaffer => s)).reply r .done

/-- A write in the page shell. -/
def shellWrite (r : Req) (p o : Nat) (w : Word) (s : State) : State :=
  match o with
  | 0x00C => pageCtrlWrite r p w s
  | 0x010 => evtClear p w 0 s
  | 0x014 => (s.wr (H.EVT_EN p) w).irqSync
  | 0x018 => injArm p w s
  | 0x01C => s.wr (H.EVT_MERGED p) (s.rd (H.EVT_MERGED p) &&& ~~~ w)
  | 0x028 => s.wr (H.GUARD_STAT p) (s.rd (H.GUARD_STAT p) &&& ~~~ (w &&& 0xF800FFFF))
  | 0x030 => stWrite p w s
  | _ => s

/-! ### Registers that act when written -/

/-- VEC_EOI: the vector's message is sent again where its OR is still 1 (R59). -/
def vecEoi (w : Word) (s : State) : State :=
  let v := fget w F.SYS_VEC_EOI_VECTOR
  if s.msix.level.getLsbD v then s.sendVector v else s

/-- A write of SHADOW_CTRL: STAT_SEL for its requester, and REVERT (R61). -/
def shadowCtrl (r : Req) (w : Word) (s : State) : State :=
  let s := s.setBank A.SYS_SHADOW_CTRL 0 r (w &&& 2)
  if bitOf w 0 then revertOp s else s

/-- A write of SNAP: HOLD and REQ. -/
def snapWrite (w : Word) (s : State) : State :=
  let s := s.put A.SYS_SNAP F.SYS_SNAP_HOLD (bitOf w 1).toNat
  if bitOf w 0 then snapRequest s else s

/-- A write of SYS registers that act (R35, R59, R61). -/
def sysWrite (r : Req) (o : Nat) (w : Word) (s : State) : Option State :=
  match o with
  | 0x088 => some (commitWrite r w s)
  | 0x09C => some (shadowCtrl r w s)
  | 0x0A0 => some (snapWrite w s)
  | 0x0B0 => some (sysReset w s)
  | 0x100 => some (vecEoi w s)
  | _ => none

/-- LEASE.BUF_CMD (R81 to R86, R93). -/
def bufCmd (r : Req) (w : Word) (s : State) : State :=
  let x := s.detect P.LEASE 31 (fget w ⟨2, 0⟩ == 0 || decide (4 < fget w ⟨2, 0⟩))
  if x.1 then x.2.guard1 P.LEASE 31 (openCode A.LEASE_BUF_CMD) none
  else match fget w ⟨2, 0⟩ with
  | 1 => bufDefine r x.2
  | 2 => bufFree r x.2
  | 3 => bufCancel r x.2
  | _ => bufQuery r x.2

/-- A write of FREQ_SEL (R8). -/
def freqWrite (w : Word) (s : State) : State :=
  let j := s.judge A.CLK_FREQ_SEL (w &&& 0x007F000F)
  match j.1 with
  | some v => freqSelect v j.2
  | none => j.2

/-- A write of DIRECT_BASE (R230). -/
def directBaseWrite (e : Nat) (w : Word) (s : State) : State :=
  let j := s.judge (A.SCAN_DIRECT_BASE e) (w &&& 0x0FFF0FFF)
  match j.1 with
  | some v => directBaseOp e v (j.2.wr (A.SCAN_DIRECT_BASE e) v)
  | none => j.2

/-- A write of a register that acts: none where the register only stores. -/
def actWrite (r : Req) (a : Nat) (w : Word) (s : State) : Option State :=
  let p := a / 0x1000
  let o := a % 0x1000
  match blkOf p with
  | some .sys => sysWrite r o w s
  | some .clk => if o = 0x084 then some (freqWrite w s) else none
  | some .keep => if o = 0x084 then some (keepSecWriteOp r w s) else none
  | some .gaffer => if o = 0x0B4 then some (doorbellWrite w s) else none
  | some .lease => if o = 0x090 then some (bufCmd r w s) else if isBanked a then some (bankedWrite r a w s) else none
  | some .maps => if o = 0x084 then some (mapsBuildOp w s) else none
  | some .sched =>
    if o = 0x098 then some (schedArrive ⟨r, A.SCHED_SLOT_CMD, w.zeroExtend 64⟩ s)
    else if o = 0x0B4 then some (schedArrive ⟨r, A.SCHED_GSET_LO, w ++ s.bank (holdAt P.SCHED) 1 r⟩ s)
    else if o = 0x0BC then some (schedArrive ⟨r, A.SCHED_GCLR_LO, w ++ s.bank (holdAt P.SCHED) 1 r⟩ s)
    else none
  | some .flow => if 0x800 ≤ o ∧ o % 0x80 = 0x40 then some (hostPostOp ((p - 0x60) * 16 + (o - 0x800) / 0x80) w s) else none
  | some .cloop => if o = 0x088 then some (cloopCmd w s) else none
  | some .scan => if o = 0x098 then some (directBaseWrite (p - 0xB0) w s) else none
  | some .tuiper => if o = 0x0B0 then some (txCmd w s) else none
  | some .sets => if o = 0x090 then some (setsCmd r w s) else none
  | some .q => if o = 0x0A4 then some (xoffSync (queueCmd r (p - 0x150) w s)) else none
  | some .dmx => if o = 0x084 then some (rdmCmd w s) else none
  | some .time =>
    if o = 0x0A8 then some (if bitOf w 0 then timeCaptureOp s else s)
    else if o = 0x180 then some (bankedWrite r a w s)
    else none
  | some .twin => if o = 0x094 then some (twinCmd w s) else none
  | some .lehr => if o = 0x094 then some (lehrCmd w s) else none
  | some .cal => if o = 0x080 then some (calCmd w s) else none
  | some .glory =>
    if o = 0x0A0 then some (gloryRepair (fget w F.GLORY_REPAIR_OP) (fget w F.GLORY_REPAIR_PAGE) (fget w F.GLORY_REPAIR_MEM) s)
    else if o = 0x0AC then some (bankedWrite r a w s)
    else none
  | some .life =>
    if o = 0x08C then some (lifeAdvance w s)
    else if o = 0x090 then some (lifeRevoke w s)
    else if o = 0x094 then some (lifeSecBump w s)
    else none
  | some .debug => if o = 0x084 then some (debugFreezeWrite w s) else none
  | _ => none

/-- A write of one register (R30, R33, R48). -/
def writeReg (r : Req) (a : Nat) (w : Word) (s : State) : State :=
  match findReg a with
  | none => s
  | some d =>
    if d.readOnly then s.guard1 (a / 0x1000) 31 0xFF none
    else if d.pair = .lo then s.setBank (holdAt (a / 0x1000)) 1 r w
    else if a % 0x1000 < 0x80 then shellWrite r (a / 0x1000) (a % 0x1000) w s
    else if d.isRws then rwsWrite r d a w s
    else (actWrite r a w s).getD (plainWrite r d a w s)

/-! ### Crossings (R56, R57) -/

/-- An access to an unassigned page (R27). -/
def unmapped (x : Access) (s : State) : State :=
  let s := (s.add A.SYS_UNMAPPED F.SYS_UNMAPPED_COUNT 1).put A.SYS_UNMAPPED F.SYS_UNMAPPED_PAGE x.page
  (s.raise P.SYS 5).reply x.r (if x.isWrite then .done else .data 0)

/-- An access is served. -/
def serve (x : Access) (s : State) : State :=
  let a := x.page * 0x1000 + x.off
  if x.isWrite then (writeReg x.r a x.val s).reply x.r .done
  else
    let v := readReg x.r a s
    v.2.reply x.r (.data v.1)

/-- An access is abandoned: a host read completes with Completer Abort, a Gaffer read with a bus error, a write has no effect. -/
def accessFail (x : Access) (s : State) : State :=
  s.reply x.r (if x.isWrite then .done else match x.r with | .host => .abort | .gaffer => .busError)

/-- The event of an abandoned access. -/
def clkstopRaise (p : Nat) (s : State) : State := (s.raise p 30).raise P.SYS 7

/-- Whether an access to a page above offset 0x07F must wait: its clock is stopped, its block is in reset, or others wait. -/
def State.mustWait (s : State) (p : Nat) : Bool :=
  s.commit.stalled.contains p || s.commit.stopped.contains p || bitOf (s.rd (H.PAGE_CTRL p)) 31 || s.commit.waiting.any fun y => y.page == p

/-- An access arrives (R31, R56, R57, R440). An injected CLKSTOP makes it wait until it is abandoned (R455). -/
def access (x : Access) (s : State) : State :=
  if (blkOf x.page).isNone then unmapped x s
  else if x.off < 0x80 then serve x s
  else
    let s := sliceStopOn .service x.page s
    if bitOf (s.rd (H.PAGE_STAT x.page)) 28 then accessFail x s
    else if s.mustWait x.page then
      { s with commit := { s.commit with waiting := s.commit.waiting ++ [x] } }.reply x.r .none
    else if s.injArmed x.page 30 then
      let s := s.injTake x.page 30
      { s with commit := { s.commit with stalled := x.page :: s.commit.stalled, waiting := s.commit.waiting ++ [x] } }.reply x.r .none
    else serve x s

/-- An access of a requester; a host access is a TLP that the endpoint receives (R455). -/
def reqAccess (x : Access) (s : State) : State := access x (match x.r with | .host => hostTlp s | .gaffer => s)

/-- A write request of a requester. -/
def regWrite (r : Req) (page off : Nat) (v : Word) (s : State) : State := reqAccess ⟨r, page, off, true, v⟩ s

/-- A read request of a requester. -/
def regRead (r : Req) (page off : Nat) (s : State) : State := reqAccess ⟨r, page, off, false, 0⟩ s

/-- An access of a refused width (R28). -/
def refusedWidth (x : Access) (s : State) : State :=
  let s := match x.r with | .host => hostTlp s | .gaffer => s
  if (blkOf x.page).isNone then unmapped x s
  else (s.guard1 x.page 31 0xFE none).reply x.r (if x.isWrite then .done else .data 0)

/-- A seal that waited comes to the head of a crossing: it passes, unless accesses before it wait again (R36). -/
def sealArrive (y : Access) (s : State) : State :=
  if s.commit.waiting.any fun z => z.page == y.page then
    { s with commit := { s.commit with waiting := s.commit.waiting ++ [y] } }
  else pagesSeal [y.page] s

/-- The accesses that wait at a page's crossing come to its head in order. -/
def rerunWaiting (p : Nat) (s : State) : State :=
  let here := s.commit.waiting.filter fun y => y.page == p
  let s := { s with commit := { s.commit with waiting := s.commit.waiting.filter fun y => y.page != p } }
  here.foldl (fun t y => if y.off = sealMark then sealArrive y t else access y t) s

/-- An access held by an injected CLKSTOP has waited FABRIC_TIMEOUT: it is abandoned, the crossing is retired at once, and the
accesses behind it are served (R455). -/
def stallEnd (p : Nat) (s : State) : State :=
  let s := { s with commit := { s.commit with stalled := s.commit.stalled.filter (· != p) } }
  match s.commit.waiting.find? fun y => y.page == p with
  | some x =>
    let s := { s with commit := { s.commit with waiting := s.commit.waiting.erase x } }
    rerunWaiting p (accessFail x (clkstopRaise p s))
  | none => s

/-- The seal behind an access that was abandoned still reaches its page (R36). -/
def sealsPass (p : Nat) (here : List Access) (s : State) : State := if here.any fun y => y.off == sealMark then pagesSeal [p] s else s

/-- ACCESS_ABANDON: the access at the head of a stopped crossing has waited FABRIC_TIMEOUT; those behind it fail at once (R56,
R57). -/
def accessAbandonOp (r : Req) (p : Nat) (isWrite : Bool) (s : State) : State :=
  if (blkOf p).isNone then s
  else if s.commit.stalled.contains p then stallEnd p s
  else if bitOf (s.rd (H.PAGE_STAT p)) 28 then accessFail ⟨r, p, 0x80, isWrite, 0⟩ s
  else
    let here := s.commit.waiting.filter fun y => y.page == p
    let s := { s with commit := { s.commit with
      stopped := p :: s.commit.stopped.filter (· != p), waiting := s.commit.waiting.filter fun y => y.page != p } }
    let s := freqSync (clkstopRaise p (s.put (H.PAGE_STAT p) ⟨28, 28⟩ 1))
    let s := if here.isEmpty then accessFail ⟨r, p, 0x80, isWrite, 0⟩ s else s
    sealsPass p here ((here.filter fun y => y.off != sealMark).foldl (fun t y => accessFail y t) s)

/-- A page whose block comes back after it missed an epoch returns at the next boundary (R39). -/
def returnMissed (p : Nat) (s : State) : State :=
  if bitOf (s.rd (H.PAGE_STAT p)) 25 ∧ !s.offline p then
    { s with commit := { s.commit with returning := p :: s.commit.returning.filter (· != p) } }
  else s

/-- BLOCK_CLOCK_RESTART: the abandoned request is retired, and waiting accesses are served (R57). -/
def clockRestartOp (p : Nat) (s : State) : State :=
  if s.commit.stopped.contains p then
    rerunWaiting p (returnMissed p (crossingClear p { s with commit := { s.commit with stopped := s.commit.stopped.filter (· != p) } }))
  else s

/-- PAGE_RST_DONE: the block resumes work and serves accesses (R479). -/
def pageRstDoneOp (p : Nat) (s : State) : State :=
  if bitOf (s.rd (H.PAGE_CTRL p)) 31 then
    rerunWaiting p (returnMissed p (blockResume p (s.put (H.PAGE_CTRL p) ⟨31, 31⟩ 0)))
  else s

/-! ### Device memory through BAR2 and the Gaffer's port (R87, R88, R433) -/

/-- The device address of a BAR2 offset. -/
def State.bar2 (s : State) (off : Nat) : Nat :=
  fget (s.rd A.HOST_BAR2_BASE_LO) ⟨31, 16⟩ * 2 ^ 16 + fget (s.rd A.HOST_BAR2_BASE_HI) ⟨2, 0⟩ * 2 ^ 32 + off

/-- BAR2_WRITE. -/
def bar2WriteOp (off : Nat) (data : List Byte) (s : State) : State :=
  let s := hostTlp s
  (memWriteReq .host (s.bar2 off) data s).reply .host .done

/-- BAR2_READ. -/
def bar2ReadOp (off len : Nat) (s : State) : State :=
  let s := hostTlp s
  let x := memReadReq .host (s.bar2 off) len s
  x.2.reply .host (match x.1 with | some d => .bytes d | none => .abort)

/-- GAFFER_MEMORY_ACCESS. -/
def gafferMemOp (a len : Nat) (data : Option (List Byte)) (s : State) : State :=
  match data with
  | some d => (memWriteReq .gaffer a d s).reply .gaffer .done
  | none =>
    let x := memReadReq .gaffer a len s
    x.2.reply .gaffer (match x.1 with | some d => .bytes d | none => .busError)

/-- MSIX_VECTOR_UNMASK: a message held for the vector is sent (R59). -/
def msixUnmaskOp (v : Nat) (s : State) : State :=
  if 64 ≤ v then s
  else
    let m := s.msix
    let bit : Cell := 1 <<< v
    let was := m.held.getLsbD v
    { s with msix := { m with mask := m.mask &&& ~~~ bit, held := m.held &&& ~~~ bit, sent := if was then v :: m.sent else m.sent } }

end Sys2Proof.Machine
end

