-- ==== Sys2Proof/Machine/Frame.lean ====
section
/-!
DEFINITION. The frame cycle (R9 to R17): what a boundary does in every block, and in which order; READY; stream timeouts; pulses that
a pin filter removes; a tick without a command; and what every command leaves settled.
-/
namespace Sys2Proof.Machine

/-! ### What every command leaves settled -/

/-- The grant requests that wait while a slice holds the sampler, one for each SAMPLE job that runs; with 16 the queue is full, and the slice
ends for service (R436, R440). -/
def grantDemand (s : State) : State :=
  if 16 ≤ (s.sched.benches.filter fun b => match b.job with | some j => dKind j.desc == 2 | none => false).length then
    sliceStopOn .service P.SAMPLER s
  else s

/-- Carriage that has ended ends, and the partner acknowledges it (R240, R373); a full queue of grant requests ends a slice (R440). -/
def carriageSettle (s : State) : State := grantDemand (ackCarried (carriageAll s))

/-- After every command: carriage, pending frees, host buffers and layers that come free, and the interrupts (R58, R59, R85, R148, R179,
R240). -/
def settle (s : State) : State :=
  (calHold (marverRelease (State.hostFreeSync (State.leaseSweep (running carriageSettle s))))).irqSync

/-- The state a command ends in: settled, with the queue as it was (log entry 3). -/
def finish (s t : State) : State := { settle t with pending := s.pending }

/-- What a command answers. -/
abbrev Answer := Host.Outcome State Fault Refusal

/-- A command that acts while the device runs: in reset, frozen or shut down it has no effect (R409, R449). -/
def gated (f : State → State) (s : State) : Answer := .next (finish s (running f s))

/-- A command that always acts: resets and supplies, the keeper, the test access port and the fixture have clocks of their own. -/
def always (f : State → State) (s : State) : Answer := .next (finish s (f s))

/-- A step on an empty queue: one tick of TIMECLK passes (log entry 3). -/
def idleTick (s : State) : State :=
  if s.power.mode = .run then
    calHold { s with time := { s.time with t := s.time.t + s.time.incr, ticks := s.time.ticks + 1 } }
  else s

/-! ### Boundary N (R9 to R17, R349) -/

/-- The value a register will have in the active set of frame `n`: the sealed one where its epoch applies at that boundary. -/
def State.govBy (s : State) (n a : Nat) : Word :=
  if s.commit.waitFrame = some n ∧ s.inService (a / 0x1000) then s.pnd a else s.act a

/-- TC(N): the value of the timecode source's last unit; none while it is off, has given none or has timed out (R130). -/
def State.timecodeOf (s : State) (n : Nat) : Option Word :=
  match fget (s.govBy n A.SCHED_TC_CTRL) F.SCHED_TC_CTRL_SRC with
  | 1 =>
    if s.get A.SYNC_LTC_STAT F.SYNC_LTC_STAT_VALID = 1 ∧ s.get A.SYNC_LTC_STAT F.SYNC_LTC_STAT_TIMED_OUT = 0 then
      some (s.rd A.SYNC_LTC_VAL)
    else none
  | 2 => if (s.flow (fget (s.govBy n A.INGEST_TC_FLOW) F.INGEST_TC_FLOW_FLOW)).timedOut then none else (s.flow (fget (s.govBy n A.INGEST_TC_FLOW) F.INGEST_TC_FLOW_FLOW)).tc
  | _ => none

/-- The timecode source that governs frame `n`: SRC, with its flow for a console stream (R130). -/
def State.timecodeSrc (s : State) (n : Nat) : Nat :=
  let src := fget (s.govBy n A.SCHED_TC_CTRL) F.SCHED_TC_CTRL_SRC
  if src = 2 then 4 + fget (s.govBy n A.INGEST_TC_FLOW) F.INGEST_TC_FLOW_FLOW else src

/-- The record of a stream's timeout, where the newest boundary left one due: status, guard action and event (R23, R156, R327, R351,
R354). -/
def streamRecord (st : Stream) (s : State) : State :=
  match st with
  | .flow f => flowRecord f s
  | .dmx n => dmxRecord n s
  | .genlock => genlockRecord s
  | .ltc => ltcRecord s

/-! ### The twin pair at a boundary -/

/-- TAKEOVER: an update in progress follows the change of authority (R378, R425). -/
def takeoverCmdOp (s : State) : State :=
  if s.twinOn && s.isPartner && s.twin.takeDue then updateTwin (takeoverOp s) else s

/-- TAKEBACK: an update in progress follows the change of authority (R380, R425). -/
def takebackCmdOp (s : State) : State :=
  let t := takebackOp s
  if t.twin.take = s.twin.take then t else updateTwin t

/-- Authority changes at the newest boundary where it is due: before the engine frames that start there (R378, R380). -/
def roleChange (s : State) : State := takebackCmdOp (takeoverCmdOp s)

/-- The number of the epoch that governs frame `n`. -/
def State.epochBy (s : State) (n : Nat) : Nat :=
  if s.commit.waitFrame = some n then s.commit.pendEpoch else (s.rd A.SYS_EPOCH_APPLIED).toNat

/-- The boundary steps that follow the boundary event, where they are still to be taken: the records of the timeouts reached (R23), step 2
(R42), the partner's record and ACK, the scheduler's steps, Marver's step 1, and the change of authority with the HEAD (R128, R177, R367,
R373, R375, R378). -/
def frameSteps (s : State) : State :=
  if s.sched.holding then
    let s := twinStep1 (calApplyOp (step2 (s.time.due.foldl (fun t st => streamRecord st t) s)))
    headFollow (headSend (roleChange (marverBegin (heldWritesApplyOp s))))
  else s

/-- Engine frames at the device rate still short of their latch point when the next boundary is marked have passed it. -/
def latchesPass (s : State) : State :=
  (List.range 8).foldl (fun (t : State) e => if t.curOwn e then t else engineLatch e t) s

/-- What ends with frame `old` at the boundary after it: Marver's frame is cut, the solver's is cut or done, the parison is read by
DMX, and the solver begins frame `old` under the set that governed it (R14, R80, R181, R202, R205). -/
def frameEnd (old : Nat) (s : State) : State :=
  let s := recordBoundary old s
  let s := sliceStopOn .service P.SOLVER (sliceStopOn .service P.MARVER s)
  let s := dmxParisons old (marverBoundary s)
  let s := solverEnd s
  let s := { s with rf := { s.rf with prev := s.rf.active }
                    commit := { s.commit with prevEpoch := (s.rd A.SYS_EPOCH_APPLIED).toNat } }
  let s := s.pushFrameLease old (s.hostBoundBufs ++ s.tableBufs)
  let s := solverBegin old s.time.period s.marver.order s
  carryBoundary old s

/-- The input cut of frame `n`: video is bound, and the slot values behind the universe map are formed (R13, R143, R153, R326). -/
def inputCut (n : Nat) (s : State) : State :=
  let s := dmxBoundary n (flowsElapsed (flowInject (bindVideo s)))
  let s := dmxUniverse n (mergeSlots State.dmxValues s)
  videoRate (flowsBoundary n s)

/-- FRAME_BOUNDARY: boundary N (R9, R349). -/
def frameBoundaryOp (s : State) : State :=
  let first := decide (s.time.bnds = 0)
  let old := s.frameNum
  let n := s.nextFrame
  let s := latchesPass (headElapsed (updateElapsed (frameSteps s)))
  let s := step2Due ((sliceElapsed (markBoundary n s)).wr A.SYS_FRAME_NUM (w32 n))
  let s := keepMinute (gafferBoundary s)
  let s := if first then s else frameEnd old s
  let s := latchBoundary (s.govBy n) n s.time.period s
  let s := inputCut n (trigBoundary s)
  let s := { s with lease := { s.lease with substFrame := false } }
  let s := twinBoundary (syncElapsed s)
  let s := schedBoundary n (s.timecodeOf n) (s.timecodeSrc n) s
  twinDigests (s.epochBy n) (s.govBy n) s

/-- SCHED_HELD_WRITES_APPLY: the boundary steps after the boundary event (R128). -/
def heldApplyOp (s : State) : State := frameSteps s

/-- ENGINE_FRAME_START (R226): an engine that is due a frame begins it, and in a pair its HEAD is sent or awaited. -/
def engineFrameStartOp (e : Nat) (s : State) : State :=
  let s := roleChange s
  match engineStart e s with
  | none => engineStop e s
  | some t =>
    let t := headSend t
    match (t.engine e).cur with
    | some f => if f.wait then headFollow t else engineGo e t
    | none => t

/-! ### Streams and pins (R20 to R23) -/

/-- STREAM_TIMEOUT: the stream whose timeout the newest boundary found reached takes its record: its status, the guard action and the
event. Its policy has governed it from that boundary on (R23, R351, R354). -/
def streamTimeoutOp (st : Stream) (s : State) : State := streamRecord st s

/-- PIN_GLITCH: a pulse shorter than a filter's width is ignored and recorded in the page that owns the pin (R20, R466). -/
def pinGlitchOp (pin : Pin) (s : State) : State :=
  match pin with
  | .tamperN => s.guard1 P.KEEP 28 (openCode A.KEEP_TAMPER_CFG) none
  | .rstN => running (fun t => t.guard1 P.SYS 28 (openCode A.SYS_RESET) none) s
  | .frzN => running (fun t => t.guard1 P.DEBUG 28 (openCode A.DEBUG_FRZ_CFG) none) s
  | .genlock | .ltc => running (fun t => t.guard1 P.SYNC 28 0xFC (some 4)) s
  | .cap _ => running (fun t => t.guard1 P.TRIG 28 0xF2 (some 2)) s
  | .dmx n => running (fun t => t.guard1 P.DMX 28 (openCode (A.DMX_CFG n)) none) s

/-! ### READY (R409, R417, R418) -/

/-- One settings record is applied as a register write; one that may not be, or whose write is rejected, is skipped and counted. -/
def applyRecord (x : Nat × Word) (s : State) : State :=
  let p := x.1 / 0x1000
  let skip (t : State) : State := t.add A.GAFFER_SET_STAT F.GAFFER_SET_STAT_SKIPPED 1
  if (blkOf p).isNone ∨ x.1 % 4 ≠ 0 ∨ x.1 = A.SYS_COMMIT ∨ x.1 = A.SYS_SHADOW_CTRL ∨ x.1 = A.SYS_RESET then skip s
  else
    let was := bitOf (s.rd (H.GUARD_STAT p)) 31
    let t := access ⟨.gaffer, p, x.1 % 0x1000, true, x.2⟩ (s.put (H.GUARD_STAT p) ⟨31, 31⟩ 0)
    let bad := bitOf (t.rd (H.GUARD_STAT p)) 31
    let t := if was then t.put (H.GUARD_STAT p) ⟨31, 31⟩ 1 else t
    if bad then skip t else t

/-- READY: the settings are applied, epoch 1 is committed, and the mailbox opens. -/
def readyOp (s : State) : State :=
  if s.stage ≠ 1 ∨ s.get A.CAL_STAT F.CAL_STAT_BUSY = 1 then s
  else
    let s := s.gaffer.settings.foldl (fun t x => applyRecord x t) s
    let s := commitWrite .gaffer 1 s
    let s := (s.put A.GAFFER_BOOT_STAT F.GAFFER_BOOT_STAT_STAGE 2).raise P.GAFFER 0
    mbxServe 3 s

end Sys2Proof.Machine
end

