-- ==== Sys2Proof/Machine/ComposeCmds.lean ====
section
/-!
DEFINITION. Commands of Marver, the solver and the colour loop (06_marver.md, 07_colour_solver.md). One
meaning per command, over the shared operations. A command acts while the device runs, unless its docstring says that it always acts.
-/
namespace Sys2Proof.Machine

/-- LOOP_REPORT_JUDGE: the oldest report is judged, except while RESET_ALL runs or a slice holds the loop (R209, R212, R436), and except
on a partner, which never acts on reports (R376). A change-over that is due has come first (R211). -/
def loopReportOp (s : State) : State :=
  if s.loop.resetting.isSome || s.sliceOn P.CLOOP || s.isPartner then s
  else
    let s := loopChangeover s
    match s.loop.queue with
    | [] => s
    | x :: l => loopJudge (s.fallback x.fix).isSome x { s with loop := { s.loop with queue := l } }

/-- MARVER_BASE_WRITER_DONE, in a frame whose boundary steps have been taken (R177). -/
def execMarverBaseWriterDone (s : State) : Answer := gated (fun t => baseWriterDoneOp (frameSteps t)) s

/-- MARVER_PASS_START, in a frame whose boundary steps have been taken (R177, R178). -/
def execMarverPassStart (s : State) : Answer := gated (fun t => passStartOp (frameSteps t)) s

/-- MARVER_PASS_END (R179). -/
def execMarverPassEnd (s : State) : Answer := gated passEndOp s

/-- SOLVER_FRAME_DONE (R202). -/
def execSolverFrameDone (s : State) : Answer := gated solverFrameDoneOp s

/-- LOOP_GAIN_CHANGEOVER (R211). -/
def execLoopGainChangeover (s : State) : Answer := gated loopChangeover s

/-- LOOP_REPORT_JUDGE (R209). -/
def execLoopReportJudge (s : State) : Answer := gated loopReportOp s

/-- RESET_FIX (R212). -/
def execResetFix (r : Req) (fix : Nat) (s : State) : Answer := gated (regWrite r P.CLOOP 0x088 (w32 (2 ^ 28 + fix % 2 ^ 18))) s

/-- RESET_ALL (R212). -/
def execResetAll (r : Req) (s : State) : Answer := gated (regWrite r P.CLOOP 0x088 (w32 (2 * 2 ^ 28))) s

/-- RESET_ALL_DONE (R212). -/
def execResetAllDone (s : State) : Answer := gated resetAllDoneOp s

end Sys2Proof.Machine
end

