-- ==== Sys2Proof/Machine/FixtureCmds.lean ====
section
/-!
DEFINITION. Commands of the fixture side of the link (09_tuiper_link.md). One
meaning per command, over the shared operations. A command acts while the device runs, unless its docstring says that it always acts.
-/
namespace Sys2Proof.Machine

/-- FIXTURE_POWER_UP (R257). -/
def fixtureUpOp (s : State) : State := onFix Fixture.powerUp s

/-- FIXTURE_FRAME_ACCEPT (R257), which always acts. -/
def execFixtureFrameAccept (words : LinkMsg) (s : State) : Answer := always (fixtureFrameOp words.words words.src) s

/-- FIXTURE_APPLY (R269), which always acts. -/
def execFixtureApply (pt : Nat) (s : State) : Answer := always (fixtureApplyOp pt) s

/-- FIXTURE_LOSS_DARK (R271), which always acts. -/
def execFixtureLossDark (s : State) : Answer := always fixtureLossDarkOp s

/-- FIXTURE_SYNC (R276), which always acts. -/
def execFixtureSync (words : List Word) (src : Nat) (s : State) : Answer := always (fixtureSyncOp words src) s

/-- FIXTURE_DELAY_REQ_SEND (R276), which always acts. -/
def execFixtureDelayReqSend (s : State) : Answer := always fixtureDelayReqOp s

/-- FIXTURE_TELEMETRY_SEND (R284), which always acts. -/
def execFixtureTelemetrySend (s : State) : Answer := always fixtureTelemetryOp s

/-- DISCOVER (R279), which always acts. -/
def execDiscover (words : LinkMsg) (s : State) : Answer := always (discoverOp words.words words.src) s

/-- FIXTURE_REPLY_SEND (R279), which always acts. -/
def execFixtureReplySend (s : State) : Answer := always fixtureReplyOp s

/-- MUTE (R279), which always acts. -/
def execMute (words : LinkMsg) (s : State) : Answer := always (muteOp words.words words.src) s

/-- UNMUTE (R279), which always acts. -/
def execUnmute (words : LinkMsg) (s : State) : Answer := always (unmuteOp words.words words.src) s

/-- SET_WRITE (R281), which always acts. -/
def execSetWrite (words : LinkMsg) (s : State) : Answer := always (setWriteOp words.words words.src) s

/-- SET_READ_PARAM (R280), which always acts. -/
def execSetReadParam (words : LinkMsg) (s : State) : Answer := always (setReadOp words.words words.src) s

/-- FIXTURE_DELAY_RESP (R276), which always acts. -/
def execFixtureDelayResp (words : List Word) (s : State) : Answer := always (fixtureDelayRespOp words) s

/-- FIXTURE_POWER_UP (R257), which always acts. -/
def execFixturePowerUp (s : State) : Answer := always fixtureUpOp s

end Sys2Proof.Machine
end

