-- ==== Sys2Proof/Machine/GloryCmds.lean ====
section
/-!
DEFINITION. Commands of self-test, repair, the life cycle, freeze and the test access port (15_selftest_debug.md). One
meaning per command, over the shared operations. A command acts while the device runs, unless its docstring says that it always acts.
-/
namespace Sys2Proof.Machine

/-- DUMP_SEL: the chain that DUMP_SCAN shifts (R452, R453). -/
def dumpSelOp (chain : Nat) (s : State) : State :=
  let s := tapShift [] s
  { s with dbg := { s.dbg with tapChain := chain % 65536 } }

/-- ST_REQ (R435). -/
def execStReq (r : Req) (page : Nat) (testSel : Nat) (s : State) : Answer :=
  gated (regWrite r page 0x030 (w32 (testSel % 256 * 256 + 1))) s

/-- ST_ABORT (R439). -/
def execStAbort (r : Req) (page : Nat) (s : State) : Answer :=
  gated (fun t => regWrite r page 0x030 (w32 (t.get (H.ST_CTRL page) ⟨15, 8⟩ * 256 + 2)) t) s

/-- SLICE_START (R438). -/
def execSliceStart (s : State) : Answer := gated sliceStartOp s

/-- SLICE_END (R439). -/
def execSliceEnd (m : SliceMeasure) (s : State) : Answer := gated (sliceEndOp m) s

/-- SLICE_BUDGET_EXPIRE (R440). -/
def execSliceBudgetExpire (m : SliceMeasure) (s : State) : Answer := gated (fun t => sliceBudgetOp m (reach t.sliceDue t)) s

/-- ROW (R444). -/
def execRow (r : Req) (page : Nat) (mem : Nat) (s : State) : Answer :=
  gated (regWrite r P.GLORY 0x0A0 (w32 (1 * 2 ^ 28 + page % 4096 * 65536 + mem % 256))) s

/-- COLUMN (R444). -/
def execColumn (r : Req) (page : Nat) (mem : Nat) (s : State) : Answer :=
  gated (regWrite r P.GLORY 0x0A0 (w32 (2 * 2 ^ 28 + page % 4096 * 65536 + mem % 256))) s

/-- FUSE (R444). -/
def execFuse (r : Req) (page : Nat) (mem : Nat) (s : State) : Answer :=
  gated (regWrite r P.GLORY 0x0A0 (w32 (3 * 2 ^ 28 + page % 4096 * 65536 + mem % 256))) s

/-- ADVANCE (R445). -/
def execAdvance (r : Req) (v : Word) (s : State) : Answer := gated (regWrite r P.LIFE 0x08C v) s

/-- REVOKE (R447). -/
def execRevoke (r : Req) (v : Word) (s : State) : Answer := gated (regWrite r P.LIFE 0x090 v) s

/-- SEC_BUMP (R447). -/
def execSecBump (r : Req) (v : Word) (s : State) : Answer := gated (regWrite r P.LIFE 0x094 v) s

/-- FUSE_DONE (R472). -/
def execFuseDone (supplyOk : Bool) (s : State) : Answer := gated (fuseDoneOp supplyOk) s

/-- DEBUG_FREEZE (R448). -/
def execDebugFreeze (r : Req) (v : Word) (s : State) : Answer := gated (regWrite r P.DEBUG 0x084 v) s

/-- FRZ_N (R448). -/
def execFrzN (s : State) : Answer := gated frzNOp s

/-- FREEZE_CLOCK_STOP (R449), which always acts. -/
def execFreezeClockStop (domain : Nat) (sub : Nat) (forced : Bool) (s : State) : Answer :=
  always (clockStopOp domain sub forced) s

/-- FREEZE_OVERTEMP (R450), which always acts. -/
def execFreezeOvertemp (s : State) : Answer := always freezeOvertempOp s

/-- EXTEST (R452), which always acts. -/
def execExtest (pins : List Nat) (s : State) : Answer := always (extestOp pins) s

/-- SAMPLE_PRELOAD (R452), which always acts. -/
def execSamplePreload (pins : List Nat) (s : State) : Answer := always (samplePreloadOp pins) s

/-- IDCODE (R452), which always acts. -/
def execIdcode (s : State) : Answer := always (tapShift [idcodeWord]) s

/-- DUMP_SEL (R452), which always acts. -/
def execDumpSel (chain : Nat) (s : State) : Answer := always (dumpSelOp chain) s

/-- DUMP_SCAN (R453), which always acts. -/
def execDumpScan (s : State) : Answer := always dumpScanOp s

/-- TAP_FREEZE (R452), which always acts. -/
def execTapFreeze (s : State) : Answer := always tapFreezeOp s

/-- BYPASS (R452), which always acts. -/
def execBypass (_code : Nat) (s : State) : Answer := always tapBypass s

end Sys2Proof.Machine
end

