-- ==== Sys2Proof/Machine/IngestCmds.lean ====
section
/-!
DEFINITION. Commands of video ingest, sACN and console streams (05_video_sampler.md). One
meaning per command, over the shared operations. A command acts while the device runs, unless its docstring says that it always acts.
-/
namespace Sys2Proof.Machine

/-- VIDEO_PACKET (R141). -/
def execVideoPacket (flow : Nat) (p : VideoPacket) (s : State) : Answer := gated (videoPacketOp flow p) s

/-- HOST_POST (R148). -/
def execHostPost (r : Req) (flow : Nat) (v : Word) (s : State) : Answer :=
  gated (regWrite r (P.FLOW flow) (0x840 + flow % 16 * 0x80) v) s

/-- SACN_DATA_PACKET (R149). -/
def execSacnDataPacket (flow : Nat) (p : SacnData) (s : State) : Answer := gated (sacnDataOp flow p) s

/-- SACN_SYNC_PACKET (R151). -/
def execSacnSyncPacket (flow : Nat) (p : SacnSync) (s : State) : Answer := gated (sacnSyncOp flow p) s

/-- SACN_SOURCE_EXPIRE (R153). -/
def execSacnSourceExpire (flow : Nat) (cid : Nat) (univ : Nat) (s : State) : Answer := gated (sacnExpireOp flow cid univ) s

/-- LEVELS (R155). -/
def execLevels (flow : Nat) (words : List Word) (bytes : Nat) (s : State) : Answer := gated (levelsOp flow words bytes) s

/-- FLAGS (R155). -/
def execFlags (flow : Nat) (words : List Word) (bytes : Nat) (s : State) : Answer := gated (flagsOp flow words bytes) s

/-- CONSOLE_FLAGS_APPLY (R155). -/
def execConsoleFlagsApply (s : State) : Answer := gated consoleFlagsOp s

/-- TIMECODE (R155). -/
def execTimecode (flow : Nat) (words : List Word) (bytes : Nat) (s : State) : Answer := gated (timecodeOp flow words bytes) s

/-- USER (R155). -/
def execUser (flow : Nat) (words : List Word) (bytes : Nat) (s : State) : Answer := gated (userOp flow words bytes) s

end Sys2Proof.Machine
end

