-- ==== Sys2Proof/Machine/LehrCmds.lean ====
section
/-!
DEFINITION. Commands of Lehr and calibration (13_thermal_calibration.md). One
meaning per command, over the shared operations. A command acts while the device runs, unless its docstring says that it always acts.
-/
namespace Sys2Proof.Machine

/-- SENSOR_SAMPLE (R386). -/
def execSensorSample (x : SensorReading) (s : State) : Answer := gated (fun t => sensorSampleOp x (reach (t.sampleDue x.sensor) t)) s

/-- RISE_HOLD_EXPIRE (R390). -/
def execRiseHoldExpire (c : Nat) (s : State) : Answer := gated (fun t => riseHoldExpireOp c (reach (t.holdDue c) t)) s

/-- CLOCK_GLIDE_STEP (R391). -/
def execClockGlideStep (s : State) : Answer := gated (fun t => clockGlideOp (reach (t.lehr.glideAt + 10000) t)) s

/-- ACK_FAIL (R394). -/
def execAckFail (r : Req) (s : State) : Answer := gated (regWrite r P.LEHR 0x094 (w32 (1 * 2 ^ 28))) s

/-- RESTORE (R387). -/
def execRestore (r : Req) (sensor : Nat) (s : State) : Answer :=
  gated (regWrite r P.LEHR 0x094 (w32 (2 * 2 ^ 28 + sensor % 32))) s

/-- SENSORS (R401). -/
def execCalSensors (r : Req) (s : State) : Answer := gated (regWrite r P.CAL 0x080 (w32 (1 * 2 ^ 28))) s

/-- TIMEBASE (R402). -/
def execCalTimebase (r : Req) (s : State) : Answer := gated (regWrite r P.CAL 0x080 (w32 (2 * 2 ^ 28))) s

/-- LANE (R403). -/
def execCalLane (r : Req) (lane : Nat) (s : State) : Answer := gated (regWrite r P.CAL 0x080 (w32 (3 * 2 ^ 28 + lane % 128))) s

/-- CAL_COMPLETE (R400). -/
def execCalComplete (m : CalMeasure) (s : State) : Answer := gated (fun t => calibrationEnd m (if t.stage = 1 then t else reach (t.calDue m) t)) s

/-- CAL_RESULTS_APPLY (R400). -/
def execCalResultsApply (s : State) : Answer := gated calApplyOp s

/-- EYE_MEASURE (R405). -/
def execEyeMeasure (lane : Nat) (width : Nat) (height : Nat) (s : State) : Answer := gated (fun t => eyeMeasureOp lane width height (reach (t.eyeDue lane) t)) s

end Sys2Proof.Machine
end

