-- ==== Sys2Proof/Machine/MemoryCmds.lean ====
section
/-!
DEFINITION. Commands of the cell maps, the buffers and device memory (03_raster_memory.md). One
meaning per command, over the shared operations. A command acts while the device runs, unless its docstring says that it always acts.
-/
namespace Sys2Proof.Machine

/-- MAPS_BUILD (R74). -/
def execMapsBuild (r : Req) (v : Word) (s : State) : Answer := gated (regWrite r P.MAPS 0x084 v) s

/-- MAP_BUILD_END (R75). -/
def execMapBuildEnd (s : State) : Answer := gated mapBuildEndOp s

/-- MAP_SET (R76). -/
def execMapSet (r : Req) (v : Word) (s : State) : Answer := gated (regWrite r P.MAPS 0x080 v) s

/-- DEFINE (R81). -/
def execDefine (r : Req) (s : State) : Answer := gated (regWrite r P.LEASE 0x090 1) s

/-- FREE (R84). -/
def execFree (r : Req) (s : State) : Answer := gated (regWrite r P.LEASE 0x090 2) s

/-- CANCEL; `met`: the command before it happened in the same cycle (R86). -/
def cancelOp (r : Req) (met : Bool) (s : State) : State :=
  let t := regWrite r P.LEASE 0x090 3 { s with lease := { s.lease with meets := met } }
  { t with lease := { t.lease with meets := false } }

/-- CANCEL (R86). -/
def execCancel (r : CancelCmd) (s : State) : Answer := gated (cancelOp r.r r.met) s

/-- QUERY (R86). -/
def execQuery (r : Req) (s : State) : Answer := gated (regWrite r P.LEASE 0x090 4) s

/-- FREE_DONE_POP (R93). -/
def execFreeDonePop (r : Req) (s : State) : Answer := gated (regRead r P.LEASE 0x0A0) s

/-- BAR2_WRITE (R87). -/
def execBar2Write (off : Nat) (data : List Byte) (s : State) : Answer := gated (bar2WriteOp off data) s

/-- BAR2_READ (R88). -/
def execBar2Read (off : Nat) (len : Nat) (s : State) : Answer := gated (bar2ReadOp off len) s

/-- GAFFER_MEMORY_ACCESS (R87). -/
def execGafferMemoryAccess (addr : Nat) (len : Nat) (data : Option (List Byte)) (s : State) : Answer :=
  gated (gafferMemOp addr len data) s

end Sys2Proof.Machine
end

