-- ==== Sys2Proof/Machine/PageCmds.lean ====
section
/-!
DEFINITION. Commands of the register pages, epochs, snapshots, clocks and boundaries (01_architecture.md, 02_pages_epochs.md). One
meaning per command, over the shared operations. A command acts while the device runs, unless its docstring says that it always acts.
-/
namespace Sys2Proof.Machine

/-- REGISTER_WRITE (R30). `met` are the events of the page that the block set in the cycle of a write of EVT_STAT (R50). -/
def execRegisterWrite (r : Req) (page : Nat) (off : Nat) (v : WriteData) (s : State) : Answer :=
  gated (if off = 0x010 ∧ (blkOf page).isSome then evtStatWrite r page v.word v.met else regWrite r page off v.word) s

/-- RWS_WRITE (R33). -/
def execRwsWrite (r : Req) (page : Nat) (off : Nat) (v : Word) (s : State) : Answer := gated (regWrite r page off v) s

/-- UNMAPPED_ACCESS (R27). -/
def execUnmappedAccess (r : Req) (page : Nat) (off : Nat) (isWrite : Bool) (s : State) : Answer :=
  gated (reqAccess ⟨r, page, off, isWrite, 0⟩) s

/-- REFUSED_ACCESS_WIDTH (R28). -/
def execRefusedAccessWidth (r : Req) (page : Nat) (off : Nat) (isWrite : Bool) (s : State) : Answer :=
  gated (refusedWidth ⟨r, page, off, isWrite, 0⟩) s

/-- RC_COUNTER_READ (R49). -/
def execRcCounterRead (r : Req) (page : Nat) (off : Nat) (s : State) : Answer := gated (regRead r page off) s

/-- PAIR_LO_READ (R48). -/
def execPairLoRead (r : Req) (page : Nat) (off : Nat) (s : State) : Answer := gated (regRead r page off) s

/-- PAIR_LO_WRITE (R48). -/
def execPairLoWrite (r : Req) (page : Nat) (off : Nat) (v : Word) (s : State) : Answer := gated (regWrite r page off v) s

/-- PAIR_HI_WRITE (R48). -/
def execPairHiWrite (r : Req) (page : Nat) (off : Nat) (v : Word) (s : State) : Answer := gated (regWrite r page off v) s

/-- PAGE_RST (R479). -/
def execPageRst (r : Req) (page : Nat) (s : State) : Answer :=
  gated (fun t => regWrite r page 0x00C (w32 (2 ^ 31) ||| t.rd (H.PAGE_CTRL page) &&& w32 (2 ^ 30) ||| t.bank (H.PAGE_CTRL page) 0 r) t) s

/-- WITHDRAW (R427). -/
def execWithdraw (r : Req) (page : Nat) (s : State) : Answer :=
  gated (fun t => regWrite r page 0x00C (w32 (2 ^ 30) ||| t.bank (H.PAGE_CTRL page) 0 r) t) s

/-- WITHDRAW_TAKES_EFFECT (R427). -/
def execWithdrawTakesEffect (page : Nat) (s : State) : Answer := gated (withdrawNow page) s

/-- BLOCK_RETURN (R428). -/
def execBlockReturn (r : Req) (page : Nat) (s : State) : Answer :=
  gated (fun t => regWrite r page 0x00C (t.bank (H.PAGE_CTRL page) 0 r) t) s

/-- PAGE_RETURN_TO_SERVICE (R39). -/
def execPageReturnToService (page : Nat) (s : State) : Answer := gated (pageReturnOp page) s

/-- EVT_INJ_ARM (R454). -/
def execEvtInjArm (r : Req) (page : Nat) (v : Word) (s : State) : Answer := gated (regWrite r page 0x018 v) s

/-- VEC_EOI (R59). -/
def execVecEoi (r : Req) (v : Word) (s : State) : Answer := gated (regWrite r P.SYS 0x100 v) s

/-- ACCESS_ABANDON (R56). -/
def execAccessAbandon (r : Req) (page : Nat) (isWrite : Bool) (s : State) : Answer := gated (accessAbandonOp r page isWrite) s

/-- BLOCK_CLOCK_RESTART (R57). -/
def execBlockClockRestart (page : Nat) (s : State) : Answer := gated (clockRestartOp page) s

/-- COMMIT (R35). -/
def execCommit (r : Req) (n : Word) (s : State) : Answer := gated (regWrite r P.SYS 0x088 n) s

/-- PAGE_SEAL_ACK (R37). -/
def execPageSealAck (page : Nat) (s : State) : Answer := gated (sealAckOp page) s

/-- REVERT (R33). -/
def execRevert (r : Req) (s : State) : Answer := gated (fun t => regWrite r P.SYS 0x09C (t.bank A.SYS_SHADOW_CTRL 0 r ||| 1) t) s

/-- SNAP_REQ (R42). -/
def execSnapReq (r : Req) (s : State) : Answer := gated (fun t => regWrite r P.SYS 0x0A0 (t.rd A.SYS_SNAP &&& 2 ||| 1) t) s

/-- SNAPSHOT_CAPTURE (R42). -/
def execSnapshotCapture (s : State) : Answer := gated snapshotOp s

/-- EPOCH_APPLY (R38), behind a capture of the same boundary (R42). -/
def execEpochApply (s : State) : Answer := gated step2 s

/-- WARM_RESET (R61). -/
def execWarmReset (r : Req) (v : Word) (s : State) : Answer := gated (regWrite r P.SYS 0x0B0 v) s

/-- FRAME_BOUNDARY (R349). -/
def execFrameBoundary (s : State) : Answer := gated frameBoundaryOp s

/-- STREAM_TIMEOUT (R23). -/
def execStreamTimeout (st : Stream) (s : State) : Answer := gated (streamTimeoutOp st) s

/-- FREQ_SEL (R8). -/
def execFreqSel (r : Req) (v : Word) (s : State) : Answer := gated (regWrite r P.CLK 0x084 v) s

/-- FREQ_GATE_END (R7). -/
def execFreqGateEnd (cycles : Nat) (s : State) : Answer := gated (freqGateEndOp cycles) s

/-- PLL_LOCK_LOST (R8). -/
def execPllLockLost (k : Nat) (s : State) : Answer := gated (pllLostOp k) s

/-- PLL_LOCK_REGAINED (R8). -/
def execPllLockRegained (k : Nat) (s : State) : Answer := gated (pllRegainedOp k) s

/-- REFCLK_ABSENT (R469). -/
def execRefclkAbsent (s : State) : Answer := gated refclkAbsentOp s

/-- PIN_GLITCH (R20), which always acts. -/
def execPinGlitch (pin : Pin) (s : State) : Answer := always (pinGlitchOp pin) s

/-- MSIX_VECTOR_UNMASK (R59). -/
def execMsixVectorUnmask (v : Nat) (s : State) : Answer := gated (msixUnmaskOp v) s

/-- REGISTER_READ (R440). -/
def execRegisterRead (r : Req) (page : Nat) (off : Nat) (s : State) : Answer := gated (regRead r page off) s

/-- PAGE_RST_DONE (R479). -/
def execPageRstDone (page : Nat) (s : State) : Answer := gated (pageRstDoneOp page) s

end Sys2Proof.Machine
end

