-- ==== Sys2Proof/Machine/PortCmds.lean ====
section
/-!
DEFINITION. Commands of the ports, the cullet queues and DMX (10_ports.md). One
meaning per command, over the shared operations. A command acts while the device runs, unless its docstring says that it always acts.
-/
namespace Sys2Proof.Machine

/-- PORT_FRAME_RECEIVE (R302). -/
def execPortFrameReceive (port : Nat) (f : RxFrame) (s : State) : Answer := gated (portReceiveOp port f) s

/-- PAUSE_HOLD_END (R308). -/
def execPauseHoldEnd (port : Nat) (s : State) : Answer := gated (pauseHoldEndOp port) s

/-- XOFF_PAUSE_REFRESH (R309). -/
def execXoffPauseRefresh (port : Nat) (s : State) : Answer := gated (xoffRefreshOp port) s

/-- FLOW_MATCH (R137). -/
def execFlowMatch (port : Nat) (d : Datagram) (s : State) : Answer := gated (flowMatchOp port d) s

/-- PORT_FRAME_SENT (R305). -/
def execPortFrameSent (port : Nat) (s : State) : Answer := gated (portSentOp port) s

/-- LINK_UP (R310). -/
def execLinkUp (port : Nat) (rate : Nat) (partnerAdv : Nat) (s : State) : Answer := gated (linkUpOp port rate partnerAdv) s

/-- LINK_DOWN (R301). -/
def execLinkDown (port : Nat) (s : State) : Answer := gated (linkDownOp port) s

/-- VERIFY_TIMEOUT (R310). -/
def execVerifyTimeout (port : Nat) (s : State) : Answer := gated (verifyTimeoutOp port) s

/-- RENEG_TIMEOUT (R317). -/
def execRenegTimeout (port : Nat) (s : State) : Answer := gated (renegTimeoutOp port) s

/-- DATA_LO_POP (R321). -/
def execDataLoPop (r : Req) (q : Nat) (s : State) : Answer := gated (regRead r (P.Q q) 0x098) s

/-- DROP_PKT (R323). -/
def execDropPkt (r : Req) (q : Nat) (s : State) : Answer := gated (regWrite r (P.Q q) 0x0A4 1) s

/-- FLUSH (R323). -/
def execFlush (r : Req) (q : Nat) (s : State) : Answer := gated (regWrite r (P.Q q) 0x0A4 2) s

/-- DMX_PACKET_START (R326). -/
def execDmxPacketStart (n : Nat) (s : State) : Answer := gated (dmxStartOp n) s

/-- DMX_INPUT_PACKET_END (R327). -/
def execDmxInputPacketEnd (n : Nat) (p : DmxPacket) (s : State) : Answer := gated (dmxInputOp n p) s

/-- RDM_SEND (R328). -/
def execRdmSend (r : Req) (v : Word) (s : State) : Answer := gated (regWrite r P.DMX 0x084 v) s

/-- RDM_RESPONSE_END (R328). -/
def execRdmResponseEnd (data : RdmResponse) (collision : Bool) (s : State) : Answer :=
  gated (rdmResponseEndOp data.data collision data.took) s

/-- RDM_RESPONSE_TIMEOUT (R328). -/
def execRdmResponseTimeout (s : State) : Answer := gated rdmTimeoutOp s

/-- DMX_PACKET_END (R328). -/
def execDmxPacketEnd (n : Nat) (s : State) : Answer := gated (dmxEndOp n) s

/-- RDM_REQUEST_END (R328). -/
def execRdmRequestEnd (s : State) : Answer := gated rdmRequestEndOp s

end Sys2Proof.Machine
end

