-- ==== Sys2Proof/Machine/RenderCmds.lean ====
section
/-!
DEFINITION. Commands of the bench scheduler (04_render_jobs.md). One
meaning per command, over the shared operations. A command acts while the device runs, unless its docstring says that it always acts.
-/
namespace Sys2Proof.Machine

/-- JOB_COMPLETE: a SAMPLE job cannot finish while a slice holds the sampler, since its grants wait (R129, R436). -/
def jobDoneOp (b : Nat) (s : State) : State :=
  let sample := match (s.bench b).job with | some j => dKind j.desc == 2 | none => false
  if sample && s.sliceOn P.SAMPLER then s else jobCompleteOp b s

/-- DELAY_EXPIRE: the tick at which the delay of a slot runs out (R121). -/
def delayDueOp (k : Nat) (s : State) : State :=
  delayExpireOp k (match s.delayDue k with | some due => if s.schedEn then reach due s else s | none => s)

/-- AFFINITY_WINDOW_EXPIRE: the end of the window of a job in AFFINITY, AFF_WINDOW after its selection (R126). -/
def affinityDueOp (k : Nat) (s : State) : State :=
  match s.sched.affinity.find? fun e => e.slot == k with
  | none => s
  | some e =>
    let due := e.since + s.actF A.SCHED_AFF_WINDOW ⟨15, 0⟩
    let t := reach due s
    if due ≤ t.nowNs then affinityExpireOp k t else t

/-- The deadline of the layers in the frame in progress: boundary N + F × CLOSE_AT / 256 (R123), at the first nanosecond not before it. -/
def State.closeDue (s : State) : Nat := s.time.boundary + (s.time.period * s.actF A.SCHED_CTRL F.SCHED_CTRL_CLOSE_AT + 255) / 256

/-- LAYER_DEADLINE: the deadline comes, and an open layer closes (R123, R124). -/
def deadlineOp (i : Nat) (s : State) : State :=
  let t := if (s.layerSt i).isOpen then reach s.closeDue s else s
  if t.closeDue ≤ t.nowNs then layerDeadlineOp i t else t

/-- What a CANCEL of slot `k` may meet, as a command of its own. -/
def meetAlone (k : Nat) (m : Meet) (s : State) : State :=
  match m with
  | .arm q => regWrite q P.SCHED 0x098 (w32 (1 * 2 ^ 28 + k)) s
  | .pset q f => regWrite q P.SCHED 0x098 (w32 (3 * 2 ^ 28 + f.toNat * 65536 + k)) s
  | .gset q f => regWrite q P.SCHED 0x0B4 (f.extractLsb' 32 32) (regWrite q P.SCHED 0x0B0 (f.extractLsb' 0 32) s)
  | .finish => match s.benchOf k with | some b => jobDoneOp b s | none => s
  | .delay => delayDueOp k s
  | .other b => jobDoneOp b s

/-- SLOT_CANCEL, with what meets it in its cycle (R117, R127); an end that does not come in that cycle meets nothing. Where the write does not reach the scheduler at once (a boundary holds
it, the crossing waits) or an injection takes it, the two are taken one after the other. -/
def slotCancelOp (r : Req) (slot : Nat) (meets : Option Meet) (s : State) : State :=
  let k := slot % 4096
  let cancel (t : State) : State := regWrite r P.SCHED 0x098 (w32 (2 * 2 ^ 28 + k)) t
  let ends (b : Nat) : Bool :=
    match (s.bench b).job with | some j => dKind j.desc != 2 || !s.sliceOn P.SAMPLER | none => false
  let m := match meets with
    | some .finish => if (s.benchOf k).any ends then some Meet.finish else none
    | some (.other b) => if !ends b then none else if s.benchOf k = some b then some Meet.finish else some (Meet.other b)
    | some .delay => if (delayDueOp k s).slot k = s.slot k then none else some Meet.delay
    | m => m
  match m with
  | none => cancel s
  | some m =>
    if s.sched.holding || s.mustWait P.SCHED || bitOf (s.rd (H.PAGE_STAT P.SCHED)) 28 || s.injArmed P.SCHED 30 ||
        s.injArmed P.SCHED 31 || s.injArmed P.HOST 1 then cancel (meetAlone k m s)
    else
      let due := match m with | .delay => s.delayDue k | _ => none
      (slotRace r k m (match due with | some t => reach t s | none => s)).reply r .done

/-- ARM (R117). -/
def execArm (r : Req) (slot : Nat) (s : State) : Answer := gated (regWrite r P.SCHED 0x098 (w32 (1 * 2 ^ 28 + slot % 4096))) s

/-- SLOT_CANCEL (R117). -/
def execSlotCancel (r : Req) (slot : Nat) (meets : Option Meet) (s : State) : Answer := gated (slotCancelOp r slot meets) s

/-- PSET (R119). -/
def execPset (r : Req) (slot : Nat) (flags : Byte) (s : State) : Answer :=
  gated (regWrite r P.SCHED 0x098 (w32 (3 * 2 ^ 28 + flags.toNat * 65536 + slot % 4096))) s

/-- PCLR (R119). -/
def execPclr (r : Req) (slot : Nat) (flags : Byte) (s : State) : Answer :=
  gated (regWrite r P.SCHED 0x098 (w32 (4 * 2 ^ 28 + flags.toNat * 65536 + slot % 4096))) s

/-- SLOT_QUERY (R134). -/
def execSlotQuery (r : Req) (slot : Nat) (s : State) : Answer :=
  gated (regWrite r P.SCHED 0x098 (w32 (5 * 2 ^ 28 + slot % 4096))) s

/-- GSET (R119). -/
def execGset (r : Req) (flags : Cell) (s : State) : Answer :=
  gated (fun t => regWrite r P.SCHED 0x0B4 (flags.extractLsb' 32 32) (regWrite r P.SCHED 0x0B0 (flags.extractLsb' 0 32) t)) s

/-- GCLR (R119). -/
def execGclr (r : Req) (flags : Cell) (s : State) : Answer :=
  gated (fun t => regWrite r P.SCHED 0x0BC (flags.extractLsb' 32 32) (regWrite r P.SCHED 0x0B8 (flags.extractLsb' 0 32) t)) s

/-- SCHED_HELD_WRITES_APPLY (R128). -/
def execSchedHeldWritesApply (s : State) : Answer := gated heldApplyOp s

/-- DELAY_EXPIRE (R121). -/
def execDelayExpire (slot : Nat) (s : State) : Answer := gated (delayDueOp slot) s

/-- AFFINITY_WINDOW_EXPIRE (R126). -/
def execAffinityWindowExpire (slot : Nat) (s : State) : Answer := gated (affinityDueOp slot) s

/-- JOB_COMPLETE (R129). -/
def execJobComplete (bench : Nat) (s : State) : Answer := gated (jobDoneOp bench) s

/-- LAYER_DEADLINE (R124). -/
def execLayerDeadline (layer : Nat) (s : State) : Answer := gated (deadlineOp layer) s

/-- LS_ECC_ERROR (R132). -/
def execLsEccError (bench : Nat) (word : Nat) (uncorrectable : Bool) (s : State) : Answer :=
  gated (lsErrorOp bench word uncorrectable) s

end Sys2Proof.Machine
end

