-- ==== Sys2Proof/Machine/ScanCmds.lean ====
section
/-!
DEFINITION. Commands of the scan engines (08_scanout_latch.md). One
meaning per command, over the shared operations. A command acts while the device runs, unless its docstring says that it always acts.
-/
namespace Sys2Proof.Machine

/-- ENGINE_FRAME_START (R226). -/
def execEngineFrameStart (e : Nat) (s : State) : Answer := gated (engineFrameStartOp e) s

/-- SCAN_WALK_RESUME (R228). -/
def execScanWalkResume (e : Nat) (j : Nat) (s : State) : Answer := gated (walkResumeOp e j) s

/-- LEVEL_FRAME_FLUSH (R266). -/
def execLevelFrameFlush (e : Nat) (j : Nat) (s : State) : Answer := gated (levelFlushOp e j) s

/-- UNDERRUN_POINT (R226). -/
def execUnderrunPoint (e : Nat) (s : State) : Answer := gated (underrunOp e) s

/-- SEND_END (R238). -/
def execSendEnd (e : Nat) (j : Nat) (s : State) : Answer := gated (sendEndOp e j) s

/-- ENGINE_LATCH_POINT (R226). -/
def execEngineLatchPoint (e : Nat) (s : State) : Answer := gated (engineLatch e) s

/-- DIRECT_BASE (R230). -/
def execDirectBase (r : Req) (e : Nat) (v : Word) (s : State) : Answer := gated (regWrite r (P.SCAN e) 0x098 v) s

end Sys2Proof.Machine
end

