-- ==== Sys2Proof/Machine/StartCmds.lean ====
section
/-!
DEFINITION. Commands of start, reset, the mailbox, update, the keeper and the PCIe endpoint (14_start_update.md, 16_electrical.md). One
meaning per command, over the shared operations. A command acts while the device runs, unless its docstring says that it always acts.
-/
namespace Sys2Proof.Machine

/-- KEEPER_LOST, while the core supplies are lost (R471). -/
def keeperLostCmdOp (s : State) : State := if s.power.por then keeperLostOp s else s

/-- POWER_ON_RESET (R465), which always acts. -/
def execPowerOnReset (s : State) : Answer := always powerOnOp s

/-- RST_N (R466), which always acts. -/
def execRstN (low : Bool) (s : State) : Answer := always (rstNOp low) s

/-- SUPPLY_FALL (R467), which always acts. -/
def execSupplyFall (s : State) : Answer := always supplyFallOp s

/-- RESET_RELEASE (R409), which always acts. -/
def execResetRelease (s : State) : Answer := always resetReleaseOp s

/-- BOOT_ROM_RUN (R414). -/
def execBootRomRun (s : State) : Answer := gated bootRomOp s

/-- READY (R409). -/
def execReady (s : State) : Answer := gated readyOp s

/-- PING (R421). -/
def execPing (src : MbxSrc) (tag : Nat) (s : State) : Answer := gated (mbxCommand src 0x01 tag []) s

/-- INFO (R421). -/
def execInfo (src : MbxSrc) (tag : Nat) (s : State) : Answer := gated (mbxCommand src 0x02 tag []) s

/-- IMAGE_BEGIN (R421). -/
def execImageBegin (src : MbxSrc) (tag : Nat) (total : Nat) (s : State) : Answer :=
  gated (mbxCommand src 0x10 tag (beBytes 4 total)) s

/-- IMAGE_DATA (R421). -/
def execImageData (src : MbxSrc) (tag : Nat) (off : Nat) (data : List Byte) (s : State) : Answer :=
  gated (mbxCommand src 0x11 tag (beBytes 4 off ++ data)) s

/-- IMAGE_BUF (R421). -/
def execImageBuf (src : MbxSrc) (tag : Nat) (buf : Nat) (bytes : Nat) (s : State) : Answer :=
  gated (mbxCommand src 0x12 tag (beBytes 4 buf ++ beBytes 4 bytes)) s

/-- IMAGE_END (R421). -/
def execImageEnd (src : MbxSrc) (tag : Nat) (s : State) : Answer := gated (mbxCommand src 0x13 tag []) s

/-- IMAGE_VERIFY_DONE (R413). -/
def execImageVerifyDone (s : State) : Answer := gated imageVerifyDoneOp s

/-- UPDATE (R423). -/
def execUpdate (src : MbxSrc) (tag : Nat) (s : State) : Answer := gated (mbxCommand src 0x20 tag []) s

/-- REVERT_UPDATE (R426). -/
def execRevertUpdate (src : MbxSrc) (tag : Nat) (s : State) : Answer := gated (mbxCommand src 0x21 tag []) s

/-- CONFIRM (R421). -/
def execConfirm (src : MbxSrc) (tag : Nat) (s : State) : Answer := gated (mbxCommand src 0x22 tag []) s

/-- SET_SAVE (R419). -/
def execSetSave (src : MbxSrc) (tag : Nat) (buf : Nat) (count : Nat) (s : State) : Answer :=
  gated (mbxCommand src 0x30 tag (beBytes 4 buf ++ beBytes 4 count)) s

/-- SET_SAVE_DONE (R419). -/
def execSetSaveDone (s : State) : Answer := gated setSaveDoneOp s

/-- SET_READ (R421). -/
def execSetRead (src : MbxSrc) (tag : Nat) (copy : Nat) (off : Nat) (s : State) : Answer :=
  gated (mbxCommand src 0x31 tag (beBytes 4 copy ++ beBytes 4 off)) s

/-- JACK_RELOAD (R422). -/
def execJackReload (src : MbxSrc) (tag : Nat) (core : Nat) (s : State) : Answer :=
  gated (mbxCommand src 0x40 tag (beBytes 4 core)) s

/-- JACK_RELOAD_DONE (R422). -/
def execJackReloadDone (core : Nat) (s : State) : Answer := gated (jackDoneOp core) s

/-- REBOOT (R421). -/
def execReboot (src : MbxSrc) (tag : Nat) (key : Nat) (s : State) : Answer := gated (mbxCommand src 0x50 tag (beBytes 4 key)) s

/-- MG_DROP (R420). -/
def execMgDrop (s : State) : Answer := gated mgDropOp s

/-- UPDATE_LOAD_DONE (R424). -/
def execUpdateLoadDone (s : State) : Answer := gated updateLoadDoneOp s

/-- UPDATE_MIGRATION_DONE (R424). -/
def execUpdateMigrationDone (ok : Bool) (s : State) : Answer := gated (updateMigrationOp ok) s

/-- UPDATE_HANDOVER (R424). -/
def execUpdateHandover (s : State) : Answer := gated updateHandoverOp s

/-- UPDATE_CONFIRMED (R424). -/
def execUpdateConfirmed (s : State) : Answer := gated updateConfirmedOp s

/-- UPDATE_REVERSED (R426). -/
def execUpdateReversed (s : State) : Answer := gated updateReversedOp s

/-- WATCHDOG_EXPIRE (R426). -/
def execWatchdogExpire (s : State) : Answer := gated watchdogOp s

/-- KEEP_SECOND (R429), which always acts. -/
def execKeepSecond (s : State) : Answer := always keepSecondOp s

/-- KEEP_SEC_WRITE (R434). -/
def execKeepSecWrite (r : Req) (hi : Word) (s : State) : Answer := gated (regWrite r P.KEEP 0x084 hi) s

/-- TAMPER (R430), which always acts. -/
def execTamper (s : State) : Answer := always tamperOp s

/-- LOG0_POP (R434). -/
def execLog0Pop (r : Req) (s : State) : Answer := gated (regRead r P.KEEP 0x090) s

/-- PCIE_LINK_CHANGE (R433). -/
def execPcieLinkChange (up : Bool) (speed : Nat) (width : Nat) (s : State) : Answer := gated (pcieLinkOp up speed width) s

/-- PCIE_ERROR (R433). -/
def execPcieError (uncorrectable : Bool) (s : State) : Answer := gated (pcieErrorOp uncorrectable) s

/-- FLR (R433). -/
def execFlr (s : State) : Answer := gated flrOp s

/-- KEEPER_LOST (R471), which always acts. -/
def execKeeperLost (s : State) : Answer := always keeperLostCmdOp s

/-- PROBATION_FAILURE (R426). -/
def execProbationFailure (s : State) : Answer := gated probationFailureOp s

end Sys2Proof.Machine
end

