-- ==== Sys2Proof/Machine/TimeCmds.lean ====
section
/-!
DEFINITION. Commands of the time unit, PTP, genlock, LTC, triggers and captures (11_time.md). One
meaning per command, over the shared operations. A command acts while the device runs, unless its docstring says that it always acts.
-/
namespace Sys2Proof.Machine

/-- TIME_CAPTURE (R334). -/
def execTimeCapture (r : Req) (s : State) : Answer := gated (regWrite r P.TIME 0x0A8 1) s

/-- Krafohel time reaches the first tick at or after a time in 2⁻³² ns, where there is one (log entry 4). -/
def reachT (due : Option Nat) (s : State) : State :=
  match due with
  | some d => if d ≤ s.time.t ∨ s.nextBoundary.1 * ((2 ^ 32 : Nat) : Rat) < (d : Rat) then s else advanceT d s
  | none => s

/-- PTP_ANNOUNCE (R336). -/
def execPtpAnnounce (d : Nat) (m : PtpAnnounce) (s : State) : Answer := gated (ptpAnnounceOp d m) s

/-- PTP_SYNC (R337). -/
def execPtpSync (d : Nat) (m : PtpSync) (s : State) : Answer := gated (ptpSyncOp d m) s

/-- PTP_FOLLOW_UP (R336). -/
def execPtpFollowUp (d : Nat) (m : PtpFollowUp) (s : State) : Answer := gated (ptpFollowUpOp d m) s

/-- PTP_DELAY_RESP (R337). -/
def execPtpDelayResp (d : Nat) (m : PtpDelayResp) (s : State) : Answer := gated (ptpDelayRespOp d m) s

/-- PTP_DELAY_REQ_SEND (R336): when the interval allows it. -/
def execPtpDelayReqSend (d : Nat) (s : State) : Answer := gated (fun s => ptpDelayReqSendOp d (reach (s.dreqDue d) s)) s

/-- PTP_DOMAIN_LOST (R337): when the parent has been silent for ANN_TO of its intervals. -/
def execPtpDomainLost (d : Nat) (s : State) : Answer := gated (fun s => ptpLostOp d (reach (s.lostDue d) s)) s

/-- PTP_REVERT (R339): when TA has been VALID for REVERT_S. -/
def execPtpRevert (s : State) : Answer := gated (fun s => ptpRevertOp (reach s.revertDue s)) s

/-- TSQ_POP (R358). -/
def execTsqPop (r : Req) (s : State) : Answer := gated (regRead r P.TIME 0x188) s

/-- GENLOCK_EDGE (R350). -/
def execGenlockEdge (s : State) : Answer := gated genlockEdgeOp s

/-- GENLOCK_FLYWHEEL (R350). -/
def execGenlockFlywheel (s : State) : Answer := gated (fun s => genlockFlywheelOp (reach (s.glDue.getD 0) s)) s

/-- LTC_FRAME (R353). -/
def execLtcFrame (f : LtcFrame) (s : State) : Answer := gated (ltcFrameOp f) s

/-- LTC_FLYWHEEL (R354). -/
def execLtcFlywheel (s : State) : Answer := gated (fun s => ltcFlywheelOp (reach s.ltcFlyDue s)) s

/-- TRIGGER_PULSE (R355). -/
def execTriggerPulse (n : Nat) (s : State) : Answer := gated (fun s => triggerPulseOp n (reachT (s.trigDue n) s)) s

/-- TRIGGER_PULSE_END (R355). -/
def execTriggerPulseEnd (n : Nat) (s : State) : Answer := gated (fun s => triggerPulseEndOp n (reachT (s.trigEndDue n) s)) s

/-- CAPTURE_EDGE (R357). -/
def execCaptureEdge (c : Nat) (rising : Bool) (s : State) : Answer := gated (captureEdgeOp c rising) s

/-- CAPTURE_POP (R357). -/
def execCapturePop (r : Req) (c : Nat) (s : State) : Answer := gated (regRead r P.TRIG (0x404 + c % 8 * 0x20)) s

end Sys2Proof.Machine
end

