-- ==== Sys2Proof/Machine/TuiperCmds.lean ====
section
/-!
DEFINITION. Commands of Tuiper, fixture supervision and fail-together sets (09_tuiper_link.md). One
meaning per command, over the shared operations. A command acts while the device runs, unless its docstring says that it always acts.
-/
namespace Sys2Proof.Machine

/-- TELEMETRY: a report that fills the colour loop's queue ends a slice there (R285, R440). -/
def telemetryArriveOp (link : Nat) (ws : List Word) (s : State) : State :=
  let s := telemetryOp link ws s
  if 4096 ≤ s.loop.queue.length then sliceStopOn .service P.CLOOP s else s

/-- TUIPER_SYNC_SEND (R345): at the next multiple of the interval. -/
def execTuiperSyncSend (s : State) : Answer :=
  gated (fun s => tuiperSyncOp (reach (s.syncNext * s.syncStep / 2 ^ 32) s)) s

/-- DELAY_REQ (R275). -/
def execDelayReq (link : Nat) (words : List Word) (s : State) : Answer := gated (delayReqOp link words) s

/-- TELEMETRY (R285). -/
def execTelemetry (link : Nat) (words : List Word) (s : State) : Answer := gated (telemetryArriveOp link words) s

/-- TEL_LOST (R288). -/
def execTelLost (fix : Nat) (s : State) : Answer := gated (telLostOp fix) s

/-- HK_FRAME (R282). -/
def execHkFrame (link : Nat) (words : List Word) (s : State) : Answer := gated (hkFrameOp link words) s

/-- ENUM (R282). -/
def execTxEnum (r : Req) (v : Word) (s : State) : Answer := gated (regWrite r P.TUIPER 0x0B0 (fput v F.TUIPER_TX_CMD_TYPE 7)) s

/-- SET (R282). -/
def execTxSet (r : Req) (v : Word) (s : State) : Answer := gated (regWrite r P.TUIPER 0x0B0 (fput v F.TUIPER_TX_CMD_TYPE 8)) s

/-- TX_REQUEST_BEGUN (R282). -/
def execTxRequestBegun (s : State) : Answer := gated txBegunOp s

/-- FAULT_Q_POP (R289). -/
def execFaultQPop (r : Req) (s : State) : Answer := gated (regRead r P.TUIPER 0x0B8) s

/-- SET_STATE_CHANGE (R292). -/
def execSetStateChange (set : Nat) (s : State) : Answer := gated (setStepOp set) s

/-- SET_HOLD_COMPLETE (R292). -/
def execSetHoldComplete (set : Nat) (s : State) : Answer := gated (setHoldOp set) s

/-- FORCE (R292). -/
def execForce (r : Req) (set : Nat) (s : State) : Answer := gated (regWrite r P.SETS 0x090 (w32 (1 * 2 ^ 28 + set % 4096))) s

/-- REARM (R292). -/
def execRearm (r : Req) (set : Nat) (s : State) : Answer := gated (regWrite r P.SETS 0x090 (w32 (2 * 2 ^ 28 + set % 4096))) s

/-- SETS_QUERY (R297). -/
def execSetsQuery (r : Req) (set : Nat) (s : State) : Answer := gated (regWrite r P.SETS 0x090 (w32 (3 * 2 ^ 28 + set % 4096))) s

/-- TRANS_Q_POP (R295). -/
def execTransQPop (r : Req) (s : State) : Answer := gated (regRead r P.SETS 0x0A0) s

end Sys2Proof.Machine
end

