-- ==== Sys2Proof/Machine/TwinCmds.lean ====
section
/-!
DEFINITION. Commands of the twin pair (12_twin.md). One
meaning per command, over the shared operations. A command acts while the device runs, unless its docstring says that it always acts.
-/
namespace Sys2Proof.Machine

/-- HELLO_SEND (R366). -/
def execHelloSend (s : State) : Answer := gated helloSendOp s

/-- HELLO (R366). -/
def execHello (pl : Nat) (words : List Word) (s : State) : Answer := gated (helloOp pl words) s

/-- PEER_LOST (R366). -/
def execPeerLost (s : State) : Answer := gated peerLostOp s

/-- SEEK_TIMEOUT (R377). -/
def execSeekTimeout (s : State) : Answer := gated seekTimeoutOp s

/-- HEAD (R368). -/
def execHead (pl : Nat) (words : List Word) (s : State) : Answer := gated (headOp pl words) s

/-- HEAD_MISS (R372). -/
def execHeadMiss (s : State) : Answer := gated headMissOp s

/-- REC (R374). -/
def execRecMsg (pl : Nat) (words : List Word) (body : List Byte) (s : State) : Answer := gated (recOp pl words body) s

/-- REC_MISS (R375). -/
def execRecMiss (s : State) : Answer := gated recMissOp s

/-- RECORD_APPLY (R375). -/
def execRecordApply (s : State) : Answer := gated recordApplyOp s

/-- ACK (R373). -/
def execAck (pl : Nat) (words : List Word) (s : State) : Answer := gated (ackOp pl words) s

/-- TAKEOVER (R378). -/
def execTakeover (s : State) : Answer := gated takeoverCmdOp s

/-- TAKE (R380). -/
def execTake (r : Req) (s : State) : Answer := gated (regWrite r P.TWIN 0x094 (w32 (1 * 2 ^ 28))) s

/-- YIELD (R380). -/
def execYieldCmd (r : Req) (s : State) : Answer := gated (regWrite r P.TWIN 0x094 (w32 (2 * 2 ^ 28))) s

/-- REJOIN (R384). -/
def execRejoin (r : Req) (s : State) : Answer := gated (regWrite r P.TWIN 0x094 (w32 (3 * 2 ^ 28))) s

/-- CLEAR_FAILOVER (R381). -/
def execClearFailover (r : Req) (s : State) : Answer := gated (regWrite r P.TWIN 0x094 (w32 (4 * 2 ^ 28))) s

/-- TAKE_MESSAGE (R380). -/
def execTakeMessage (pl : Nat) (words : List Word) (s : State) : Answer := gated (takeMsgOp pl words) s

/-- TAKE_OK (R380). -/
def execTakeOk (pl : Nat) (words : List Word) (s : State) : Answer := gated (takeOkOp pl words) s

/-- TAKEBACK (R380). -/
def execTakeback (s : State) : Answer := gated takebackCmdOp s

end Sys2Proof.Machine
end

