-- ==== Sys2Proof/Machine/Dispatch.lean ====
section
/-!
DEFINITION. Which meaning each command has: one arm per constructor of Instr.
-/
namespace Sys2Proof.Machine

/-- The effect of a command on everything but the queue. -/
def exec (i : Instr) (s : State) : Host.Outcome State Fault Refusal :=
  match i with
  | .registerWrite r page off v => Sys2Proof.Machine.execRegisterWrite r page off v s
  | .rwsWrite r page off v => Sys2Proof.Machine.execRwsWrite r page off v s
  | .unmappedAccess r page off isWrite => Sys2Proof.Machine.execUnmappedAccess r page off isWrite s
  | .refusedAccessWidth r page off isWrite => Sys2Proof.Machine.execRefusedAccessWidth r page off isWrite s
  | .rcCounterRead r page off => Sys2Proof.Machine.execRcCounterRead r page off s
  | .pairLoRead r page off => Sys2Proof.Machine.execPairLoRead r page off s
  | .pairLoWrite r page off v => Sys2Proof.Machine.execPairLoWrite r page off v s
  | .pairHiWrite r page off v => Sys2Proof.Machine.execPairHiWrite r page off v s
  | .pageRst r page => Sys2Proof.Machine.execPageRst r page s
  | .withdraw r page => Sys2Proof.Machine.execWithdraw r page s
  | .withdrawTakesEffect page => Sys2Proof.Machine.execWithdrawTakesEffect page s
  | .blockReturn r page => Sys2Proof.Machine.execBlockReturn r page s
  | .pageReturnToService page => Sys2Proof.Machine.execPageReturnToService page s
  | .evtInjArm r page v => Sys2Proof.Machine.execEvtInjArm r page v s
  | .vecEoi r v => Sys2Proof.Machine.execVecEoi r v s
  | .accessAbandon r page isWrite => Sys2Proof.Machine.execAccessAbandon r page isWrite s
  | .blockClockRestart page => Sys2Proof.Machine.execBlockClockRestart page s
  | .commit r n => Sys2Proof.Machine.execCommit r n s
  | .pageSealAck page => Sys2Proof.Machine.execPageSealAck page s
  | .revert r => Sys2Proof.Machine.execRevert r s
  | .snapReq r => Sys2Proof.Machine.execSnapReq r s
  | .snapshotCapture => Sys2Proof.Machine.execSnapshotCapture s
  | .epochApply => Sys2Proof.Machine.execEpochApply s
  | .warmReset r v => Sys2Proof.Machine.execWarmReset r v s
  | .frameBoundary => Sys2Proof.Machine.execFrameBoundary s
  | .streamTimeout st => Sys2Proof.Machine.execStreamTimeout st s
  | .freqSel r v => Sys2Proof.Machine.execFreqSel r v s
  | .freqGateEnd cycles => Sys2Proof.Machine.execFreqGateEnd cycles s
  | .pllLockLost k => Sys2Proof.Machine.execPllLockLost k s
  | .pllLockRegained k => Sys2Proof.Machine.execPllLockRegained k s
  | .refclkAbsent => Sys2Proof.Machine.execRefclkAbsent s
  | .pinGlitch pin => Sys2Proof.Machine.execPinGlitch pin s
  | .mapsBuild r v => Sys2Proof.Machine.execMapsBuild r v s
  | .mapBuildEnd => Sys2Proof.Machine.execMapBuildEnd s
  | .mapSet r v => Sys2Proof.Machine.execMapSet r v s
  | .define r => Sys2Proof.Machine.execDefine r s
  | .free r => Sys2Proof.Machine.execFree r s
  | .cancel r => Sys2Proof.Machine.execCancel r s
  | .query r => Sys2Proof.Machine.execQuery r s
  | .freeDonePop r => Sys2Proof.Machine.execFreeDonePop r s
  | .bar2Write off data => Sys2Proof.Machine.execBar2Write off data s
  | .bar2Read off len => Sys2Proof.Machine.execBar2Read off len s
  | .gafferMemoryAccess addr len data => Sys2Proof.Machine.execGafferMemoryAccess addr len data s
  | .arm r slot => Sys2Proof.Machine.execArm r slot s
  | .slotCancel r slot meets => Sys2Proof.Machine.execSlotCancel r slot meets s
  | .pset r slot flags => Sys2Proof.Machine.execPset r slot flags s
  | .pclr r slot flags => Sys2Proof.Machine.execPclr r slot flags s
  | .slotQuery r slot => Sys2Proof.Machine.execSlotQuery r slot s
  | .gset r flags => Sys2Proof.Machine.execGset r flags s
  | .gclr r flags => Sys2Proof.Machine.execGclr r flags s
  | .schedHeldWritesApply => Sys2Proof.Machine.execSchedHeldWritesApply s
  | .delayExpire slot => Sys2Proof.Machine.execDelayExpire slot s
  | .affinityWindowExpire slot => Sys2Proof.Machine.execAffinityWindowExpire slot s
  | .jobComplete bench => Sys2Proof.Machine.execJobComplete bench s
  | .layerDeadline layer => Sys2Proof.Machine.execLayerDeadline layer s
  | .lsEccError bench word uncorrectable => Sys2Proof.Machine.execLsEccError bench word uncorrectable s
  | .portFrameReceive port f => Sys2Proof.Machine.execPortFrameReceive port f s
  | .pauseHoldEnd port => Sys2Proof.Machine.execPauseHoldEnd port s
  | .xoffPauseRefresh port => Sys2Proof.Machine.execXoffPauseRefresh port s
  | .flowMatch port d => Sys2Proof.Machine.execFlowMatch port d s
  | .videoPacket flow p => Sys2Proof.Machine.execVideoPacket flow p s
  | .hostPost r flow v => Sys2Proof.Machine.execHostPost r flow v s
  | .sacnDataPacket flow p => Sys2Proof.Machine.execSacnDataPacket flow p s
  | .sacnSyncPacket flow p => Sys2Proof.Machine.execSacnSyncPacket flow p s
  | .sacnSourceExpire flow cid univ => Sys2Proof.Machine.execSacnSourceExpire flow cid univ s
  | .levels flow words bytes => Sys2Proof.Machine.execLevels flow words bytes s
  | .flags flow words bytes => Sys2Proof.Machine.execFlags flow words bytes s
  | .consoleFlagsApply => Sys2Proof.Machine.execConsoleFlagsApply s
  | .timecode flow words bytes => Sys2Proof.Machine.execTimecode flow words bytes s
  | .user flow words bytes => Sys2Proof.Machine.execUser flow words bytes s
  | .marverBaseWriterDone => Sys2Proof.Machine.execMarverBaseWriterDone s
  | .marverPassStart => Sys2Proof.Machine.execMarverPassStart s
  | .marverPassEnd => Sys2Proof.Machine.execMarverPassEnd s
  | .solverFrameDone => Sys2Proof.Machine.execSolverFrameDone s
  | .loopGainChangeover => Sys2Proof.Machine.execLoopGainChangeover s
  | .loopReportJudge => Sys2Proof.Machine.execLoopReportJudge s
  | .resetFix r fix => Sys2Proof.Machine.execResetFix r fix s
  | .resetAll r => Sys2Proof.Machine.execResetAll r s
  | .resetAllDone => Sys2Proof.Machine.execResetAllDone s
  | .engineFrameStart e => Sys2Proof.Machine.execEngineFrameStart e s
  | .scanWalkResume e j => Sys2Proof.Machine.execScanWalkResume e j s
  | .levelFrameFlush e j => Sys2Proof.Machine.execLevelFrameFlush e j s
  | .underrunPoint e => Sys2Proof.Machine.execUnderrunPoint e s
  | .sendEnd e j => Sys2Proof.Machine.execSendEnd e j s
  | .engineLatchPoint e => Sys2Proof.Machine.execEngineLatchPoint e s
  | .directBase r e v => Sys2Proof.Machine.execDirectBase r e v s
  | .portFrameSent port => Sys2Proof.Machine.execPortFrameSent port s
  | .tuiperSyncSend => Sys2Proof.Machine.execTuiperSyncSend s
  | .delayReq link words => Sys2Proof.Machine.execDelayReq link words s
  | .telemetry link words => Sys2Proof.Machine.execTelemetry link words s
  | .telLost fix => Sys2Proof.Machine.execTelLost fix s
  | .hkFrame link words => Sys2Proof.Machine.execHkFrame link words s
  | .txEnum r v => Sys2Proof.Machine.execTxEnum r v s
  | .txSet r v => Sys2Proof.Machine.execTxSet r v s
  | .txRequestBegun => Sys2Proof.Machine.execTxRequestBegun s
  | .faultQPop r => Sys2Proof.Machine.execFaultQPop r s
  | .setStateChange set => Sys2Proof.Machine.execSetStateChange set s
  | .setHoldComplete set => Sys2Proof.Machine.execSetHoldComplete set s
  | .force r set => Sys2Proof.Machine.execForce r set s
  | .rearm r set => Sys2Proof.Machine.execRearm r set s
  | .setsQuery r set => Sys2Proof.Machine.execSetsQuery r set s
  | .transQPop r => Sys2Proof.Machine.execTransQPop r s
  | .linkUp port rate partnerAdv => Sys2Proof.Machine.execLinkUp port rate partnerAdv s
  | .linkDown port => Sys2Proof.Machine.execLinkDown port s
  | .verifyTimeout port => Sys2Proof.Machine.execVerifyTimeout port s
  | .renegTimeout port => Sys2Proof.Machine.execRenegTimeout port s
  | .dataLoPop r q => Sys2Proof.Machine.execDataLoPop r q s
  | .dropPkt r q => Sys2Proof.Machine.execDropPkt r q s
  | .flush r q => Sys2Proof.Machine.execFlush r q s
  | .dmxPacketStart n => Sys2Proof.Machine.execDmxPacketStart n s
  | .dmxInputPacketEnd n p => Sys2Proof.Machine.execDmxInputPacketEnd n p s
  | .rdmSend r v => Sys2Proof.Machine.execRdmSend r v s
  | .rdmResponseEnd data collision => Sys2Proof.Machine.execRdmResponseEnd data collision s
  | .rdmResponseTimeout => Sys2Proof.Machine.execRdmResponseTimeout s
  | .timeCapture r => Sys2Proof.Machine.execTimeCapture r s
  | .ptpAnnounce d m => Sys2Proof.Machine.execPtpAnnounce d m s
  | .ptpSync d m => Sys2Proof.Machine.execPtpSync d m s
  | .ptpFollowUp d m => Sys2Proof.Machine.execPtpFollowUp d m s
  | .ptpDelayResp d m => Sys2Proof.Machine.execPtpDelayResp d m s
  | .ptpDelayReqSend d => Sys2Proof.Machine.execPtpDelayReqSend d s
  | .ptpDomainLost d => Sys2Proof.Machine.execPtpDomainLost d s
  | .ptpRevert => Sys2Proof.Machine.execPtpRevert s
  | .tsqPop r => Sys2Proof.Machine.execTsqPop r s
  | .genlockEdge => Sys2Proof.Machine.execGenlockEdge s
  | .genlockFlywheel => Sys2Proof.Machine.execGenlockFlywheel s
  | .ltcFrame f => Sys2Proof.Machine.execLtcFrame f s
  | .ltcFlywheel => Sys2Proof.Machine.execLtcFlywheel s
  | .triggerPulse n => Sys2Proof.Machine.execTriggerPulse n s
  | .triggerPulseEnd n => Sys2Proof.Machine.execTriggerPulseEnd n s
  | .captureEdge c rising => Sys2Proof.Machine.execCaptureEdge c rising s
  | .capturePop r c => Sys2Proof.Machine.execCapturePop r c s
  | .helloSend => Sys2Proof.Machine.execHelloSend s
  | .hello pl words => Sys2Proof.Machine.execHello pl words s
  | .peerLost => Sys2Proof.Machine.execPeerLost s
  | .seekTimeout => Sys2Proof.Machine.execSeekTimeout s
  | .head pl words => Sys2Proof.Machine.execHead pl words s
  | .headMiss => Sys2Proof.Machine.execHeadMiss s
  | .recMsg pl words body => Sys2Proof.Machine.execRecMsg pl words body s
  | .recMiss => Sys2Proof.Machine.execRecMiss s
  | .recordApply => Sys2Proof.Machine.execRecordApply s
  | .ack pl words => Sys2Proof.Machine.execAck pl words s
  | .takeover => Sys2Proof.Machine.execTakeover s
  | .take r => Sys2Proof.Machine.execTake r s
  | .yieldCmd r => Sys2Proof.Machine.execYieldCmd r s
  | .rejoin r => Sys2Proof.Machine.execRejoin r s
  | .clearFailover r => Sys2Proof.Machine.execClearFailover r s
  | .takeMessage pl words => Sys2Proof.Machine.execTakeMessage pl words s
  | .takeOk pl words => Sys2Proof.Machine.execTakeOk pl words s
  | .takeback => Sys2Proof.Machine.execTakeback s
  | .sensorSample x => Sys2Proof.Machine.execSensorSample x s
  | .riseHoldExpire c => Sys2Proof.Machine.execRiseHoldExpire c s
  | .clockGlideStep => Sys2Proof.Machine.execClockGlideStep s
  | .ackFail r => Sys2Proof.Machine.execAckFail r s
  | .restore r sensor => Sys2Proof.Machine.execRestore r sensor s
  | .calSensors r => Sys2Proof.Machine.execCalSensors r s
  | .calTimebase r => Sys2Proof.Machine.execCalTimebase r s
  | .calLane r lane => Sys2Proof.Machine.execCalLane r lane s
  | .calComplete m => Sys2Proof.Machine.execCalComplete m s
  | .calResultsApply => Sys2Proof.Machine.execCalResultsApply s
  | .eyeMeasure lane width height => Sys2Proof.Machine.execEyeMeasure lane width height s
  | .powerOnReset => Sys2Proof.Machine.execPowerOnReset s
  | .rstN low => Sys2Proof.Machine.execRstN low s
  | .supplyFall => Sys2Proof.Machine.execSupplyFall s
  | .resetRelease => Sys2Proof.Machine.execResetRelease s
  | .bootRomRun => Sys2Proof.Machine.execBootRomRun s
  | .ready => Sys2Proof.Machine.execReady s
  | .ping src tag => Sys2Proof.Machine.execPing src tag s
  | .info src tag => Sys2Proof.Machine.execInfo src tag s
  | .imageBegin src tag total => Sys2Proof.Machine.execImageBegin src tag total s
  | .imageData src tag off data => Sys2Proof.Machine.execImageData src tag off data s
  | .imageBuf src tag buf bytes => Sys2Proof.Machine.execImageBuf src tag buf bytes s
  | .imageEnd src tag => Sys2Proof.Machine.execImageEnd src tag s
  | .imageVerifyDone => Sys2Proof.Machine.execImageVerifyDone s
  | .update src tag => Sys2Proof.Machine.execUpdate src tag s
  | .revertUpdate src tag => Sys2Proof.Machine.execRevertUpdate src tag s
  | .confirm src tag => Sys2Proof.Machine.execConfirm src tag s
  | .setSave src tag buf count => Sys2Proof.Machine.execSetSave src tag buf count s
  | .setSaveDone => Sys2Proof.Machine.execSetSaveDone s
  | .setRead src tag copy off => Sys2Proof.Machine.execSetRead src tag copy off s
  | .jackReload src tag core => Sys2Proof.Machine.execJackReload src tag core s
  | .jackReloadDone core => Sys2Proof.Machine.execJackReloadDone core s
  | .reboot src tag key => Sys2Proof.Machine.execReboot src tag key s
  | .mgDrop => Sys2Proof.Machine.execMgDrop s
  | .updateLoadDone => Sys2Proof.Machine.execUpdateLoadDone s
  | .updateMigrationDone ok => Sys2Proof.Machine.execUpdateMigrationDone ok s
  | .updateHandover => Sys2Proof.Machine.execUpdateHandover s
  | .updateConfirmed => Sys2Proof.Machine.execUpdateConfirmed s
  | .updateReversed => Sys2Proof.Machine.execUpdateReversed s
  | .watchdogExpire => Sys2Proof.Machine.execWatchdogExpire s
  | .keepSecond => Sys2Proof.Machine.execKeepSecond s
  | .keepSecWrite r hi => Sys2Proof.Machine.execKeepSecWrite r hi s
  | .tamper => Sys2Proof.Machine.execTamper s
  | .log0Pop r => Sys2Proof.Machine.execLog0Pop r s
  | .pcieLinkChange up speed width => Sys2Proof.Machine.execPcieLinkChange up speed width s
  | .pcieError uncorrectable => Sys2Proof.Machine.execPcieError uncorrectable s
  | .flr => Sys2Proof.Machine.execFlr s
  | .stReq r page testSel => Sys2Proof.Machine.execStReq r page testSel s
  | .stAbort r page => Sys2Proof.Machine.execStAbort r page s
  | .sliceStart => Sys2Proof.Machine.execSliceStart s
  | .sliceEnd m => Sys2Proof.Machine.execSliceEnd m s
  | .sliceBudgetExpire m => Sys2Proof.Machine.execSliceBudgetExpire m s
  | .row r page mem => Sys2Proof.Machine.execRow r page mem s
  | .column r page mem => Sys2Proof.Machine.execColumn r page mem s
  | .fuse r page mem => Sys2Proof.Machine.execFuse r page mem s
  | .advance r v => Sys2Proof.Machine.execAdvance r v s
  | .revoke r v => Sys2Proof.Machine.execRevoke r v s
  | .secBump r v => Sys2Proof.Machine.execSecBump r v s
  | .fuseDone supplyOk => Sys2Proof.Machine.execFuseDone supplyOk s
  | .debugFreeze r v => Sys2Proof.Machine.execDebugFreeze r v s
  | .frzN => Sys2Proof.Machine.execFrzN s
  | .freezeClockStop domain sub forced => Sys2Proof.Machine.execFreezeClockStop domain sub forced s
  | .freezeOvertemp => Sys2Proof.Machine.execFreezeOvertemp s
  | .extest pins => Sys2Proof.Machine.execExtest pins s
  | .samplePreload pins => Sys2Proof.Machine.execSamplePreload pins s
  | .idcode => Sys2Proof.Machine.execIdcode s
  | .dumpSel chain => Sys2Proof.Machine.execDumpSel chain s
  | .dumpScan => Sys2Proof.Machine.execDumpScan s
  | .tapFreeze => Sys2Proof.Machine.execTapFreeze s
  | .bypass code => Sys2Proof.Machine.execBypass code s
  | .fixtureFrameAccept words => Sys2Proof.Machine.execFixtureFrameAccept words s
  | .fixtureApply pt => Sys2Proof.Machine.execFixtureApply pt s
  | .fixtureLossDark => Sys2Proof.Machine.execFixtureLossDark s
  | .fixtureSync words src => Sys2Proof.Machine.execFixtureSync words src s
  | .fixtureDelayReqSend => Sys2Proof.Machine.execFixtureDelayReqSend s
  | .fixtureTelemetrySend => Sys2Proof.Machine.execFixtureTelemetrySend s
  | .discover words => Sys2Proof.Machine.execDiscover words s
  | .fixtureReplySend => Sys2Proof.Machine.execFixtureReplySend s
  | .mute words => Sys2Proof.Machine.execMute words s
  | .unmute words => Sys2Proof.Machine.execUnmute words s
  | .setWrite words => Sys2Proof.Machine.execSetWrite words s
  | .setReadParam words => Sys2Proof.Machine.execSetReadParam words s
  | .keeperLost => Sys2Proof.Machine.execKeeperLost s
  | .msixVectorUnmask v => Sys2Proof.Machine.execMsixVectorUnmask v s
  | .registerRead r page off => Sys2Proof.Machine.execRegisterRead r page off s
  | .fixtureDelayResp words => Sys2Proof.Machine.execFixtureDelayResp words s
  | .fixturePowerUp => Sys2Proof.Machine.execFixturePowerUp s
  | .dmxPacketEnd n => Sys2Proof.Machine.execDmxPacketEnd n s
  | .rdmRequestEnd => Sys2Proof.Machine.execRdmRequestEnd s
  | .pageRstDone page => Sys2Proof.Machine.execPageRstDone page s
  | .probationFailure => Sys2Proof.Machine.execProbationFailure s

end Sys2Proof.Machine
end

