-- ==== Sys2Proof/Safety.lean ====
section
/-!
DEFINITION. What the claims call a safe run: the invariants that every step leaves (log entry 3); where the device runs and a page's
registers can be reached; and which commands wait while the device does not run.
-/
namespace Sys2Proof

/-- The commands that act whatever the device does: supplies and reset pins, the keeper's clock and pins, the test access port, and
the fixture, which is no part of the device. -/
def Instr.ungated (c : Instr) : Bool :=
  match c with
  | .pinGlitch _ | .powerOnReset | .rstN _ | .supplyFall | .resetRelease | .keepSecond | .tamper | .keeperLost |
    .freezeClockStop _ _ _ | .freezeOvertemp | .extest _ | .samplePreload _ | .idcode | .dumpSel _ | .dumpScan | .tapFreeze |
    .bypass _ | .fixtureFrameAccept _ | .fixtureApply _ | .fixtureLossDark | .fixtureSync _ _ | .fixtureDelayReqSend |
    .fixtureTelemetrySend | .discover _ | .fixtureReplySend | .mute _ | .unmute _ | .setWrite _ | .setReadParam _ |
    .fixtureDelayResp _ | .fixturePowerUp => true
  | _ => false

namespace Machine

/-- INT_PEND and the vectors' levels agree with EVT_STAT, EVT_EN and VEC_SEL (R58, R59). -/
def State.irqOk (s : State) : Prop :=
  (∀ k, k < 16 → s.rd (A.SYS_INT_PEND k) = intPendWord s.pendPages k) ∧
  (∀ v, v < 64 → s.msix.level.getLsbD v = s.vecLevel v s.pendPages)

/-- No buffer whose FREE is pending has lost its lease: such a buffer is EMPTY (R85). -/
def State.freesOk (s : State) : Prop := ∀ b ∈ s.lease.bufs, b.freePending = true → s.leased b = true

/-- What every step leaves. -/
def State.Inv (s : State) : Prop := s.irqOk ∧ s.freesOk

/-- The device runs: it is not held in reset, frozen or shut down. -/
abbrev State.runs (s : State) : Prop := s.power.mode = .run

/-- A host access is a TLP at the endpoint before anything else (R455). -/
def State.tlp (s : State) (r : Req) : State := match r with | .host => hostTlp s | .gaffer => s

/-- What the arrival of an access does before its page answers: a self-test slice of the page gives way (R440). -/
def State.arrive (s : State) (r : Req) (p : Nat) : State := sliceStopOn .service p (s.tlp r)

/-- The device runs, and an access above the header of page `p` is served as soon as it arrives: the page is assigned, no abandoned
request is in its crossing, no access waits there, its clock runs, it is not in reset, and no injection stalls it (R27, R56, R57). -/
abbrev State.reaches (s : State) (r : Req) (p : Nat) : Prop :=
  s.runs ∧ (blkOf p).isSome = true ∧ bitOf ((s.arrive r p).rd (H.PAGE_STAT p)) 28 = false ∧ (s.arrive r p).mustWait p = false ∧
    (s.arrive r p).injArmed p 30 = false

/-- Such an access, and no injection is armed into the page's guard (R455). -/
abbrev State.obeys (s : State) (r : Req) (p : Nat) : Prop := s.reaches r p ∧ (s.arrive r p).injArmed p 31 = false

/-- The mailbox serves a request of `src` with a tag as soon as it arrives: it is open and no handover holds it, nothing waits, and from
MG0 requests are taken and the tag is not that of the last response (R409, R420, R424). -/
def State.mbxOpen (s : State) (src : MbxSrc) (tag : Nat) : Prop :=
  s.runs ∧ s.gaffer.mbxQ = [] ∧ s.gaffer.mbxBusy = false ∧ 2 ≤ s.stage ∧ s.phase ≠ 3 ∧
    match src with
    | .host => s.get A.GAFFER_MBX_STAT F.GAFFER_MBX_STAT_BUSY = 0 ∧ s.injArmed P.GAFFER 31 = false
    | .mg0 ip port => s.portOn 70 = true ∧ s.get A.GAFFER_MBX_CFG F.GAFFER_MBX_CFG_MG_EN = 1 ∧
        ∀ x ∈ s.gaffer.mgLast, x.src = .mg0 ip port → x.tag ≠ tag % 256

/-- The state in which a request is in service: the host has written MBX_REQ and rung the doorbell, or MG0 has given its datagram up. -/
def State.asked (s : State) (src : MbxSrc) (cmd tag : Nat) (payload : List Byte) : State :=
  let t := match src with
    | .host =>
      let ws := w32 (cmd * 2 ^ 24 + tag % 256 * 2 ^ 16 + payload.length) :: packWords ((payload.length + 3) / 4) payload
      (ws.zipIdx.foldl (fun (t : State) (y : Word × Nat) => t.wr (A.GAFFER_MBX_REQ y.2) y.1) s).wr A.GAFFER_MBX_STAT (w32 (2 ^ 31))
    | .mg0 _ _ => takeRx 70 s
  { t with gaffer := { t.gaffer with mbxQ := [⟨src, cmd, tag % 256, payload⟩] } }

/-- Whether a source may use the commands that write (R420). -/
def State.mayWrite (s : State) (src : MbxSrc) : Bool :=
  match src with
  | .host => true
  | .mg0 _ _ => s.get A.GAFFER_MBX_CFG F.GAFFER_MBX_CFG_MG_WRITE == 1

/-- The body of a console datagram: its bytes from word 4 on, at most LEN of them (R154). -/
def consoleBody (ws : List Word) (bytes : Nat) : List Byte :=
  (((wordBytes ws).take bytes).drop 16).take (fget (wordAt ws 3) ⟨31, 16⟩)

/-- Flow `f` accepts a console datagram of type `typ`: ingest is on, the flow is of type CONSOLE, no injection is armed in its page, its words name the protocol, version 1
and the type, it carries what its header counts, a first slot that LEVELS names exists, and it is later than the flow's last from its
source (R154, R155). -/
def State.hears (s : State) (f typ : Nat) (ws : List Word) (bytes : Nat) : Prop :=
  s.ingestEn = true ∧ s.flowType f = 3 ∧ s.injArmed (P.FLOW f) 31 = false ∧ fget (wordAt ws 0) ⟨31, 16⟩ = 0x4B43 ∧ fget (wordAt ws 0) ⟨15, 8⟩ = 1 ∧
    fget (wordAt ws 0) ⟨7, 0⟩ = typ ∧ 16 ≤ bytes ∧ 16 + fget (wordAt ws 3) ⟨31, 16⟩ ≤ bytes ∧
    (typ = 1 → 1 ≤ fget (wordAt ws 4) ⟨15, 0⟩ ∧ fget (wordAt ws 4) ⟨15, 0⟩ ≤ 512) ∧
    ∀ q c, (s.flow f).conLast = some (q, c) → c = wordAt ws 2 → later (wordAt ws 1).toNat q.toNat = true

/-- Flow `f` with the sequence number and source of an accepted datagram, counted as a unit (R22, R155). -/
def State.heard (s : State) (f : Nat) (ws : List Word) : State :=
  (s.setFlow f { s.flow f with conLast := some (wordAt ws 1, wordAt ws 2) }).flowUnit f

/-- A punty message of type `type`, with at least `need` body bytes and `bodyLen` bytes beside its words, is one that the device takes part
in: TWIN is on, the link is in use, the header is of version 1 and of the pair, and the other side sent it (R362, R366). -/
abbrev State.puntyGood (s : State) (pl type need : Nat) (ws : List Word) (bodyLen : Nat) : Prop :=
  s.twinOn = true ∧ s.twinSt ≠ 0 ∧ pl < 2 ∧ bitOf (s.act A.TWIN_PUNTY) (16 + pl) = true ∧ s.injArmed P.TWIN 31 = false ∧
    fget (wordAt ws 0) ⟨31, 28⟩ = 1 ∧ fget (wordAt ws 1) ⟨31, 16⟩ = s.actF A.TWIN_CTRL F.TWIN_CTRL_PAIR_ID ∧
    fget (wordAt ws 1) ⟨7, 0⟩ = 1 ∧ fget (wordAt ws 0) ⟨27, 24⟩ = type ∧ 16 + need ≤ fget (wordAt ws 0) ⟨15, 0⟩ ∧
    fget (wordAt ws 0) ⟨15, 0⟩ ≤ 4 * ws.length + bodyLen ∧ fget (wordAt ws 1) ⟨15, 15⟩ ≠ s.side

end Machine

end Sys2Proof
end

