-- ==== Sys2Proof/Certificates/Slice0/Obligations.lean ====
section
/-!
DEFINITION. The statements for the provers. Each docstring names the rules it formalises. A command's conclusion is the whole next state:
an explicit record or named operations of the model applied to the state, settled by `finish`, so it says its frame as well;
`SettlingLeavesTheRest` says what settling leaves. In them `s.arrive r p` is the state in which an access of requester `r` is served by
page `p` (R440, R455), and `s.obeys r p`, `s.reaches r p` say that the page serves it at once.
-/
open Sys2Proof Sys2Proof.Machine

/-! ### The whole machine -/

/-- A step takes the command at the front of the queue and runs it on the state with the queue's rest (log entry 3). -/
def Obligations.StepRunsTheFrontCommand : Prop :=
  ∀ (c : Instr) (cs : List Instr) (s : State), step { s with pending := c :: cs } = exec c { s with pending := cs }

/-- A step on an empty queue is one tick of TIMECLK while the device runs: Krafohel time advances by the increment in use, the sensor
that a calibration holds follows, and nothing else changes; a device that does not run stands still (R333, R401; the tick on an
empty queue is the model's choice, log entry 3). -/
def Obligations.EmptyQueuePassesOneTick : Prop :=
  ∀ s : State, s.pending = [] →
    let t : State := { s with time := { s.time with t := s.time.t + s.time.incr, ticks := s.time.ticks + 1 } }
    (s.runs → step s = .next (calHold t) ∧ (t.calHeld = s.cal.held → step s = .next t)) ∧
    (¬ s.runs → step s = .next s)

/-- Right after reset, INT_PEND and the vectors agree with the events, no buffer has a pending free, memory is in its canonical form,
and no command waits. -/
def Obligations.ResetStateMeetsTheInvariant : Prop :=
  State.reset.Inv ∧ Memory.wf State.reset.mem = true ∧ State.reset.pending = []

/-- What every step keeps: INT_PEND and the vectors' levels agree with EVT_STAT AND EVT_EN (R58, R59), and no buffer stays
FREE_PENDING once its lease has ended (R85). -/
def Obligations.EveryStepKeepsTheInvariant : Prop :=
  ∀ s s' : State, s.Inv → step s = .next s' → s'.Inv

/-- Every command completes: it answers a next state, which meets the invariant, and leaves the queue as it was. -/
def Obligations.EveryCommandAnswersANextState : Prop :=
  ∀ (c : Instr) (s : State), ∃ t : State, exec c s = .next t ∧ t.Inv ∧ t.pending = s.pending

/-- A device that is held in reset, frozen or shut down takes no command of its blocks: nothing happens but the settling of frees and
interrupts. The commands of supplies, reset pins, the keeper, the test access port and the fixture are those that `ungated` names.
The model's choices and readings in it: log entry 9. -/
def Obligations.AStoppedDeviceTakesNoCommand : Prop :=
  ∀ (c : Instr) (s : State), c.ungated = false → ¬ s.runs → exec c s = .next (finish s s)

/-- Settling leaves device memory, the supplies, the Gaffer, the keeper's log, the debug unit and test access port, the fixture, Lehr,
calibration but for the sensor held, the colour loop, ingest, the commit machinery, the queue, and every register but live ones
and the message table. The model's choices and readings in it: log entry 3. -/
def Obligations.SettlingLeavesTheRest : Prop :=
  ∀ s t : State,
    let u := finish s t
    u.mem = t.mem ∧ u.power = t.power ∧ u.gaffer = t.gaffer ∧ u.keepLog = t.keepLog ∧ u.dbg = t.dbg ∧ u.fixture = t.fixture ∧
    u.lehr = t.lehr ∧ { u.cal with held := t.cal.held } = t.cal ∧ u.loop = t.loop ∧ u.ingest = t.ingest ∧ u.commit = t.commit ∧ u.pending = s.pending ∧
    u.rf.shadow = t.rf.shadow ∧ u.rf.pend = t.rf.pend ∧ u.rf.active = t.rf.active ∧ u.rf.bank = t.rf.bank

/-- Every shadowed register reads its reset value in every set right after reset, no epoch is in force, and the page map's identity
registers read as their blocks' (R29, R33). The model's choices and readings in it: log entries 2 and 5. -/
def Obligations.ResetLeavesEveryRegisterAtItsResetValue : Prop :=
  (∀ a, State.reset.act a = resetOf a ∧ State.reset.shd a = resetOf a ∧ State.reset.pnd a = resetOf a) ∧
  (∀ a, a ≠ A.SYS_RESET_CAUSE → a ≠ A.LIFE_STATE → a ≠ A.LIFE_KEYS → State.reset.rd a = resetOf a) ∧
  State.reset.rd A.SYS_RESET_CAUSE = 1 ∧ (∀ a, State.reset.memB a = 0)

/-- A freeze is terminal: no command but a fall of RST_N, a power-on reset and a falling supply ends it; after RST_N, RESET_CAUSE
shows FREEZE as its one cause bit, and after a power-on reset it shows POR (R451). -/
def Obligations.AFreezeIsTerminal : Prop :=
  ∀ s : State, s.power.mode = .frozen →
    (∀ (c : Instr) (t : State), c ≠ .rstN true → c ≠ .powerOnReset → c ≠ .supplyFall → exec c s = .next t → t.power.mode = .frozen) ∧
    (s.power.por = false → ∃ t : State, exec (.rstN true) s = .next t ∧ t.power.mode = .held ∧
      ∃ u : State, exec (.rstN false) t = .next u ∧ u.power.mode = .run ∧ u.rd A.SYS_RESET_CAUSE = w32 (2 ^ causeFreeze)) ∧
    (s.power.rstLow = false → ∃ t : State, exec .powerOnReset s = .next t ∧ t.power.mode = .held ∧
      ∃ u : State, exec .resetRelease t = .next u ∧ u.power.mode = .run ∧ u.rd A.SYS_RESET_CAUSE = w32 (2 ^ causePor))

/-! ### Pages and registers -/

/-- Every assigned page lies below page 0x200. An access to an unassigned page, of any width, reads 0 and writes nothing: UNMAPPED
counts it and records the page, and the event is raised (R27). -/
def Obligations.AnUnassignedPageReadsZero : Prop :=
  (∀ p, 0x200 ≤ p → blkOf p = none) ∧
  ∀ (s : State) (r : Req) (p o : Nat) (v met : Word), s.runs → blkOf p = none →
    let t := ((s.tlp r).add A.SYS_UNMAPPED F.SYS_UNMAPPED_COUNT 1).put A.SYS_UNMAPPED F.SYS_UNMAPPED_PAGE p
    let wr := (t.raise P.SYS 5).reply r .done
    let rd := (t.raise P.SYS 5).reply r (.data 0)
    exec (.unmappedAccess r p o true) s = .next (finish s wr) ∧ exec (.unmappedAccess r p o false) s = .next (finish s rd) ∧
    exec (.refusedAccessWidth r p o true) s = .next (finish s wr) ∧ exec (.refusedAccessWidth r p o false) s = .next (finish s rd) ∧
    exec (.registerWrite r p o ⟨v, met⟩) s = .next (finish s wr) ∧ exec (.rwsWrite r p o v) s = .next (finish s wr) ∧
    exec (.pairLoWrite r p o v) s = .next (finish s wr) ∧ exec (.pairHiWrite r p o v) s = .next (finish s wr) ∧
    exec (.registerRead r p o) s = .next (finish s rd) ∧ exec (.rcCounterRead r p o) s = .next (finish s rd) ∧
    exec (.pairLoRead r p o) s = .next (finish s rd)

/-- An access whose width or alignment is refused reads 0, writes nothing, and is recorded as a rejection with code 0xFE (R28). A
write to a register without a writable field stores nothing and is recorded as a rejection with code 0xFF (R30). The model's
choices and readings in it: log entry 7. -/
def Obligations.ARefusedAccessIsRejected : Prop :=
  (∀ (s : State) (r : Req) (p o : Nat), s.runs → blkOf p ≠ none →
     let t := (s.tlp r).guard1 p 31 0xFE none
     exec (.refusedAccessWidth r p o true) s = .next (finish s (t.reply r .done)) ∧
     exec (.refusedAccessWidth r p o false) s = .next (finish s (t.reply r (.data 0)))) ∧
  (∀ (s : State) (r : Req) (p o : Nat) (v met : Word) (d : RegDef), s.reaches r p → 0x80 ≤ o → o < 0x1000 →
     findReg (p * 0x1000 + o) = some d → d.readOnly = true →
     exec (.registerWrite r p o ⟨v, met⟩) s = .next (finish s (((s.arrive r p).guard1 p 31 0xFF none).reply r .done)))

/-- A write to a shadowed register: the word that the register's checks let pass, clamped or replaced where they say so, lands in the
shadow set and nowhere else; the one register whose limits follow it is brought into them; the pending and the active set, memory,
every buffer and lease, and every other register of the shadow set stand (R21, R33). A value that a check rejects is not stored:
every set, memory, every buffer and lease stand (R21). -/
def Obligations.AShadowedWriteLandsInTheShadowSetAlone : Prop :=
  (∀ (s : State) (r : Req) (p o : Nat) (v met : Word) (d : RegDef), s.reaches r p → 0x80 ≤ o → o < 0x1000 →
     findReg (p * 0x1000 + o) = some d → d.isRws = true → d.pair = .single →
     let a := s.arrive r p
     let x := p * 0x1000 + o
     let j := a.judge x (d.merge (a.shd x) v)
     ∀ w, j.1 = some w →
       let u := (refit x (trigMark x (dirtyMark p (j.2.wrShadow x w)))).reply r .done
       exec (.rwsWrite r p o v) s = .next (finish s u) ∧ exec (.registerWrite r p o ⟨v, met⟩) s = .next (finish s u) ∧
       u.shd x = w ∧ (∀ b, b ≠ x → follower x ≠ some b → u.shd b = a.shd b) ∧ u.rf.pend = a.rf.pend ∧
       u.rf.active = a.rf.active ∧ u.mem = a.mem ∧ u.lease = a.lease ∧ u.commit = a.commit) ∧
  (∀ (s : State) (r : Req) (p o : Nat) (v met : Word) (d : RegDef), s.reaches r p → 0x80 ≤ o → o < 0x1000 →
     findReg (p * 0x1000 + o) = some d → d.isRws = true → d.pair = .single →
     let a := s.arrive r p
     let x := p * 0x1000 + o
     let j := a.judge x (d.merge (a.shd x) v)
     j.1 = none →
       let u := j.2.reply r .done
       exec (.rwsWrite r p o v) s = .next (finish s u) ∧ exec (.registerWrite r p o ⟨v, met⟩) s = .next (finish s u) ∧
       u.rf.shadow = a.rf.shadow ∧ u.rf.pend = a.rf.pend ∧ u.rf.active = a.rf.active ∧ u.mem = a.mem ∧ u.lease = a.lease ∧
       u.commit = a.commit)

/-- A write of the lower half of a pair waits in the page's hold of its requester; the write of the upper half takes both (R48). -/
def Obligations.APairIsWrittenByItsUpperHalf : Prop :=
  ∀ (s : State) (r : Req) (p o : Nat) (v : Word) (d : RegDef), s.reaches r p → 0x80 ≤ o → o < 0x1000 →
    findReg (p * 0x1000 + o) = some d →
    let a := s.arrive r p
    let x := p * 0x1000 + o
    (d.readOnly = false → d.pair = .lo →
      exec (.pairLoWrite r p o v) s = .next (finish s ((a.setBank (holdAt p) 1 r v).reply r .done))) ∧
    (d.isRws = true → d.pair = .hi →
      let j := a.judge x (d.merge (a.shd x) v)
      ∀ w, j.1 = some w →
      let l := pairLow x (a.shd (x - 4)) (a.bank (holdAt p) 1 r)
      let u := (refit x (trigMark x (dirtyMark p ((j.2.wrShadow (x - 4) l).wrShadow x w)))).reply r .done
      exec (.pairHiWrite r p o v) s = .next (finish s u) ∧ u.shd x = w ∧ u.shd (x - 4) = l ∧
        (∀ b, b ≠ x → b ≠ x - 4 → follower x ≠ some b → u.shd b = a.shd b) ∧ u.rf.pend = a.rf.pend ∧
        u.rf.active = a.rf.active ∧ u.mem = a.mem ∧ u.lease = a.lease)

/-- A write to a register that is not shadowed takes effect at once: the word that its checks let pass stands in it, or nothing is
stored; a register that acts takes its action (R21, R30). The registers of the page header that software clears and sets: EVT_EN
holds the word written; a 1 clears its bit of EVT_MERGED, of GUARD_STAT's causes and of EVT_STAT, but for an event that the block
sets in the cycle of the write, which stays 1 and is recorded in EVT_MERGED (R31, R50, R51). -/
def Obligations.ARegisterWriteTakesEffect : Prop :=
  (∀ (s : State) (r : Req) (p o : Nat) (v met : Word) (d : RegDef), s.reaches r p → 0x80 ≤ o → o < 0x1000 →
     findReg (p * 0x1000 + o) = some d → d.readOnly = false → d.isRws = false → d.pair = .single →
     let a := s.arrive r p
     let x := p * 0x1000 + o
     let j := a.judge x (d.merge (a.rd x) v)
     (actWrite r x v a = none →
       (∀ w, j.1 = some w → exec (.registerWrite r p o ⟨v, met⟩) s = .next (finish s ((j.2.wr x w).irqSync.reply r .done))) ∧
       (j.1 = none → exec (.registerWrite r p o ⟨v, met⟩) s = .next (finish s (j.2.reply r .done)))) ∧
     (∀ t, actWrite r x v a = some t → exec (.registerWrite r p o ⟨v, met⟩) s = .next (finish s (t.reply r .done)))) ∧
  (∀ (s : State) (r : Req) (p : Nat) (v met : Word), s.runs → blkOf p ≠ none →
     let t := s.tlp r
     let both := v &&& met &&& t.rd (H.EVT_STAT p)
     exec (.registerWrite r p 0x014 ⟨v, met⟩) s = .next (finish s ((t.wr (H.EVT_EN p) v).irqSync.reply r .done)) ∧
     exec (.registerWrite r p 0x01C ⟨v, met⟩) s =
       .next (finish s ((t.wr (H.EVT_MERGED p) (t.rd (H.EVT_MERGED p) &&& ~~~ v)).reply r .done)) ∧
     exec (.registerWrite r p 0x028 ⟨v, met⟩) s =
       .next (finish s ((t.wr (H.GUARD_STAT p) (t.rd (H.GUARD_STAT p) &&& ~~~ (v &&& 0xF800FFFF))).reply r .done)) ∧
     (bitOf (v &&& ~~~ both) 1 = false ∨ (blkOf p ≠ some .mem ∧ blkOf p ≠ some .bench) →
       exec (.registerWrite r p 0x010 ⟨v, met⟩) s = .next (finish s
         (((t.wr (H.EVT_MERGED p) (t.rd (H.EVT_MERGED p) ||| both)).wr (H.EVT_STAT p)
           (t.rd (H.EVT_STAT p) &&& ~~~ (v &&& ~~~ both))).irqSync.reply r .done))))

/-- A read answers the register's value in the requester's view; a read of the lower half of a pair keeps the upper half for the same
requester, and RC fields clear in the cycle of the read, both halves at once (R34, R48, R49); a register whose read removes what
it returns answers what it takes. A view SNAP takes and clears nothing. -/
def Obligations.AReadAnswersAndClears : Prop :=
  ∀ (s : State) (r : Req) (p o : Nat) (d : RegDef), s.reaches r p → 0x80 ≤ o → o < 0x1000 →
    findReg (p * 0x1000 + o) = some d →
    let b := s.arrive r p
    let x := p * 0x1000 + o
    let view := b.viewOf r p
    let a := countsRead x view b
    let after (t : State) : State := if view = 2 then t else rcClear d x t
    (view = 2 ∨ takeReg r x b = none →
      (d.pair = .single →
        exec (.registerRead r p o) s = .next (finish s ((after a).reply r (.data (a.regVal r d x view)))) ∧
        exec (.rcCounterRead r p o) s = .next (finish s ((after a).reply r (.data (a.regVal r d x view))))) ∧
      (d.pair = .lo →
        exec (.pairLoRead r p o) s =
          .next (finish s ((after (a.setBank (holdAt p) 0 r (a.regVal r d (x + 4) view))).reply r (.data (a.regVal r d x view)))))) ∧
    (∀ y, view ≠ 2 → takeReg r x b = some y → d.pair ≠ .hi →
      exec (.registerRead r p o) s = .next (finish s (y.2.reply r (.data y.1)))) ∧
    (d.pair = .hi → exec (.registerRead r p o) s = .next (finish s (b.reply r (.data (b.bank (holdAt p) 0 r)))))

/-! ### Page shell, crossings, epochs and interrupts -/

/-- A write of EVT_INJ arms injections while INJ_CTRL.EN is 1, and is rejected while it is 0; the blocks whose detector evaluates at
once are left to their own page (R454). REQ and ABORT of ST_CTRL request and end a self-test slice (R435, R437, R440). The model's
choices and readings in it: log entries 7 and 20. -/
def Obligations.HeaderRegistersActWhenWritten : Prop :=
  ∀ (s : State) (r : Req) (p : Nat) (v : Word) (k : Nat), s.runs → blkOf p ≠ none →
    let t := s.tlp r
    (t.get A.DEBUG_INJ_CTRL F.DEBUG_INJ_CTRL_EN = 1 → p ≠ P.KEEP → p ≠ P.GAFFER → p ≠ P.PTP →
      exec (.evtInjArm r p v) s =
        .next (finish s ((t.wr (H.EVT_INJ p) (t.rd (H.EVT_INJ p) ||| (v &&& w32 (injBits p)))).reply r .done))) ∧
    (t.get A.DEBUG_INJ_CTRL F.DEBUG_INJ_CTRL_EN = 0 →
      exec (.evtInjArm r p v) s = .next (finish s ((t.guard1 p 31 0xFF none).reply r .done))) ∧
    (t.sliceAllowed p = true → testOk p (k % 256) = true →
      exec (.stReq r p k) s =
        .next (finish s (((t.put (H.ST_CTRL p) ⟨15, 8⟩ (k % 256)).put (H.ST_CTRL p) ⟨0, 0⟩ 1).reply r .done))) ∧
    (t.sliceAllowed p = false →
      exec (.stReq r p k) s =
        .next (finish s ((((t.inc A.GLORY_REFUSED).wr A.GLORY_REF_PAGE (w32 p)).guard1 p 31 (openCode (H.ST_CTRL p)) none).reply r .done))) ∧
    (∀ x, t.dbg.slice = some x → x.page = p →
      let m := freeMeasure x.test t
      exec (.stAbort r p) s =
        .next (finish s (((sliceFinish .other m.1 m.2).put (H.ST_CTRL p) ⟨15, 8⟩ (s.get (H.ST_CTRL p) ⟨15, 8⟩)).reply r .done)))

/-- WITHDRAW takes an idle bench, a queue or a DMX unit out of service at once; WITHDRAW = 0 marks a page that is out of service for
return at the next boundary and cancels its slice (R427, R428, R440). The model's choices and readings in it: log entry 30. -/
def Obligations.WithdrawalAndReturnOfAPage : Prop :=
  ∀ (s : State) (r : Req) (p : Nat), s.runs → blkOf p ≠ none →
    let t := s.tlp r
    let b := s.bank (H.PAGE_CTRL p) 0 r
    t.injArmed p 31 = false → b.toNat < 3 →
    let a := (t.setBank (H.PAGE_CTRL p) 0 r (b &&& 3)).put (H.PAGE_CTRL p) ⟨30, 30⟩ 1
    let z := (((t.setBank (H.PAGE_CTRL p) 0 r (b &&& 3)).put (H.PAGE_CTRL p) ⟨30, 30⟩ 0).put (H.ST_CTRL p) ⟨0, 0⟩ 0)
    (blkOf p = some .q ∨ blkOf p = some .dmx → a.offline p = false →
      exec (.withdraw r p) s = .next (finish s ((goOffline p { a with
        commit := { a.commit with returning := a.commit.returning.filter (· != p),
                                  returnDue := a.commit.returnDue.filter (· != p) } }).reply r .done))) ∧
    (∀ k, k < 16 → p = P.BENCH k → a.offline p = false → (a.bench k).job = none →
      exec (.withdraw r p) s = .next (finish s ((goOffline p { a with
        commit := { a.commit with returning := a.commit.returning.filter (· != p),
                                  returnDue := a.commit.returnDue.filter (· != p),
                                  withdrawing := p :: a.commit.withdrawing.filter (· != p) } }).reply r .done))) ∧
    (z.dbg.slice = none → z.offline p = true →
      exec (.blockReturn r p) s = .next (finish s ({ z with
        commit := { z.commit with withdrawing := z.commit.withdrawing.filter (· != p),
                                  returning := p :: z.commit.returning.filter (· != p) } }.reply r .done)))

/-- A withdrawal that waits takes effect once the bench is idle or the engine's carriage has ended; a page returns to service at a
boundary, with the set of the epoch in force where it missed one; PAGE_RST resets a block, which resumes when it has finished
(R39, R427, R428, R479). The model's choices and readings in it: log entry 30. -/
def Obligations.PagesLeaveReturnAndReset : Prop :=
  ∀ (s : State) (p : Nat), s.runs →
    (∀ k, k < 16 → p = P.BENCH k → s.commit.withdrawing.contains p = true → (s.bench k).job = none →
      exec (.withdrawTakesEffect p) s = .next (finish s (goOffline p s))) ∧
    (∀ e, e < 8 → p = P.SCAN e → s.commit.withdrawing.contains p = true → s.carriageOver e = true →
      exec (.withdrawTakesEffect p) s = .next (finish s (engineAbort e (goOffline p s)))) ∧
    (s.commit.returnDue.contains p = true → s.commit.stopped.contains p = false → s.laneWaits p = false →
      let t : State := { s with commit := { s.commit with returning := s.commit.returning.filter (· != p),
                                                          returnDue := s.commit.returnDue.filter (· != p) } }
      (bitOf (s.rd (H.PAGE_STAT p)) 25 = false →
        exec (.pageReturnToService p) s =
          .next (finish s (pageEpoch p (repairsApply p ((t.put (H.PAGE_STAT p) ⟨25, 25⟩ 0).put (H.PAGE_STAT p) ⟨29, 29⟩ 0))))) ∧
      (bitOf (s.rd (H.PAGE_STAT p)) 25 = true →
        let l : State := { t with rf := { t.rf with active := mapPick (· == p) s.rf.force s.rf.active } }
        let x := if s.epochWaits then l else l.put (H.PAGE_STAT p) ⟨27, 27⟩ 0
        let w := if seenAtBoundary p then x.wr (H.EPOCH_SEEN p) (x.rd A.SYS_EPOCH_APPLIED) else x
        exec (.pageReturnToService p) s =
          .next (finish s (pageEpoch p (repairsApply p ((w.put (H.PAGE_STAT p) ⟨25, 25⟩ 0).put (H.PAGE_STAT p) ⟨29, 29⟩ 0)))))) ∧
    (∀ r : Req, blkOf p ≠ none → (s.tlp r).injArmed p 31 = false → (s.bank (H.PAGE_CTRL p) 0 r).toNat < 3 →
      let b := s.bank (H.PAGE_CTRL p) 0 r
      let x := (s.tlp r).setBank (H.PAGE_CTRL p) 0 r (b &&& 3)
      (bitOf (s.rd (H.PAGE_CTRL p)) 30 = false →
        exec (.pageRst r p) s = .next (finish s ((pageRstOp p (returnOp p (x.put (H.PAGE_CTRL p) ⟨30, 30⟩ 0))).reply r .done))) ∧
      (bitOf (s.rd (H.PAGE_CTRL p)) 30 = true →
        exec (.pageRst r p) s = .next (finish s ((pageRstOp p (withdrawOp p (x.put (H.PAGE_CTRL p) ⟨30, 30⟩ 1))).reply r .done)))) ∧
    (bitOf (s.rd (H.PAGE_CTRL p)) 31 = true →
      exec (.pageRstDone p) s =
        .next (finish s (rerunWaiting p (returnMissed p (blockResume p (s.put (H.PAGE_CTRL p) ⟨31, 31⟩ 0))))))

/-- An access that waited FABRIC_TIMEOUT at a stopped crossing is abandoned: the crossing is marked, CLKSTOP and FABRIC_TIMEOUT events
are raised, a host read completes with Completer Abort and a Gaffer read with a bus error; those behind it fail at once, and so
does every access until the clock's restart retires it (R56, R57). VEC_EOI sends a vector's message again where its OR is still 1,
and unmasking sends a message held (R59). The model's choices and readings in it: log entry 10. -/
def Obligations.AbandonedAccessesAndMessages : Prop :=
  ∀ (s : State) (r : Req) (p : Nat), s.runs →
    (blkOf p ≠ none → s.commit.stalled.contains p = false → bitOf (s.rd (H.PAGE_STAT p)) 28 = false →
      let t : State := { s with commit := { s.commit with
        stopped := p :: s.commit.stopped.filter (· != p), waiting := s.commit.waiting.filter fun y => y.page != p } }
      let u := freqSync (((t.put (H.PAGE_STAT p) ⟨28, 28⟩ 1).raise p 30).raise P.SYS 7)
      let here := s.commit.waiting.filter fun y => y.page == p
      (here = [] → exec (.accessAbandon r p true) s = .next (finish s (u.reply r .done)) ∧
        exec (.accessAbandon r p false) s =
          .next (finish s (u.reply r (match r with | .host => .abort | .gaffer => .busError)))) ∧
      (here ≠ [] → ∀ w, exec (.accessAbandon r p w) s =
        .next (finish s (sealsPass p here ((here.filter fun y => y.off != sealMark).foldl (fun t y => accessFail y t) u))))) ∧
    (blkOf p ≠ none → s.commit.stalled.contains p = false → bitOf (s.rd (H.PAGE_STAT p)) 28 = true →
      ∀ w, exec (.accessAbandon r p w) s = .next (finish s (accessFail ⟨r, p, 0x80, w, 0⟩ s))) ∧
    (s.commit.stopped.contains p = true →
      exec (.blockClockRestart p) s = .next (finish s (rerunWaiting p (returnMissed p (crossingClear p { s with
        commit := { s.commit with stopped := s.commit.stopped.filter (· != p) } }))))) ∧
    (s.reaches r P.SYS → ∀ v : Word,
      let a := s.arrive r P.SYS
      (a.msix.level.getLsbD (fget v F.SYS_VEC_EOI_VECTOR) = true →
        exec (.vecEoi r v) s = .next (finish s ((a.sendVector (fget v F.SYS_VEC_EOI_VECTOR)).reply r .done))) ∧
      (a.msix.level.getLsbD (fget v F.SYS_VEC_EOI_VECTOR) = false → exec (.vecEoi r v) s = .next (finish s (a.reply r .done)))) ∧
    (∀ v, v < 64 →
      let bit : Cell := 1 <<< v
      (s.msix.held.getLsbD v = true → exec (.msixVectorUnmask v) s = .next (finish s { s with msix := { s.msix with
        mask := s.msix.mask &&& ~~~ bit, held := s.msix.held &&& ~~~ bit, sent := v :: s.msix.sent } })) ∧
      (s.msix.held.getLsbD v = false → exec (.msixVectorUnmask v) s = .next (finish s { s with msix := { s.msix with
        mask := s.msix.mask &&& ~~~ bit, held := s.msix.held &&& ~~~ bit } })))

/-- A write of COMMIT seals the epoch that follows the one in force: the shadow set becomes the pending set, of every page at once but
those where a write of the same requester waits, which the seal reaches behind it; and every page has still to acknowledge it;
while an epoch waits, or with another number, or from the host before READY, it is rejected (R35, R36, R418). A page's
acknowledgement is taken once, when the seal has reached it; the last one completes the commit, which fixes the boundary of
application by COMMIT_CUTOFF (R37). REVERT copies the newest sealed values into every shadow set (R33). The model's choices and
readings in it: log entries 7 and 31. -/
def Obligations.CommitsSealAndRevertTakesBack : Prop :=
  (∀ (s : State) (r : Req) (n : Word), s.reaches r P.SYS →
     let a := s.arrive r P.SYS
     (r = .host → a.stage ≠ 2 → exec (.commit r n) s = .next (finish s ((commitReject 3 a).reply r .done))) ∧
     ((r = .host → a.stage = 2) →
       (a.epochWaits = true → exec (.commit r n) s = .next (finish s ((commitReject 1 a).reply r .done))) ∧
       (a.epochWaits = false → n ≠ a.rd A.SYS_EPOCH_APPLIED + 1 →
         exec (.commit r n) s = .next (finish s ((commitReject 2 a).reply r .done))) ∧
       (a.epochWaits = false → n = a.rd A.SYS_EPOCH_APPLIED + 1 →
         ∃ u : State, exec (.commit r n) s = .next (finish s u) ∧
           u.rf.pend = mapPick (fun p => (allPages.filter fun p => !a.writeWaits r p).contains p) a.rf.shadow a.rf.pend ∧
           u.commit.waiting = a.commit.waiting ++ (allPages.filter fun p => a.writeWaits r p).map (fun p => ⟨r, p, sealMark, true, 0⟩) ∧
           u.rf.shadow = a.rf.shadow ∧
           u.rf.active = a.rf.active ∧ u.commit.sealing = true ∧ u.commit.acksLeft = allPages ∧ u.commit.pendEpoch = n.toNat ∧
           u.rd A.SYS_COMMIT = n ∧ u.get A.SYS_COMMIT_STAT ⟨31, 31⟩ = 1 ∧ u.mem = a.mem ∧ u.lease = a.lease))) ∧
  (∀ (s : State) (r : Req) (p : Nat),
     (s.runs → s.commit.sealing = true → s.commit.acksLeft.contains p = true → s.sealWaits p = false →
       let t := sealCheck p s
       let l := t.commit.acksLeft.filter (· != p)
       let u : State := { t with commit := { t.commit with acksLeft := l } }
       (l ≠ [] → exec (.pageSealAck p) s = .next (finish s u)) ∧
       (l = [] → exec (.pageSealAck p) s = .next (finish s (commitComplete u)))) ∧
     (s.reaches r P.SYS →
       let w := s.bank A.SYS_SHADOW_CTRL 0 r ||| 1
       let a := (s.arrive r P.SYS).setBank A.SYS_SHADOW_CTRL 0 r (w &&& 2)
       (a.commit.sealing = true →
         exec (.revert r) s = .next (finish s ((a.guard1 P.SYS 31 (openCode A.SYS_SHADOW_CTRL) none).reply r .done))) ∧
       (a.commit.sealing = false →
         ∃ u : State, exec (.revert r) s = .next (finish s u) ∧
           u.rf.shadow = a.sealedSet ∧
           u.rf.pend = a.rf.pend ∧ u.rf.active = a.rf.active ∧ u.mem = a.mem ∧ u.commit = a.commit)))

/-- At the boundary of application every page in service takes its pending set; the pages out of service keep theirs and miss the
epoch (R38, R39). A snapshot that is due captures the registers of the pages in service before the epoch of the same boundary, and
keeps the others' (R42, R43). -/
def Obligations.EpochsAndSnapshotsTakeEffect : Prop :=
  ∀ (s : State) (r : Req), s.runs →
    (s.commit.snapDue = false → s.time.bnds ≠ 0 → s.commit.waitFrame = some s.frameNum →
      ∃ t : State, exec .epochApply s = .next (finish s (epochEffects (t.raise P.SYS 0))) ∧
        t.rf.active = mapPick s.inService s.rf.pend s.rf.active ∧ t.rf.force = s.rf.pend ∧ t.rf.pend = s.rf.pend ∧
        t.rf.shadow = s.rf.shadow ∧ t.commit = { s.commit with waitFrame := none } ∧
        t.rd A.SYS_EPOCH_APPLIED = w32 s.commit.pendEpoch ∧ t.rd A.SYS_EPOCH_FRAME = w32 s.frameNum ∧ t.mem = s.mem) ∧
    (s.commit.snapDue = true →
      let c := memTraffic (thrFlush { s with commit := { s.commit with snapDue := false } })
      ∃ u : State, exec .snapshotCapture s = .next (finish s u) ∧ exec .epochApply s = .next (finish s (epochApplyOp u)) ∧
        u.rf.snap = snapTake c (allPages.filter fun p => c.inService p) ∧ u.commit = { s.commit with snapDue := false } ∧
        u.rf.active = s.rf.active ∧ u.rf.shadow = s.rf.shadow ∧ u.mem = s.mem) ∧
    (s.reaches r P.SYS → bitOf (s.rd A.SYS_SNAP) 1 = false → (s.arrive r P.SYS).get A.SYS_SNAP F.SYS_SNAP_REQ = 0 →
      exec (.snapReq r) s = .next (finish s
        (((((s.arrive r P.SYS).put A.SYS_SNAP F.SYS_SNAP_HOLD 0)).put A.SYS_SNAP F.SYS_SNAP_REQ 1).reply r .done)))

/-! ### Resets, clocks and boundaries -/

/-- A reset keeps the keeper's log, the slots, the fixture and, but for a power-on reset, device memory; every shadowed register is at
its reset value, nothing is leased or queued, and RESET_CAUSE names the cause (R61, R409). One that interrupts neither a save of
the settings nor the burning of a fuse word keeps the flash and the life cycle that the fuses give. A good key in SYS.RESET
restarts the device warm, and a wrong one is rejected; a power-on reset and a falling supply hold the device, a supply loss is
logged, RST_N low holds it, and it starts when RST_N is high and the power-on reset has ended (R61, R430, R465 to R467). The
model's choices and readings in it: log entries 1, 7 and 33. -/
def Obligations.ResetsHoldReleaseAndKeep : Prop :=
  (∀ (s : State) (cause : Nat),
     let t := restart cause s
     t.keepLog = s.keepLog ∧ t.gaffer.slots = s.gaffer.slots ∧ t.gaffer.mbxQ = [] ∧
     t.fixture = s.fixture ∧ t.mem = (if cause = causePor then [] else s.mem) ∧ t.power.mode = .run ∧ t.lease = State.reset.lease ∧
     (∀ a, t.act a = resetOf a ∧ t.shd a = resetOf a ∧ t.pnd a = resetOf a) ∧ t.commit = State.reset.commit ∧
     t.rd A.SYS_RESET_CAUSE = w32 (2 ^ cause) ∧
     (s.gaffer.saving = none → s.dbg.fuse = none →
       t.gaffer.flash = s.gaffer.flash ∧ t.get A.LIFE_STATE F.LIFE_STATE_STATE = s.get A.LIFE_STATE F.LIFE_STATE_NEXT)) ∧
  (∀ (s : State) (r : Req) (v : Word),
     (s.obeys r P.SYS →
       (fget v F.SYS_RESET_KEY = 0x5A3C → fget v F.SYS_RESET_WARM = 1 →
         exec (.warmReset r v) s = .next (finish s ((restart causeWarm (s.arrive r P.SYS)).reply r .done))) ∧
       (fget v F.SYS_RESET_KEY ≠ 0x5A3C → exec (.warmReset r v) s =
         .next (finish s (((s.arrive r P.SYS).guard1 P.SYS 31 (openCode A.SYS_RESET) none).reply r .done)))) ∧
     exec .powerOnReset s = .next (finish s { s with
       power := { s.power with mode := .held, por := true, cause := causePor, thermtrip := false } }) ∧
     (s.power.por = true → exec .supplyFall s = .next (finish s { s with
       power := { s.power with mode := .held, por := true, cause := causePor, thermtrip := false } })) ∧
     (s.power.por = false → let t := logEvent 1 s
       exec .supplyFall s = .next (finish s { t with
         power := { t.power with mode := .held, por := true, cause := causePor, thermtrip := false } })) ∧
     (s.power.por = false → s.dbg.fuse = none →
       (s.runs → s.injArmed P.SYS 31 = false → exec (.rstN true) s = .next (finish s { s with
         power := { s.power with rstLow := true, mode := .held, cause := causePin, thermtrip := false } })) ∧
       (s.power.mode = .frozen → exec (.rstN true) s = .next (finish s { s with
         power := { s.power with rstLow := true, mode := .held, cause := causeFreeze, thermtrip := false } }))) ∧
     (s.runs → s.dbg.fuse ≠ none → s.injArmed P.SYS 31 = false → exec (.rstN true) s = .next (finish s { s with
       power := { s.power with rstLow := true, rstWait := true } })) ∧
     (s.power.mode = .held → s.power.por = false →
       exec (.rstN false) s = .next (finish s (restart s.power.cause { s with
         power := { s.power with rstLow := false } }))) ∧
     (s.power.mode = .held →
       (s.power.rstLow = false →
         exec .resetRelease s = .next (finish s (restart s.power.cause { s with power := { s.power with por := false } }))) ∧
       (s.power.rstLow = true → exec .resetRelease s = .next (finish s { s with power := { s.power with por := false } }))))

/-- What boundary N does, in order: the boundary steps still to be taken, the boundary itself, the frame in progress ends under the
set that governed it, the inputs are cut, the pair and the scheduler take it (R9 to R17, R349); the boundary counts up, takes the
next frame number and reports it. At it a flow whose timeout has elapsed times out (R23, R156); STREAM_TIMEOUT takes the record of
a timeout that the boundary left due, once: the status, the guard action and the event (R23, R327, R351, R354). The model's
choices and readings in it: log entries 4 and 8. -/
def Obligations.ABoundaryDoesItsWorkInOrder : Prop :=
  (∀ s : State, s.runs →
    let n := s.nextFrame
    let a := markBoundary n (latchesPass (headElapsed (updateElapsed (frameSteps s))))
    let b := keepMinute (gafferBoundary (step2Due ((sliceElapsed a).wr A.SYS_FRAME_NUM (w32 n))))
    let c := if s.time.bnds = 0 then b else frameEnd s.frameNum b
    let d := inputCut n (trigBoundary (latchBoundary (c.govBy n) n c.time.period c))
    let e := twinBoundary (syncElapsed { d with lease := { d.lease with substFrame := false } })
    let f := schedBoundary n (e.timecodeOf n) (e.timecodeSrc n) e
    exec .frameBoundary s = .next (finish s (twinDigests (f.epochBy n) (f.govBy n) f))) ∧
  (∀ (s : State) (n : Nat),
    let a := markBoundary n s
    a.frameNum = n ∧ a.time.bnds = s.time.bnds + 1 ∧ a.time.prevBoundary = s.time.boundary ∧ a.rd A.TIME_BND_FRAME = w32 n) ∧
  (∀ (s : State) (f : Nat), f ∈ s.flowsLive → s.flowType f ≠ 2 → s.flowElapsed f = true → ((flowsElapsed s).flow f).timedOut = true) ∧
  (∀ s : State, s.runs →
    (∀ f, s.time.due.contains (.flow f) = true → exec (.streamTimeout (.flow f)) s = .next (finish s
      ((((s.dueTaken (.flow f)).flowShow f).guard1 (P.FLOW f) 27 (openCode (A.FLOW_TIMEOUT f)) none).raise (P.FLOW f) (f % 16)))) ∧
    (∀ n, s.time.due.contains (.dmx n) = true → exec (.streamTimeout (.dmx n)) s = .next (finish s
      ((((s.dueTaken (.dmx n)).dmxShow n).guard1 P.DMX 27 (openCode (A.DMX_TIMEOUT n)) none).raise P.DMX n))) ∧
    (s.time.due.contains .genlock = true →
      exec (.streamTimeout .genlock) s = .next (finish s ((s.dueTaken .genlock).raise P.SYNC 2))) ∧
    (s.time.due.contains .ltc = true → exec (.streamTimeout .ltc) s = .next (finish s ((s.dueTaken .ltc).raise P.SYNC 4))) ∧
    (∀ st, s.time.due.contains st = false → exec (.streamTimeout st) s = .next (finish s s)))

/-- FREQ_SEL starts a measurement, whose end shows the count as hertz, and 0 for the clock of a link that is down (R7, R8). A PLL that
loses lock is counted and shown, and so is the loss of the reference (R8, R469). A pulse shorter than a filter is recorded (R20).
The model's choices and readings in it: log entries 7 and 33. -/
def Obligations.ClocksAreMeasuredAndWatched : Prop :=
  ∀ s : State, s.runs →
    (∀ (r : Req) (v : Word), s.obeys r P.CLK → judgeWord (clkChecks 0x084 (v &&& 0x007F000F)) false (v &&& 0x007F000F) =
        ⟨some (v &&& 0x007F000F), []⟩ →
      exec (.freqSel r v) s = .next (finish s
        ((((s.arrive r P.CLK).wr A.CLK_FREQ_SEL (v &&& 0x007F000F)).wr A.CLK_FREQ_HZ 0).reply r .done))) ∧
    (∀ c, s.freqDown = true → exec (.freqGateEnd c) s = .next (finish s (s.wr A.CLK_FREQ_HZ 0))) ∧
    (∀ c, s.freqDown = false → exec (.freqGateEnd c) s = .next (finish s
      (s.wr A.CLK_FREQ_HZ (w32 (if s.get A.CLK_FREQ_SEL F.CLK_FREQ_SEL_DOMAIN = 9 then c else c * 1000))))) ∧
    (∀ k, k < 7 → bitOf (s.rd A.CLK_PLL_STAT) k = true →
      let t := ((s.put A.CLK_PLL_STAT ⟨k, k⟩ 0).inc A.CLK_LOCK_LOST).raise P.CLK 0
      exec (.pllLockLost k) s = .next (finish s (clkFault t))) ∧
    (∀ k, k < 7 → s.power.pllOnce = true →
      exec (.pllLockRegained k) s = .next (finish s (clkFault (s.put A.CLK_PLL_STAT ⟨k, k⟩ 1)))) ∧
    (s.get A.CAL_REF_STAT F.CAL_REF_STAT_IN_USE = 1 →
      let t : State := { s.wr A.CAL_REF_STAT 0 with power := { s.power with refExt := false } }
      exec .refclkAbsent s = .next (finish s (calTrim ((t.inc A.CLK_REF_MOVES).raise P.CLK 1)))) ∧
    exec (.pinGlitch .tamperN) s = .next (finish s (s.guard1 P.KEEP 28 (openCode A.KEEP_TAMPER_CFG) none)) ∧
    exec (.pinGlitch .rstN) s = .next (finish s (s.guard1 P.SYS 28 (openCode A.SYS_RESET) none)) ∧
    exec (.pinGlitch .frzN) s = .next (finish s (s.guard1 P.DEBUG 28 (openCode A.DEBUG_FRZ_CFG) none)) ∧
    exec (.pinGlitch .genlock) s = .next (finish s (s.guard1 P.SYNC 28 0xFC (some 4))) ∧
    exec (.pinGlitch .ltc) s = .next (finish s (s.guard1 P.SYNC 28 0xFC (some 4))) ∧
    (∀ c, exec (.pinGlitch (.cap c)) s = .next (finish s (s.guard1 P.TRIG 28 0xF2 (some 2)))) ∧
    (∀ n, exec (.pinGlitch (.dmx n)) s = .next (finish s (s.guard1 P.DMX 28 (openCode (A.DMX_CFG n)) none)))

/-! ### The Gaffer, the keeper and the endpoint -/

/-- Every mailbox command that may run is answered OK with its effect: PING and INFO; the image commands, which write STAGING while no
update runs; UPDATE, REVERT_UPDATE and CONFIRM; SET_READ and JACK_RELOAD; IMAGE_END and SET_SAVE stay in service until their work
is done, and REBOOT restarts the device (R420, R421). The model's choices and readings in it: log entries 18 and 32. -/
def Obligations.MailboxCommandsTakeEffect : Prop :=
  ∀ (s : State) (src : MbxSrc) (tag : Nat), s.mbxOpen src tag → s.mayWrite src = true →
    let q (c : Nat) (pl : List Byte) : State := s.asked src c tag pl
    let ok (u : State) : State := mbxServe 2 (mbxDone 0 [] 0 u)
    exec (.ping src tag) s = .next (finish s (ok (q 0x01 []))) ∧
    exec (.info src tag) s = .next (finish s (mbxServe 2 (mbxDone 0 (q 0x02 []).infoWords 20 (q 0x02 [])))) ∧
    (s.stage = 2 → s.phase = 0 →
      (∀ n, n ≤ 0x2000000 → let u := q 0x10 (beBytes 4 n)
        exec (.imageBegin src tag n) s =
          .next (finish s (ok (slotState 1 1 { u with gaffer := { u.gaffer with staged := n } })))) ∧
      ((s.slotOf 1).state = 1 →
        (∀ off (d : List Byte), off + d.length ≤ s.gaffer.staged → off < 2 ^ 32 → d.length ≤ 1016 →
          exec (.imageData src tag off d) s =
            .next (finish s (ok (flashWrite (slotAt 1 + off) d (q 0x11 (beBytes 4 off ++ d)))))) ∧
        (∀ b n, b < 2 ^ 32 → n < 2 ^ 32 → n ≤ s.bufSize b → n ≤ s.gaffer.staged →
          exec (.imageBuf src tag b n) s = .next (finish s
            (ok (flashWrite (slotAt 1) (s.memRead (s.bufBase b) n) (q 0x12 (beBytes 4 b ++ beBytes 4 n)))))) ∧
        (let u := q 0x13 []
         exec (.imageEnd src tag) s = .next (finish s (mbxServe 2 { u with gaffer := { u.gaffer with mbxBusy := true } })))) ∧
      ((q 0x20 []).updateOk = true → exec (.update src tag) s =
        .next (finish s (ok ((q 0x20 []).put A.GAFFER_UPD_STAT F.GAFFER_UPD_STAT_PHASE 1)))) ∧
      ((s.slotOf 1).state = 2 → exec (.confirm src tag) s = .next (finish s (ok (slotState 1 3 (q 0x22 []))))) ∧
      (∀ b n, b < 2 ^ 32 → n ≤ 131064 → 8 * n ≤ s.bufSize b → s.gaffer.saving = none →
        let u := q 0x30 (beBytes 4 b ++ beBytes 4 n)
        let x := (saveBegin u.gaffer.image.setVer (u.memRead (u.bufBase b) (8 * n)) u).hold .mailbox b
        exec (.setSave src tag b n) s = .next (finish s (mbxServe 2 { x with gaffer := { x.gaffer with mbxBusy := true } })))) ∧
    (s.stage = 2 →
      (s.phase = 4 → exec (.revertUpdate src tag) s = .next (finish s (ok (reversalDue (q 0x21 []))))) ∧
      (∀ k off, k ≤ 2 → off < 0x100000 →
        let n := min 1016 (0x100000 - off)
        let u := q 0x31 (beBytes 4 k ++ beBytes 4 off)
        exec (.setRead src tag k off) s =
          .next (finish s (mbxServe 2 (mbxDone 0 (packWords ((n + 3) / 4) (u.flashRead (setAt k + off) n)) n u)))) ∧
      (∀ c, c ≤ 7 → s.jackBusy c = false →
        exec (.jackReload src tag c) s = .next (finish s (ok (jackStart c (q 0x40 (beBytes 4 c)))))) ∧
      exec (.reboot src tag 0x5A3C) s = .next (finish s (mbxServe 2 (restart causeWarm (q 0x50 (beBytes 4 0x5A3C))))))

/-- The boot ROM runs the image of ACTIVE, or of FALLBACK where ACTIVE's is not valid, or enters recovery; READY applies the settings,
commits epoch 1 and opens the mailbox (R409, R413, R414, R417, R418). IMAGE_END is answered when the image has been verified, and
SET_SAVE when the three copies are written, which clears the settings conflict; a Jack core runs again when its reload is done; a
datagram that MG0 cannot take is dropped and counted (R413, R419, R420, R422). The model's choices and readings in it: log entries
19 and 32. -/
def Obligations.StartAndGafferWork : Prop :=
  (∀ s : State, s.runs →
     (s.gaffer.started = false → s.stage = 0 → s.get A.CLK_PLL_STAT F.CLK_PLL_STAT_LOCKED = 0x7F →
       let t := takeStaging (slotReport s)
       let u := (slotState 0 6 t).raise P.GAFFER 2
       (t.imageValid 0 = true → exec .bootRomRun s = .next (finish s (firmwareStart 0 t))) ∧
       (t.imageValid 0 = false → u.imageValid 2 = true → exec .bootRomRun s = .next (finish s (firmwareStart 2 u))) ∧
       (t.imageValid 0 = false → u.imageValid 2 = false → exec .bootRomRun s =
         .next (finish s (gafferFault (settingsChoose 0 (u.wr A.GAFFER_BOOT_STAT (w32 (3 * 2 ^ 28)))))))) ∧
     (s.stage = 1 → s.get A.CAL_STAT F.CAL_STAT_BUSY ≠ 1 →
       let t := commitWrite .gaffer 1 (s.gaffer.settings.foldl (fun t x => applyRecord x t) s)
       exec .ready s = .next (finish s
         (mbxServe 3 ((t.put A.GAFFER_BOOT_STAT F.GAFFER_BOOT_STAT_STAGE 2).raise P.GAFFER 0))))) ∧
  (∀ s : State, s.runs →
     (s.serving 0x13 = true → s.stage = 2 →
       let t := putSlot 1 ⟨2, (s.imageInfo 1).version⟩ s
       (s.imageValid 1 = true → (mbxDone 0 [] 0 t).stage ≠ 3 →
         exec .imageVerifyDone s = .next (finish s (mbxServe 3 (mbxDone 0 [] 0 t)))) ∧
       (s.imageValid 1 = false →
         exec .imageVerifyDone s = .next (finish s (mbxServe 3 (mbxDone 5 [] 0 (slotState 1 6 s)))))) ∧
     (∀ d, s.gaffer.saving = some d →
       let t := ((flashWrite (setAt 2) d (flashWrite (setAt 1) d (flashWrite (setAt 0) d s))).wr A.SYS_SETTINGS_STAT 0).release .mailbox
       let u : State := { t with gaffer := { t.gaffer with saving := none } }
       (u.serving 0x30 = true → exec .setSaveDone s = .next (finish s (mbxServe 3 (mbxDone 0 [] 0 u)))) ∧
       (u.serving 0x30 = false → exec .setSaveDone s = .next (finish s u))) ∧
     (∀ c, c < 8 → s.jackBusy c = true →
       let t := (s.put A.GAFFER_JACK_STAT ⟨8 + c, 8 + c⟩ 0).put A.GAFFER_JACK_STAT ⟨c, c⟩ 1
       (s.gaffer.jackNew.head? ≠ some c → exec (.jackReloadDone c) s = .next (finish s t)) ∧
       (s.gaffer.jackNew.head? = some c → exec (.jackReloadDone c) s =
         .next (finish s (jackNext { t with gaffer := { t.gaffer with jackNew := t.gaffer.jackNew.drop 1 } })))) ∧
     (s.portOn 70 = true → s.mgPending = true → exec .mgDrop s = .next (finish s ((takeRx 70 s).inc A.GAFFER_MG_DROP))) ∧
     (s.portOn 70 = true → s.get A.GAFFER_MBX_CFG F.GAFFER_MBX_CFG_MG_EN = 0 →
       exec .mgDrop s = .next (finish s ((takeRx 70 s).inc A.GAFFER_MG_DROP))))

/-- A live update: an image that loads starts the migration, whose success waits for the handover, after which the image runs in the
other bank on probation; a probation that ends well confirms it, and one that fails is reversed at the next boundary (R424 to
R426). The model's choices and readings in it: log entries 19 and 32. -/
def Obligations.ALiveUpdateRunsItsPhases : Prop :=
  ∀ s : State, s.runs →
    (s.phase = 1 →
      (s.imageValid 1 = true → exec .updateLoadDone s =
        .next (finish s (s.put A.GAFFER_UPD_STAT F.GAFFER_UPD_STAT_PHASE 2))) ∧
      (s.imageValid 1 = false → exec .updateLoadDone s = .next (finish s (updateAbort 2 (slotState 1 6 s))))) ∧
    (s.phase = 2 → s.gaffer.handoverAt = none →
      let old := s.gaffer.image.setVer
      let new := (s.imageInfo 1).setVer
      let recs := if new = old then s.settingsRecords else Config.migrate old new s.settingsRecords
      exec (.updateMigrationDone true) s = .next (finish s { s with
        gaffer := { s.gaffer with migrated := some recs, handoverAt := some (s.nowNs + 1000000) } }) ∧
      exec (.updateMigrationDone false) s = .next (finish s (updateAbort 1 (slotState 1 5 s)))) ∧
    (s.phase = 3 →
      let t := runImage (s.imageInfo 1) (1 - s.get A.GAFFER_BOOT_STAT F.GAFFER_BOOT_STAT_BANK)
        { s with gaffer := { s.gaffer with oldImage := s.gaffer.image } }
      let u := (t.put A.GAFFER_UPD_STAT F.GAFFER_UPD_STAT_PHASE 4).put A.GAFFER_UPD_STAT F.GAFFER_UPD_STAT_PROB_LEFT 1200
      let v : State := { u with gaffer := { u.gaffer with handoverAt := none, reversal := none, jackNew := List.range 8 } }
      exec .updateHandover s = .next (finish s (mbxServe 3 (jackNext (v.raise P.GAFFER 4))))) ∧
    (s.phase = 4 → s.gaffer.reversal = none →
      (s.get A.GAFFER_UPD_STAT F.GAFFER_UPD_STAT_PROB_LEFT = 0 →
        let recs := s.gaffer.migrated.getD []
        let t := slotState 1 3 (s.put A.GAFFER_UPD_STAT F.GAFFER_UPD_STAT_PHASE 0)
        let u : State := { t with gaffer := { t.gaffer with settings := parseRecords (recs.length / 8) recs, migrated := none } }
        exec .updateConfirmed s = .next (finish s ((saveBegin u.gaffer.image.setVer recs u).raise P.GAFFER 5))) ∧
      exec .probationFailure s = .next (finish s { s with gaffer := { s.gaffer with reversal := some s.time.bnds } })) ∧
    (∀ b, s.phase = 4 → s.gaffer.reversal = some b → b < s.time.bnds →
      let t := runImage s.gaffer.oldImage (1 - s.get A.GAFFER_BOOT_STAT F.GAFFER_BOOT_STAT_BANK) s
      let u := slotState 1 4 (t.wr A.GAFFER_UPD_STAT (w32 (4 * 2 ^ 24)))
      let again := (List.range 8).filter fun c => !u.gaffer.jackNew.contains c || (u.gaffer.jackNew.head? == some c && u.jackBusy c)
      let v : State := { u with gaffer := { u.gaffer with reversal := none, migrated := none, jackNew := again } }
      exec .updateReversed s = .next (finish s (mbxFailAll 3 (jackNext (v.raise P.GAFFER 6))))) ∧
    (let t := (s.inc A.GAFFER_WDOG_CNT).raise P.GAFFER 8
     (t.phase = 4 → exec .watchdogExpire s = .next (finish s (reversalDue t))) ∧
     (t.phase ≠ 4 → exec .watchdogExpire s = .next (finish s (restart causeWatchdog t))))

/-- The keeper counts seconds, takes them from SEC, records tampering but for a pulse that an injection takes out, and gives up its
oldest entry to a read of LOG0; it loses what it held with both supplies (R429 to R431, R434, R455, R471). The PCIe endpoint shows
its link, counts errors, and FLR clears the host's own state and no other (R433). The model's choices and readings in it: log
entries 4 and 33. -/
def Obligations.KeeperAndEndpoint : Prop :=
  ∀ s : State,
    exec .keepSecond s = .next (finish s (s.wr64 A.KEEP_SEC_LO ((s.keepSec + 1) % 2 ^ 64))) ∧
    (s.injArmed P.KEEP 31 = false → let t := (s.put A.KEEP_STAT F.KEEP_STAT_TAMPER 1).raise P.KEEP 1
     (t.get A.KEEP_TAMPER_CFG F.KEEP_TAMPER_CFG_EN = 1 → exec .tamper s = .next (finish s (logEvent 2 t))) ∧
     (t.get A.KEEP_TAMPER_CFG F.KEEP_TAMPER_CFG_EN ≠ 1 → exec .tamper s = .next (finish s t))) ∧
    (s.injArmed P.KEEP 31 = true → exec .tamper s =
      .next (finish s ((s.injTake P.KEEP 31).guard1 P.KEEP 28 (openCode A.KEEP_TAMPER_CFG) none))) ∧
    (s.power.por = true → exec .keeperLost s = .next (finish s { s with
      rf := { s.rf with live := s.rf.live.filter fun x => x.1 / 0x1000 != P.KEEP }
      keepLog := [], power := { s.power with keeperLost := true } })) ∧
    (∀ (r : Req) (v : Word), s.reaches r P.KEEP →
      let a := s.arrive r P.KEEP
      exec (.keepSecWrite r v) s =
        .next (finish s (((a.wr A.KEEP_SEC_LO (a.bank (holdAt P.KEEP) 1 r)).wr A.KEEP_SEC_HI v).reply r .done)) ∧
      (∀ e es, a.viewOf r P.KEEP ≠ 2 → a.keepLog = e :: es →
        let t := keepOcc { a with keepLog := es }
        let u := ((t.wr A.KEEP_LOG1 (w32 e.sec.toNat)).wr A.KEEP_LOG2 (w32 (e.sec.toNat / 2 ^ 32))).wr A.KEEP_LOG3 (w32 e.sub)
        exec (.log0Pop r) s = .next (finish s (u.reply r (.data (w32 (2 ^ 31 + e.kind % 16 * 2 ^ 24))))))) ∧
    (s.runs →
      (∀ v w, exec (.pcieLinkChange true v w) s =
        .next (finish s ((s.wr A.HOST_LINK_STAT (w32 (2 ^ 31 + v % 16 * 65536 + w % 8))).raise P.HOST 0))) ∧
      (∀ v w, exec (.pcieLinkChange false v w) s = .next (finish s ((s.wr A.HOST_LINK_STAT 0).raise P.HOST 0))) ∧
      exec (.pcieError true) s = .next (finish s ((s.inc A.HOST_UE_CNT).raise P.HOST 2)) ∧
      exec (.pcieError false) s = .next (finish s ((s.inc A.HOST_CE_CNT).raise P.HOST 1)) ∧
      (∃ u : State, exec .flr s = .next (finish s u) ∧ u.rf.shadow = s.rf.shadow ∧ u.rf.pend = s.rf.pend ∧
        u.rf.active = s.rf.active ∧ u.mem = s.mem ∧ u.lease = s.lease ∧ u.commit = s.commit ∧
        (∀ p, u.bank (H.PAGE_CTRL p) 0 .host = 0 ∧ u.bank (holdAt p) 0 .host = 0 ∧ u.bank (holdAt p) 1 .host = 0 ∧
          u.bank (H.PAGE_CTRL p) 0 .gaffer = s.bank (H.PAGE_CTRL p) 0 .gaffer)))

/-! ### Buffers, maps and device memory -/

/-- The buffer commands on the buffer that BUF_SEL names: DEFINE of an EMPTY buffer over granules that no other holds, FREE at once or
when the lease ends, CANCEL of a pending free, too late where the lease ends in its cycle, QUERY, and a read of FREE_DONE, the
oldest completed free first (R81 to R86, R93). The model's choices and readings in it: log entry 29. -/
def Obligations.BufferCommandsTakeEffect : Prop :=
  ∀ (s : State) (r : Req), s.obeys r P.LEASE →
    let a := s.arrive r P.LEASE
    let id := (a.bank A.LEASE_BUF_SEL 0 r).toNat % 0x1000
    let base := fget (a.bank A.LEASE_BUF_BASE 0 r) ⟨18, 0⟩
    let size := fget (a.bank A.LEASE_BUF_SIZE 0 r) ⟨18, 0⟩
    (a.buf id = none → size ≠ 0 → 12288 ≤ base → base + size ≤ 0x80000 → a.overlap id base size = none →
      let t := (a.setBuf id (some ⟨id, base, size, bitOf (a.bank A.LEASE_BUF_ATTR 0 r) 0, false⟩)).bumpWgen id
      let u : State := { t with lease := { t.lease with stamps := t.lease.stamps.filter fun m => m.cell != id } }
      exec (.define r) s = .next (finish s ((u.bufResult r 1 0 id).reply r .done))) ∧
    (∀ b, a.buf id = some b → b.freePending = false →
      (a.leased b = true → exec (.free r) s =
        .next (finish s (((a.setBuf id (some { b with freePending := true })).bufResult r 2 0 id).reply r .done))) ∧
      (a.leased b = false → exec (.free r) s = .next (finish s (((a.setBuf id none).bufResult r 1 0 id).reply r .done)))) ∧
    (∀ met : Bool, let m : State := { s with lease := { s.lease with meets := met } }
      m.obeys r P.LEASE → let c := m.arrive r P.LEASE
      let id := (c.bank A.LEASE_BUF_SEL 0 r).toNat % 0x1000
      let settled (t : State) : State := { t with lease := { t.lease with meets := false } }
      (∀ b, c.buf id = some b → b.freePending = true → c.leased b = true →
        exec (.cancel ⟨r, met⟩) s =
          .next (finish s (settled (((c.setBuf id (some { b with freePending := false })).bufResult r 1 0 id).reply r .done)))) ∧
      (c.buf id = none → exec (.cancel ⟨r, met⟩) s = .next (finish s
        (settled ((c.bufResult r (if c.lease.meets && c.lease.ended.contains id then 7 else 6) 0 id).reply r .done))))) ∧
    (∀ b, a.buf id = some b →
      let t := (((a.setBank A.LEASE_BUF_BASE 0 r (w32 b.base)).setBank A.LEASE_BUF_SIZE 0 r (w32 b.size)).setBank
        A.LEASE_BUF_ATTR 0 r (w32 b.hostfill.toNat)).setBank A.LEASE_BUF_WGEN 0 r (a.wgen id)
      let u := t.setBank A.LEASE_BUF_REFS 0 r (w32 (min (a.setRefs id) 0xFFFF))
      exec (.query r) s = .next (finish s ((u.bufResult r 1 0 id).reply r .done))) ∧
    (∀ k l, a.viewOf r P.LEASE ≠ 2 → a.lease.done = k :: l →
      exec (.freeDonePop r) s =
        .next (finish s ({ a with lease := { a.lease with done := l } }.reply r (.data (w32 (2 ^ 31 + k))))))

/-- FREE follows the state of the buffer that BUF_SEL names: an IDLE buffer becomes EMPTY with result DONE, a LEASED one FREE_PENDING
with PENDING, a FREE_PENDING one stays so with PENDING and has no second completion, and an EMPTY one stays so with REJ_STATE
(R84). -/
def Obligations.FreeFollowsTheBufferState : Prop :=
  ∀ (s : State) (r : Req), s.obeys r P.LEASE →
    let a := s.arrive r P.LEASE
    let id := (a.bank A.LEASE_BUF_SEL 0 r).toNat % 0x1000
    let ends (res : Nat) (t : State) : Prop := exec (.free r) s = .next (finish s ((t.bufResult r res 0 id).reply r .done))
    (∀ b, a.buf id = some b → b.freePending = false → a.leased b = false → ends 1 (a.setBuf id none)) ∧
    (∀ b, a.buf id = some b → b.freePending = false → a.leased b = true → ends 2 (a.setBuf id (some { b with freePending := true }))) ∧
    (∀ b, a.buf id = some b → b.freePending = true → ends 2 a) ∧
    (a.buf id = none → ends 6 a)

/-- A write that no rule blocks stores every byte of its data and no other, keeps memory's canonical form, and is counted; a read
answers the bytes that memory holds (R87, R88). An access with a blocked block is a violation: where every block is blocked
nothing is written, and a read is aborted (R87, R88). The model's choices and readings in it: log entry 24. -/
def Obligations.MemoryIsReadWrittenAndGuarded : Prop :=
  (∀ s : State, s.runs →
     (∀ (off : Nat) (data : List Byte),
       let t := hostTlp s
       let a := t.bar2 off
       t.firstBlocked .host true a data.length = none →
       ∃ u : State, exec (.bar2Write off data) s = .next (finish s u) ∧ u.rf.hostReply = .done ∧
         (∀ i : Nat, (h : i < data.length) → u.memB (a + i) = data[i]) ∧
         (∀ x, (x < a ∨ a + data.length ≤ x) → u.memB x = s.memB x) ∧ (Memory.wf s.mem = true → Memory.wf u.mem = true)) ∧
     (∀ (a : Nat) (data : List Byte), s.firstBlocked .gaffer true a data.length = none →
       ∃ u : State, exec (.gafferMemoryAccess a data.length (some data)) s = .next (finish s u) ∧ u.rf.gafferReply = .done ∧
         (∀ i : Nat, (h : i < data.length) → u.memB (a + i) = data[i]) ∧
         (∀ x, (x < a ∨ a + data.length ≤ x) → u.memB x = s.memB x) ∧ (Memory.wf s.mem = true → Memory.wf u.mem = true)) ∧
     (∀ off n, n ≠ 0 →
       let t := hostTlp s
       t.firstBlocked .host false (t.bar2 off) n = none → t.injArmed P.MEM 0 = false → t.injArmed P.MEM 1 = false →
       exec (.bar2Read off n) s =
         .next (finish s ((t.add64 A.MEM_RD_BYTES_LO n).reply .host (.bytes (s.memRead (t.bar2 off) n))))) ∧
     (∀ a n, n ≠ 0 → s.firstBlocked .gaffer false a n = none → s.injArmed P.MEM 0 = false → s.injArmed P.MEM 1 = false →
       exec (.gafferMemoryAccess a n none) s =
         .next (finish s ((s.add64 A.MEM_RD_BYTES_LO n).reply .gaffer (.bytes (s.memRead a n)))))) ∧
  (∀ s : State, s.runs →
     (∀ (off : Nat) (data : List Byte), data ≠ [] →
       let t := hostTlp s
       let a := t.bar2 off
       (∀ i, i < data.length → t.blocked .host true ((a + i) / 64 * 64) = true) →
       exec (.bar2Write off data) s = .next (finish s ((t.violation .host true a).reply .host .done))) ∧
     (∀ off n x,
       let t := hostTlp s
       t.firstBlocked .host false (t.bar2 off) n = some x →
       exec (.bar2Read off n) s = .next (finish s ((t.violation .host false x).reply .host .abort))) ∧
     (∀ a n x, s.firstBlocked .gaffer false a n = some x →
       exec (.gafferMemoryAccess a n none) s = .next (finish s ((s.violation .gaffer false x).reply .gaffer .busError))))

/-- BUILD_CMD starts a build where its buffers allow it, which has cleared its target and read some entries by the next command; the
build's end reads the rest and stamps the cell map, or fails where the target is too small; MAP_SET takes a pair that a build has
stamped, and rejects any other (R74 to R76). The model's choices and readings in it: log entry 1. -/
def Obligations.MapBuildsRunAndAreSet : Prop :=
  ∀ (s : State) (r : Req) (v : Word), s.obeys r P.MAPS →
    let a := s.arrive r P.MAPS
    let fix := fget v ⟨27, 16⟩
    let cell := fget v ⟨11, 0⟩
    (bitOf v 31 = true → a.lease.build = none → fix ≠ nullBuf → cell ≠ nullBuf → a.bufState fix ≠ 0 → a.bufState fix ≠ 3 →
      a.bufState cell = 1 →
      0x400000 ≤ a.bufSize fix →
      let m : MapBuild := ⟨fix, cell, a.wgen fix, 0, 0, 0, 0, none⟩
      let b : State := { a with lease := { a.lease with build := some m, stamps := a.lease.stamps.filter fun m => m.cell != cell } }
      let h := (b.hold .build fix).hold .build cell
      let n := h.fresh 262145
      (a.bufSize cell < 0x4000000 → exec (.mapsBuild r v) s =
        .next (finish s (((h.wr A.MAPS_BUILD_STAT (w32 (2 ^ 30))).wr A.MAPS_CLIP_COUNT 0).reply r .done))) ∧
      (0x4000000 ≤ a.bufSize cell → exec (.mapsBuild r v) s = .next (finish s
        ((engineRead (h.bufBase fix) (fun t => buildOn m n.1 (t.memClear (t.bufBase cell) 0x4000000)) n.2).reply r .done)))) ∧
    (bitOf v 31 = true → a.lease.build ≠ none →
      exec (.mapsBuild r v) s = .next (finish s ((a.guard1 P.MAPS 31 0x1C (some 4)).reply r .done))) ∧
    (∀ b, s.lease.build = some b → s.bufSize b.cell < 0x4000000 →
      exec .mapBuildEnd s = .next (finish s (buildFailed ⟨2, none, 0, none⟩ 0 s))) ∧
    (∀ b, s.lease.build = some b → 0x4000000 ≤ s.bufSize b.cell →
      let u := buildOn b 262144 s
      ∃ e, u.lease.build = some e ∧
        (∀ f, e.fail = some f → exec .mapBuildEnd s = .next (finish s (buildFailed f e.progress u))) ∧
        (e.fail = none →
          let t := u.wr A.MAPS_BUILD_STAT (w32 (2 * 2 ^ 30 + e.progress))
          let x : State := { t with lease := { t.lease with build := none, stamps := ⟨e.cell, e.fix, e.gen, e.owned⟩ :: t.lease.stamps } }
          exec .mapBuildEnd s = .next (finish s ((x.release .build).raise P.MAPS 0)))) ∧
    (let w := (RegDef.mk 0x080 0 1 .single [⟨27, 16, .rws, 4095⟩, ⟨11, 0, .rws, 4095⟩]).merge (a.shd A.MAPS_MAP_SET) v
     (judgeWord (checksOf a A.MAPS_MAP_SET w) false w = ⟨some w, []⟩ → a.mapSetOk w = true →
       ∃ u : State, exec (.mapSet r v) s = .next (finish s u) ∧ u.shd A.MAPS_MAP_SET = w ∧
         (∀ b, b ≠ A.MAPS_MAP_SET → u.shd b = a.shd b) ∧ u.rf.active = a.rf.active ∧ u.mem = a.mem) ∧
     (a.mapSetOk w = false →
       ∃ u : State, exec (.mapSet r v) s = .next (finish s u) ∧ u.rf.shadow = a.rf.shadow ∧ u.rf.active = a.rf.active))

/-! ### Render jobs -/

/-- The slot commands while no boundary step runs: ARM makes an armable slot wait, at once or after its delay; SLOT_CANCEL takes a
slot off every list and empties it; PSET and PCLR change its personal flags; SLOT_QUERY reports it. Each names its result to its
requester. During the boundary steps a command waits behind those that arrived before it (R117, R119, R121, R128, R134). Where
CANCEL meets, in its cycle, an event that would have started or ended the slot's job, cancel wins and the race is counted; one
that has not come due meets nothing (R119, R127). The model's choices and readings in it: log entry 27. -/
def Obligations.SlotCommandsTakeEffect : Prop :=
  (∀ (s : State) (r : Req) (k : Nat), k < 4096 → s.obeys r P.SCHED →
     let a := s.arrive r P.SCHED
     let x := a.slot k
     (a.sched.holding = false →
       (a.slotEmpty k = false → x.st = .idle ∨ x.st = .done →
         (dDelay (a.desc k) = 0 → exec (.arm r k) s = .next (finish s ((slotResult r 1 k (schedKick (evalWaits
           (a.setSlot k { x with st := .wait, fresh := true, resume := none })))).reply r .done))) ∧
         (dDelay (a.desc k) ≠ 0 →
           let t := (countTicks a).setSlot k { x with st := .delay, fresh := true, resume := none }
           let u : State := { t with sched := { t.sched with
             delays := t.sched.delays ++ [⟨k, dDelay (a.desc k), dTick (a.desc k)⟩] } }
           exec (.arm r k) s = .next (finish s ((slotResult r 1 k (schedKick (evalWaits u))).reply r .done)))) ∧
       (a.slotEmpty k = false → x.st ≠ .idle → x.st ≠ .done →
         exec (.arm r k) s = .next (finish s ((slotResult r 2 k (schedKick (evalWaits a))).reply r .done))) ∧
       (a.benchOf k = none →
         let st := if x.st = .done then SlotSt.done else SlotSt.idle
         exec (.slotCancel r k none) s = .next (finish s ((slotResult r 1 k (schedKick
           ((a.unlist k).setSlot k { x with st := st, pflags := 0, resume := none }))).reply r .done))) ∧
       (∀ b j, a.benchOf k = some b → (a.bench b).job = some j →
         let t := (stopJob b false true a).2.dropCopies b k
         let y := { t.slot k with st := SlotSt.idle, pflags := 0, status := 4, resume := none, fresh := false, frameLast := j.frame }
         exec (.slotCancel r k none) s = .next (finish s ((slotResult r 1 k (schedKick (t.setSlot k y))).reply r .done))) ∧
       (∀ f : Byte,
         exec (.pset r k f) s = .next (finish s ((slotResult r 1 k (schedKick (evalWaits
           (a.setSlot k { x with pflags := x.pflags ||| f.toNat })))).reply r .done)) ∧
         exec (.pclr r k f) s = .next (finish s ((slotResult r 1 k (schedKick (evalWaits
           (a.setSlot k { x with pflags := x.pflags &&& (255 - f.toNat) })))).reply r .done))) ∧
       exec (.slotQuery r k) s = .next (finish s ((slotResult r 1 k (a.wr A.SCHED_SLOT_FRAME (w32 x.frameLast))).reply r .done))) ∧
     (a.sched.holding = true →
       let later (n : Nat) : Host.Outcome State Fault Refusal := .next (finish s (State.reply { a with sched := { a.sched with
         held := a.sched.held ++ [⟨r, A.SCHED_SLOT_CMD, (w32 (n + k)).zeroExtend 64⟩] } } r .done))
       exec (.arm r k) s = later (1 * 2 ^ 28) ∧ exec (.slotCancel r k none) s = later (2 * 2 ^ 28) ∧
       (∀ f : Byte, exec (.pset r k f) s = later (3 * 2 ^ 28 + f.toNat * 65536) ∧
         exec (.pclr r k f) s = later (4 * 2 ^ 28 + f.toNat * 65536)) ∧
       exec (.slotQuery r k) s = later (5 * 2 ^ 28))) ∧
  (∀ (s : State) (r : Req) (k : Nat), k < 4096 → s.obeys r P.SCHED → s.sched.holding = false → s.mustWait P.SCHED = false →
     bitOf (s.rd (H.PAGE_STAT P.SCHED)) 28 = false → s.injArmed P.SCHED 30 = false → s.injArmed P.SCHED 31 = false →
     s.injArmed P.HOST 1 = false →
     (∀ q, exec (.slotCancel r k (some (.arm q))) s =
       .next (finish s ((slotResult q 2 k (raceWon (cmdCancel r k s))).reply r .done))) ∧
     (∀ q f, (s.slot k).st = .wait → s.schedEn = true →
       (s.setSlot k { s.slot k with pflags := (s.slot k).pflags ||| f.toNat }).waitHolds k = true →
       exec (.slotCancel r k (some (.pset q f))) s =
         .next (finish s ((slotResult q 1 k (raceWon (cmdCancel r k s))).reply r .done))) ∧
     (∀ q f, (s.slot k).st = .wait → s.schedEn = true → (s.changeFlags 0 f.toNat).waitHolds k = true →
       exec (.slotCancel r k (some (.gset q f))) s =
         .next (finish s ((raceWon (cmdGset f.toNat (cmdCancel r k s))).reply r .done))) ∧
     (∀ b j, s.benchOf k = some b → (s.bench b).job = some j → dKind j.desc ≠ 2 →
       let t := (((runJob b j (s.slot k).fresh none false true s).2).benchIdle b).dropCopies b k
       let x := { t.slot k with st := SlotSt.idle, pflags := 0, status := 4, frameLast := j.frame, fresh := false, resume := none }
       exec (.slotCancel r k (some .finish)) s =
         .next (finish s ((raceWon (slotResult r 1 k (schedKick (t.setSlot k x)))).reply r .done))) ∧
     (∀ due, s.delayDue k = some due → (delayDueOp k s).slot k ≠ s.slot k →
       let t := reach due s
       (t.sched.delays.any fun e => e.slot == k && e.tick) = true → t.schedEn = true → t.waitHolds k = true →
       exec (.slotCancel r k (some .delay)) s = .next (finish s ((raceWon (cmdCancel r k t)).reply r .done))) ∧
     (∀ b j, (s.bench b).job = some j → dKind j.desc ≠ 2 → s.benchOf k ≠ some b → ((jobEnds b s).slot k).st ≠ (s.slot k).st →
       exec (.slotCancel r k (some (.other b))) s = .next (finish s
         ((raceWon (slotResult r 1 k (schedKick (evalWaits (cancelSlot k (jobEnds b s)))))).reply r .done))) ∧
     (s.benchOf k = none → exec (.slotCancel r k (some .finish)) s = exec (.slotCancel r k none) s))

/-- A write of GSET sets, and of GCLR clears, the global flags of its 64 bits, and the waits are judged again; the boundary steps end
by applying the writes that they held, in order of arrival, before any job is dispatched, and opening the layers (R119, R120,
R128). The model's choices and readings in it: log entry 28. -/
def Obligations.GlobalFlagsAndHeldWrites : Prop :=
  ∀ s : State,
    (∀ (r : Req) (f : Cell), s.reaches r P.SCHED →
      let b := ((s.arrive r P.SCHED).setBank (holdAt P.SCHED) 1 r (f.extractLsb' 0 32)).reply r .done
      b.reaches r P.SCHED →
      let c := b.arrive r P.SCHED
      c.bank (holdAt P.SCHED) 1 r = f.extractLsb' 0 32 →
      (c.sched.holding = false →
        exec (.gset r f) s = .next (finish s ((schedKick (evalWaits (c.changeFlags 0 f.toNat))).reply r .done)) ∧
        exec (.gclr r f) s = .next (finish s ((schedKick (evalWaits (c.changeFlags f.toNat 0))).reply r .done))) ∧
      (c.sched.holding = true →
        exec (.gset r f) s = .next (finish s (State.reply { c with sched := { c.sched with
          held := c.sched.held ++ [⟨r, A.SCHED_GSET_LO, f⟩] } } r .done)) ∧
        exec (.gclr r f) s = .next (finish s (State.reply { c with sched := { c.sched with
          held := c.sched.held ++ [⟨r, A.SCHED_GCLR_LO, f⟩] } } r .done)))) ∧
    (s.runs → s.sched.holding = true →
      let a := twinStep1 (calApplyOp (step2 (s.time.due.foldl (fun t st => streamRecord st t) s)))
      exec .schedHeldWritesApply s = .next (finish s (headFollow (headSend (roleChange (marverBegin (heldWritesApplyOp a))))))) ∧
    (s.sched.holding = true →
      let t := schedSteps (consoleDue s)
      let u := applyHeld t.sched.held { t with sched := { t.sched with held := [] } }
      heldWritesApplyOp s = schedKick (openLayers { u with sched := { u.sched with applying := false } }))

/-- A tick delay that expires makes its job wait, an affinity window that expires frees its job for any bench, a job that completes
writes its state, takes its completion actions and frees its bench, and a layer's deadline, at N + F × CLOSE_AT / 256, closes it
and defers what it still held (R121, R123, R124, R126, R129). A job on a layer at its deadline is late: it ends for the frame,
waiting for the next boundary where it repeats, and else first in the ready order, to resume where it stopped (R124). The model's
choices and readings in it: log entries 4 and 11. -/
def Obligations.JobsMoveThroughTheScheduler : Prop :=
  (∀ s : State, s.runs →
     (∀ k due, s.schedEn = true → s.delayDue k = some due →
       let t := countTicks (reach due s)
       ((t.sched.delays.any fun e => e.slot == k && e.tick && e.left == 0) = true →
         exec (.delayExpire k) s = .next (finish s (schedKick (evalWaits ((t.unlist k).setSlot k { t.slot k with st := .wait }))))) ∧
       ((t.sched.delays.any fun e => e.slot == k && e.tick && e.left == 0) = false →
         exec (.delayExpire k) s = .next (finish s t))) ∧
     (∀ k e, (s.sched.affinity.find? fun e => e.slot == k) = some e →
       let t := reach (e.since + s.actF A.SCHED_AFF_WINDOW ⟨15, 0⟩) s
       (e.since + s.actF A.SCHED_AFF_WINDOW ⟨15, 0⟩ ≤ t.nowNs →
         exec (.affinityWindowExpire k) s = .next (finish s (schedKick { t with sched := { t.sched with
           affinity := t.sched.affinity.map fun e => if e.slot = k then { e with ended := true } else e } }))) ∧
       (t.nowNs < e.since + s.actF A.SCHED_AFF_WINDOW ⟨15, 0⟩ → exec (.affinityWindowExpire k) s = .next (finish s t))) ∧
     (∀ b j, (s.bench b).job = some j → dKind j.desc ≠ 2 ∨ s.sliceOn P.SAMPLER = false →
       let t := ((runJob b j (s.slot j.slot).fresh none false true s).2.benchIdle b).dropCopies b j.slot
       let x := { t.slot j.slot with st := if dRepeat j.desc then SlotSt.spent else .done, status := 1, frameLast := j.frame,
                                     fresh := false, resume := none }
       exec (.jobComplete b) s =
         .next (finish s (schedKick (evalWaits (completionActions j.desc (closeQuiet (t.setSlot j.slot x))))))) ∧
     (∀ i, (s.layerSt i).isOpen = true → (reach s.closeDue s).nowNs < s.closeDue →
       exec (.layerDeadline i) s = .next (finish s (reach s.closeDue s))) ∧
     (∀ i, (s.layerSt i).isOpen = true → s.closeDue ≤ (reach s.closeDue s).nowNs → let s' := s; let s := reach s.closeDue s
       let ready := s.sched.ready.filter fun k => dLayer (s.slotDesc k) == i && !dVideoClip (s.slotDesc k)
       let aff := s.sched.affinity.filter fun e => dLayer (s.slotDesc e.slot) == i && !dVideoClip (s.slotDesc e.slot)
       let n := ready.length + aff.length
       let t := (List.range 16).foldl (lateOn i) ((s.add A.SCHED_DEFERRED ⟨31, 0⟩ n).raiseN n P.SCHED 2)
       let u := aff.foldl (fun t e => t.setSlot e.slot { t.slot e.slot with st := .ready }) t
       let v : State := { u with sched := { u.sched with
         affinity := u.sched.affinity.filter fun e => !aff.contains e, ready := aff.map (·.slot) ++ u.sched.ready } }
       exec (.layerDeadline i) s' = .next (finish s' (schedKick (closeLayer true i v)))) ∧
     (∀ b w, exec (.lsEccError b w false) s = .next (finish s ((s.inc (A.BENCH_LS_CE_CNT b)).raise (P.BENCH b) 0))) ∧
     (∀ b w j, (s.bench b).job = some j →
       let r := stopJob b false false (benchUe b w s)
       exec (.lsEccError b w true) s = .next (finish s (schedKick (faultSlot b j.slot (dRepeat j.desc) j.frame r.2)))) ∧
     (∀ b w, (s.bench b).job = none → exec (.lsEccError b w true) s = .next (finish s (benchUe b w s)))) ∧
  (∀ (s : State) (b i : Nat) (j : RunJob), (s.bench b).job = some j → dLayer j.desc = i → dVideoClip j.desc = false →
     let n := s.fresh (2 ^ 24)
     let r := runJob b j (s.slot j.slot).fresh (some n.1) (!dRepeat j.desc) true n.2
     let t := (((r.2.benchIdle b).dropCopies b j.slot).inc A.SCHED_LATE_CNT).raise P.SCHED 1
     let x := { t.slot j.slot with status := 2, frameLast := j.frame, fresh := false }
     (dRepeat j.desc = true → lateOn i s b = t.setSlot j.slot { x with st := .spent, resume := none }) ∧
     (dRepeat j.desc = false →
       let u := t.setSlot j.slot { x with st := .ready, resume := some (j.desc, r.1) }
       lateOn i s b = { u with sched := { u.sched with ready := j.slot :: u.sched.ready } }))

/-! ### Ingest, composition and colour -/

/-- A video packet of a served flow writes its rows into the slot being filled, and the frame ends with its marker, on two legs when
no packet before it can still arrive; a packet that came on the other leg is dropped; HOST_POST posts a host buffer that is free
as the flow's newest frame and holds it (R140 to R143, R148). The model's choices and readings in it: log entry 22. -/
def Obligations.VideoPacketsAndHostPosts : Prop :=
  ∀ s : State,
    (s.runs → ∀ (f : Nat) (pk : VideoPacket), s.ingestEn = true → s.flowType f = 1 → s.flowsServed.contains f = true →
      2 ≤ s.slotsUsed f → pk.field = false → pk.excess = false →
      let t : State := { s with ingest := { s.ingest with videoBytes := s.ingest.videoBytes + pk.bytes } }
      (∀ fi, (s.flow f).fill = some fi → s.twoLegs f = false ∨ (fi.seen.contains pk.eseq = false ∧ (s.flow f).prevSeen.contains pk.eseq = false) →
        (fi.ts = pk.ts → exec (.videoPacket f pk) s = .next (finish s (videoTake f pk fi t))) ∧
        (fi.ts ≠ pk.ts → let e := endFrame f (!fi.marker) t
          exec (.videoPacket f pk) s = .next (finish s (videoTake f pk (e.newFill f pk) e)))) ∧
      ((s.flow f).fill = none → s.twoLegs f = false ∨ (s.flow f).prevSeen.contains pk.eseq = false →
        exec (.videoPacket f pk) s = .next (finish s (videoTake f pk (t.newFill f pk) t))) ∧
      (∀ fi, (s.flow f).fill = some fi → s.twoLegs f = true → fi.seen.contains pk.eseq = true →
        let g : Fill := { fi.arrive pk fi.lastAt with marker := fi.marker }
        let u := t.setFlow f { t.flow f with fill := some g }
        exec (.videoPacket f pk) s = .next (finish s (if u.frameEnds f g then endFrame f false u else u))) ∧
      (s.twoLegs f = true → (s.flow f).prevSeen.contains pk.eseq = true → (∀ fi, (s.flow f).fill = some fi → fi.seen.contains pk.eseq = false) →
        exec (.videoPacket f pk) s = .next (finish s t))) ∧
    (∀ (s : State) (f : Nat) (pk : VideoPacket) (fi : Fill),
      let r := takeRows f pk (fi.arrive pk s.nowNs) s
      let u := r.2.setFlow f { r.2.flow f with fill := some r.1 }
      videoTake f pk fi s = if u.frameEnds f r.1 then endFrame f false u else u) ∧
    (∀ (r : Req) (f : Nat) (v : Word), f < 256 → s.obeys r (P.FLOW f) →
      let a := s.arrive r (P.FLOW f)
      let n := fget v ⟨1, 0⟩
      let b := a.hostBuf f n
      a.ingestEn = true → a.flowType f = 4 → a.flowsServed.contains f = true → b ≠ nullBuf →
      (a.flowPlanes f).size ≤ a.bufSize b → (a.flowPlanes f).w ≠ 0 →
      a.bufState b = 1 →
      let w := a.wr (A.FLOW_HOST_POST f) (v &&& 0xFFFF0003)
      let u := match (w.flow f).hostPost with
        | some old => (w.release (.post f old.1)).flowDiscard f
        | none => w
      let x := u.hold (.post f n) b
      let y := x.setFlow f { x.flow f with hostPost := some (n, fget v ⟨31, 16⟩) }
      exec (.hostPost r f v) s = .next (finish s (((y.put (A.FLOW_STAT f) F.FLOW_STAT_NEWEST n).flowUnit f).reply r .done)))

/-- An E1.31 data packet in sequence becomes its source's unit, at once or when the packet that its sync address names arrives; one
that is not later is discarded; a source whose last unit is too old is live no longer, and a universe discovery packet does
nothing (R149 to R151, R153). An accepted console datagram takes its effect: LEVELS writes slot values of its universe, FLAGS
waits for the boundary, which applies it, TIMECODE becomes its flow's timecode, and USER goes whole to the flow's queue (R155).
The model's choices and readings in it: log entry 22. -/
def Obligations.NetworkUnitsAreTaken : Prop :=
  (∀ s : State, s.runs →
     (∀ (f : Nat) (p : SacnData) (z : SacnSrc), s.ingestEn = true → s.flowType f = 2 → p.rootVec = 4 → p.frameVec = 2 → p.dmpVec = 2 →
       p.addrType = 0xA1 → p.firstAddr = 0 → p.addrIncr = 1 → p.startCode = 0 → p.preview = false → p.propCount ≠ 0 →
       p.propCount ≤ 513 → p.prio ≤ 200 → s.injArmed (P.FLOW f) 31 = false → ((s.flow f).sources.find? fun x => x.is p.cid p.univ) = some z →
       let d := (p.seq + 256 - z.seq % 256) % 256
       let u : SacnUnit := ⟨p.seq % 256, p.prio, (p.slots.take (p.propCount - 1)).take 512, p.syncAddr, p.terminated⟩
       let z' : SacnSrc := { z with seq := p.seq % 256, live := z.live && !p.terminated }
       (d = 0 ∨ 237 ≤ d → exec (.sacnDataPacket f p) s = .next (finish s (s.flowDiscard f))) ∧
       (d ≠ 0 → d < 237 → p.syncAddr = 0 → exec (.sacnDataPacket f p) s = .next (finish s (sacnComplete f z' u s))) ∧
       (d ≠ 0 → d < 237 → p.syncAddr ≠ 0 → exec (.sacnDataPacket f p) s = .next (finish s (s.setFlow f { s.flow f with
         sources := (s.flow f).sources.map fun y => if y.is p.cid p.univ then { z' with held := some u } else y })))) ∧
     (∀ (f : Nat) (p : SacnSync), s.ingestEn = true → s.flowType f = 2 → p.rootVec = 8 → p.frameVec = 1 →
       let done (t : State) (z : SacnSrc) : State := match z.held with
         | some u => if z.cid == p.cid && u.syncAddr == p.syncAddr then sacnComplete f z u t else t
         | none => t
       exec (.sacnSyncPacket f p) s = .next (finish s ((s.flow f).sources.foldl done s))) ∧
     (∀ f cid univ,
       let young (z : SacnSrc) : Bool := decide (s.nowNs - z.lastAt < s.actF (A.FLOW_TIMEOUT f) F.FLOW_TIMEOUT_TIMEOUT_MS * 1000000)
       let aged (z : SacnSrc) : SacnSrc := if z.is cid univ then { z with live := z.live && z.last.isSome && young z } else z
       exec (.sacnSourceExpire f cid univ) s =
         .next (finish s (s.setFlow f { s.flow f with sources := (s.flow f).sources.map aged }))) ∧
     (∀ (f : Nat) (p : SacnData), s.ingestEn = true → s.flowType f = 2 → p.rootVec = 8 → p.frameVec = 2 →
       exec (.sacnDataPacket f p) s = .next (finish s s))) ∧
  (∀ s : State, s.runs →
     (∀ (f : Nat) (ws : List Word) (bytes : Nat),
       let t := s.heard f ws
       let body := consoleBody ws bytes
       (s.hears f 1 ws bytes →
         let univ := fget (wordAt ws 4) ⟨31, 16⟩
         let first := fget (wordAt ws 4) ⟨15, 0⟩
         let count := fget (wordAt ws 5) ⟨31, 16⟩
         let vals := ((body.drop 8).take count).take (513 - first)
         let base := (f * 65536 + univ) * 512 + (first - 1)
         let u := if 513 < first + count ∨ body.length < 8 + count then t.flowGuard f 29 0x36 6 else t
         let m := ((List.range vals.length).zip vals).foldl (fun m x => amSet (fun _ => 0) m (base + x.1) x.2.toNat) u.ingest.conVals
         exec (.levels f ws bytes) s = .next (finish s { u with ingest := { u.ingest with conVals := m } })) ∧
       (s.hears f 2 ws bytes →
         (t.actF (A.FLOW_CFG f) F.FLOW_CFG_FLAGS_EN = 1 →
           exec (.flags f ws bytes) s = .next (finish s { t with ingest := { t.ingest with conFlags :=
             t.ingest.conFlags ++ [(wordAt ws 4 ++ wordAt ws 5, wordAt ws 6 ++ wordAt ws 7)] } })) ∧
         (t.actF (A.FLOW_CFG f) F.FLOW_CFG_FLAGS_EN ≠ 1 → exec (.flags f ws bytes) s = .next (finish s (t.flowDiscard f)))) ∧
       (s.hears f 3 ws bytes → fget (wordAt ws 5) ⟨31, 30⟩ = t.actF A.SCHED_TC_CTRL F.SCHED_TC_CTRL_RATE →
         exec (.timecode f ws bytes) s = .next (finish s (t.setFlow f { t.flow f with tc := some (wordAt ws 4) }))) ∧
       (s.hears f 4 ws bytes →
         let at_ := ((s.ingest.userAt.find? fun u => u.1 == f).map (·.2)).getD s.nowNs
         let u := State.heard { s with ingest := { s.ingest with userAt := s.ingest.userAt.eraseP fun u => u.1 == f } } f ws
         exec (.user f ws bytes) s = .next (finish s (queuePacket (u.actF (A.FLOW_CFG f) F.FLOW_CFG_QUEUE) 0xFF 1 0 f
           ((wordBytes ws).take bytes) at_ u)))) ∧
     (s.sched.holding = true → exec .consoleFlagsApply s = .next (finish s { s with
       ingest := { s.ingest with conDue := [] }
       sched := { s.sched with held := s.sched.held ++ s.ingest.conDue.flatMap fun x =>
         [⟨.gaffer, A.SCHED_GCLR_LO, x.2 &&& ~~~x.1⟩, ⟨.gaffer, A.SCHED_GSET_LO, x.1⟩] } })) ∧
     (s.sched.holding = false → exec .consoleFlagsApply s = .next (finish s s)))

/-- Marver's base writer and passes write the parison, once the frame's boundary steps have been taken, and finish the frame when all
its layers are applied; the solver's frame is done when every served cell is written (R177 to R179, R202). The closed loop:
pending gains change over when a frame's solution begins, queued reports are judged one by one in order, and RESET_FIX and
RESET_ALL clear pending gains, RESET_ALL entry by entry (R209 to R212). The model's choices and readings in it: log entries 12 and
36. -/
def Obligations.FramesAreComposedSolvedAndJudged : Prop :=
  (∀ s : State, s.runs →
     (s.sched.holding = false → s.marver.busy = true → s.marver.baseDone = false →
       let t := workEnded s.nowNs (baseWrite none s)
       exec .marverBaseWriterDone s = .next (finish s (marverFinish { t with marver := { t.marver with baseDone := true } }))) ∧
     (let ls := s.unapplied.takeWhile s.layerReady
      s.sched.holding = false → s.marver.busy = true → s.marver.pass = none → ls ≠ [] →
        exec .marverPassStart s = .next (finish s { s with
          marver := { s.marver with pass := some ⟨ls, s.nowNs⟩, passes := s.marver.passes + 1 } })) ∧
     (s.sched.holding = true → exec .marverBaseWriterDone s = .next (finish s (baseWriterDoneOp (frameSteps s))) ∧
       exec .marverPassStart s = .next (finish s (passStartOp (frameSteps s)))) ∧
     (∀ p, s.marver.pass = some p →
       let t := workEnded s.nowNs (engineRead (s.layer (p.layers.headD 0)).base (passWork p (unionCells (p.layers.map s.layer))) s)
       let u := t.add64 A.MARVER_OPS_LO (p.layers.foldl (fun n i => n + (t.layer i).cells) 0)
       let v : State := { u with marver := { u.marver with
         pass := none, applied := u.marver.applied ++ p.layers.map fun i => (i, u.marver.passes - 1) } }
       exec .marverPassEnd s = .next (finish s (marverFinish (marverRelease v)))) ∧
     (let a := loopChangeover s
      a.solver.busy = true →
        let t := solverFin 1 (solveTo 16777216 a)
        let u := (t.wr A.SOLVER_STAT (w32 (t.solver.k * 2 ^ 24))).wr A.SOLVER_FRONTIER (w32 16777216)
        exec .solverFrameDone s = .next (finish s
          ((solverFault (u.wr A.SOLVER_DONE_US (w32 (min 65535 ((s.nowNs - s.solver.start) / 1000))))).raise P.SOLVER 0)))) ∧
  (∀ s : State,
     (s.runs → s.loop.due = true → s.isPartner = false →
       let r := resetSome s
       let es := r.pendEntries r.gainBuf
       let turn (t : State) (a : Nat) : State :=
         let t := t.memW a 16 (leNat (t.memRead (a + 0x10) 16))
         let t := t.memW (a + 0x34) 4 (t.mem32 (a + 0x34) &&& 0xFFFFFFFE)
         t.memW (a + 0x30) 4 t.loop.dueFrame
       let t := es.foldl turn r
       let u : State := { t with loop := { t.loop with due := false } }
       exec .loopGainChangeover s = .next (finish s (loopPending (u.raiseIf (!es.isEmpty) P.CLOOP 0)))) ∧
     (s.runs → s.loop.resetting = none → s.sliceOn P.CLOOP = false →
       let t := loopChangeover s
       ∀ x l, t.loop.queue = x :: l →
         let u : State := { t with loop := { t.loop with queue := l } }
         exec .loopReportJudge s = .next (finish s (loopJudge (t.fallback x.fix).isSome x u))) ∧
     (∀ r : Req, s.obeys r P.CLOOP →
       let a := s.arrive r P.CLOOP
       a.loop.resetting = none →
       (∀ fix m, fix < 2 ^ 18 → a.gainEntry a.gainActive fix = some m →
         exec (.resetFix r fix) s = .next (finish s ((loopPending (resetEntry m a)).reply r .done))) ∧
       (let t : State := { a with loop := { a.loop with resetting := some a.gainActive, resetAt := 0 } }
        exec (.resetAll r) s = .next (finish s
          ((loopPending (resetSome ((t.hold .resetAll a.gainActive).put A.CLOOP_STAT F.CLOOP_STAT_BUSY 1))).reply r .done)))) ∧
     (s.runs → ∀ b, s.loop.resetting = some b →
       let n := s.gainEntries b
       let i := s.loop.resetAt
       let t := (List.range (n - i)).foldl (fun (t : State) j => resetEntry (t.bufBase b + (i + j) * 64) t) s
       let u : State := { t with loop := { t.loop with resetting := none, resetAt := max i n } }
       exec .resetAllDone s = .next (finish s (loopPending ((u.release .resetAll).put A.CLOOP_STAT F.CLOOP_STAT_BUSY 0)))))

/-! ### Scan-out and the Tuiper link -/

/-- An engine frame starts where it is due: that of frame N − 1 of the device under the settings that governed it, or the next one at
the engine's own rate under the settings it fixed; a change of authority that is due comes first, and the last frame of an engine
that its settings stop ends. Its HEAD goes first; its walks begin unless it waits for the partner's (R223, R224, R226, R367, R368,
R378). An accepted write of DIRECT_BASE waits for the next engine frame and drops a base that waits already (R230). The model's
choices and readings in it: log entry 35. -/
def Obligations.EngineFramesStart : Prop :=
  (∀ (s₀ : State) (e : Nat), s₀.runs → e < 8 → let s := roleChange s₀
     s.offline (P.SCAN e) = false →
     let x := s.engine e
     let go (t : State) (f : EngFrame) : State := if f.wait then headFollow t else engineGo e t
     (let num := (s.frameNum + 2 ^ 32 - 1) % 2 ^ 32
      let t := headSend (deviceFrame e num (engineLatch e s))
      x.set = [] → (ownRate s.act e && engOn s.act e) = false → 2 ≤ s.time.bnds → engOn s.prv e = true → ownRate s.prv e = false →
        (∀ f, x.cur = some f → f.num ≠ num) →
        ∀ f, (t.engine e).cur = some f → exec (.engineFrameStart e) s₀ = .next (finish s₀ (go t f))) ∧
     (let a := engineLatch e s
      let rd := amGet resetOf (a.engine e).set
      let t := headSend (ownFrame e a)
      x.cur.isSome = true → x.set ≠ [] → engOn (amGet resetOf x.set) e = true → ownRate (amGet resetOf x.set) e = true →
        engOn rd e = true → ownRate rd e = true →
        ∀ f, (t.engine e).cur = some f → exec (.engineFrameStart e) s₀ = .next (finish s₀ (go t f))) ∧
     (let b := ownFix e (engineLatch e s)
      let a := takeBase e (b.ownNext e).2 b
      let rd := amGet resetOf (a.engine e).set
      let t := headSend (ownFrame e a)
      x.cur = none → ownRate s.act e = true → engOn s.act e = true → engOn rd e = true → ownRate rd e = true →
        ∀ f, (t.engine e).cur = some f → exec (.engineFrameStart e) s₀ = .next (finish s₀ (go t f))) ∧
     (engineStart e s = none → s.curOwn e = true →
       let a := engineLatch e s
       let rd := amGet resetOf (a.engine e).set
       (engOn rd e && ownRate rd e) = false → exec (.engineFrameStart e) s₀ = .next (finish s₀ (lossEnd e a)))) ∧
  (∀ (s : State) (r : Req) (e : Nat) (v : Word), e < 8 → s.obeys r (P.SCAN e) →
     let a := s.arrive r (P.SCAN e)
     let w := v &&& 0x0FFF0FFF
     let x := a.engine e
     judgeWord (checksOf a (A.SCAN_DIRECT_BASE e) w) false w = ⟨some w, []⟩ →
     let t := a.wr (A.SCAN_DIRECT_BASE e) w
     let u := if x.next.isSome then t.inc (A.SCAN_BASE_DROP e) else t
     exec (.directBase r e v) s = .next (finish s
       ((baseHolds e (u.setEngine e { x with next := some (fget w ⟨11, 0⟩, fget w ⟨27, 16⟩) })).reply r .done)))

/-- The points of an engine frame: a walk goes on where the solver has passed its cell, a frame that has waited is flushed after its
CURRENT frame, and the underrun point takes what is available (R226, R228, R264, R266). A link's send end withdraws what has not
begun, counts the fixtures that are late and those that are cut, and ends the link's walk; the latch point takes the underrun
point and every send end that is to come, ends carriage, takes the waiting base, and judges each link's rate (R226, R238, R240,
R267, R270). The model's choices and readings in it: log entries 12, 34 and 35. -/
def Obligations.EngineFramesEnd : Prop :=
  (∀ (s : State) (e : Nat) (f : EngFrame), s.runs → (s.engine e).cur = some f →
     (∀ j c, (s.walk e j).waiting = some c →
       (f.src = some s.solving.frame → s.solver.busy = true →
         exec (.scanWalkResume e j) s = .next (finish s (carriageCheck e (walkRun e j (solverPass (max c (s.walkLead e j c)) s))))) ∧
       (f.src ≠ some s.solving.frame ∨ s.solver.busy = false →
         exec (.scanWalkResume e j) s = .next (finish s (carriageCheck e (walkRun e j s))))) ∧
     (∀ j c o, s.twinOn = false → (s.walk e j).waiting = some c → (s.walk e j).levF = some o →
       exec (.levelFrameFlush e j) s =
         .next (finish s (sendFrame e j 1 o ((closeCur e j s).onWalk e j fun w => { w with levF := none })))) ∧
     (f.urDone = false → f.latched = false →
       let t := s.onFrame e fun f => { f with urDone := true }
       exec (.underrunPoint e) s = .next (finish s (carriageCheck e (f.links.foldl (fun t l => walkRun e l.j t) t))))) ∧
  (∀ (s : State) (e : Nat) (f : EngFrame), s.runs → (s.engine e).cur = some f → f.latched = false →
     (∀ j, (s.walk e j).ended = false → (f.links.any fun l => l.j == j) = true → f.wait = false →
       let r := withdraw e f.num (8 * e + j) s
       let w := r.2.walk e j
       let late := ((r.2.linkFixtures (r.2.curRd e) e j).1.filter fun x => !w.begun.contains x).length
       let begun := r.1.flatMap (fun t => match t.eng with | some x => x.conts | none => []) ++
         (match w.levF with | some o => o.tx.conts | none => []) ++ (match w.fixture with | some x => [x.fix] | none => [])
       let cut := (begun.eraseDups.filter fun x => w.begun.contains x).length
       let t := r.2.onWalk e j fun w => { w with ended := true, waiting := none }
       let u := if late = 0 ∨ (f.mute || w.muted) then t
         else ((t.add (A.SCAN_LATE_FIX e j) ⟨31, 0⟩ late).add (A.SCAN_LATE_CNT e) ⟨31, 0⟩ late).raise (P.SCAN e) 3
       let v := if cut = 0 ∨ (f.mute || w.muted) then u else (u.add A.TUIPER_SPLIT_CUT ⟨31, 0⟩ cut).raise P.TUIPER 2
       exec (.sendEnd e j) s = .next (finish s (carriageCheck e v))) ∧
     (let a := underrunOp e (s.onFrame e fun f => { f with wait := false, mute := f.mute || f.wait })
      let b := (carriageEnd e (f.links.foldl (fun t l => sendEndOp e l.j t) a)).onFrame e fun f => { f with latched := true }
      let t := (List.range 8).foldl (latchLink e f (s.curRd e)) (takeBase e ((f.num + 1) % 2 ^ 32) b)
      exec (.engineLatchPoint e) s = .next (finish s (if s.curOwn e then ownFix e t else t))))

/-- At the next multiple of the SYNC interval, once, a SYNC frame leaves on every fixture link that is up; a DELAY_REQ within the
limits, of a SYNC still known, takes its measurement into the fixture's entry and is answered with both times, and one beyond the
limits is dropped (R275, R345, R346). TX_CMD takes an ENUM or SET request with its data words; the request begins on its link,
before what waits there, or is handed to a link that is down; a read of FAULT_Q takes its oldest fault (R282, R289). The model's
choices and readings in it: log entries 4 and 34. -/
def Obligations.TheLinkKeepsTimeAndAsks : Prop :=
  (∀ s : State, s.runs →
     (let u := reach (s.syncNext * s.syncStep / 2 ^ 32) s
       let n := u.time.t / u.syncStep * u.syncStep
       u.tuiperOn = true → u.time.t < n + u.time.incr → u.time.syncN ≠ some n → exec .tuiperSyncSend s = .next (finish s
         ((List.range 64).foldl (fun t l => if t.linkUp l && t.portOn l then syncLink l t else t)
           { u with time := { u.time with syncN := some n } }))) ∧
     (∀ (l : Nat) (ws : List Word),
       let t := takeRx l s
       let y := dreqAllowed l t
       t.tuiperOn = true → t.injArmed P.TUIPER 4 = false → t.injArmed P.TUIPER 31 = false → msgOk ws 36 = true → tuiperType ws = 9 →
       bodyF ws 0 31 28 = 2 →
       (y.1 = false → exec (.delayReq l ws) s = .next (finish s ((y.2.inc A.TIME_DREQ_DROP).raise P.TIME 2))) ∧
       (y.1 = true → exec (.delayReq l ws) s = .next (finish s (delayAnswer l ws (s.rxAt l) y.2)))) ∧
     (∀ (l : Nat) (ws : List Word) (t1 t4 age : Nat),
       let tseq := bodyF ws 0 15 0
       let fix := bodyF ws 7 17 0
       let d := roundEven ((delaySum ws t1 t4 : Rat) / 2)
       s.syncTime l tseq = some (t1, age) →
       (age ≤ 64 → 0 ≤ d →
         let mpd := d.toNat % 2 ^ 32
         let u := (pathTake fix mpd s).inc A.TIME_DREQ_RX
         let body := [w32 (3 * 2 ^ 28 + tseq)] ++ timeWords t4 ++ timeWords t1 ++ [w32 fix, w32 mpd]
         delayAnswer l ws t4 s = handOver l (plainFrame true (.tuiper l (plainHeader u 9 l 9 ++ body))) u) ∧
       (64 < age ∨ d < 0 →
         let u := (s.inc A.TUIPER_TIME_NEG).inc A.TIME_DREQ_RX
         let body := [w32 (3 * 2 ^ 28 + tseq)] ++ timeWords t4 ++ timeWords t1 ++ [w32 fix, 0]
         delayAnswer l ws t4 s = handOver l (plainFrame true (.tuiper l (plainHeader u 9 l 9 ++ body))) u))) ∧
  (∀ s : State,
     (∀ (r : Req) (v : Word), s.obeys r P.TUIPER →
       let a := s.arrive r P.TUIPER
       let taken (ty : Nat) : Host.Outcome State Fault Refusal :=
         let w := fput v F.TUIPER_TX_CMD_TYPE ty
         let body := (List.range (fget w F.TUIPER_TX_CMD_WORDS)).map fun i => a.rd (A.TUIPER_TX_DATA i)
         .next (finish s (State.reply { a.put A.TUIPER_TX_STAT F.TUIPER_TX_STAT_BUSY 1 with
           tuiper := { a.tuiper with req := some (ty, fget w F.TUIPER_TX_CMD_LINK, body) } } r .done))
       1 ≤ fget v F.TUIPER_TX_CMD_WORDS → fget v F.TUIPER_TX_CMD_WORDS ≤ 256 → a.get A.TUIPER_TX_STAT F.TUIPER_TX_STAT_BUSY = 0 →
       a.tuiperOn = true → exec (.txEnum r v) s = taken 7 ∧ exec (.txSet r v) s = taken 8) ∧
     (s.runs → ∀ ty l body, s.tuiper.req = some (ty, l, body) → s.tuiperOn = true →
       let f : TxFrame := ⟨false, .tuiper l (plainHeader s ty l body.length ++ body), none, false, none, true⟩
       let t : State := { s with tuiper := { s.tuiper with req := none } }
       (t.linkUp l = true → t.portOn l = true →
         exec .txRequestBegun s = .next (finish s (portKick l (t.setPort l { t.port l with pre := f :: (t.port l).pre })))) ∧
       (t.linkUp l = false ∨ t.portOn l = false → exec .txRequestBegun s = .next (finish s (handOver l f t)))) ∧
     (∀ r w ws, s.reaches r P.TUIPER →
       let a := s.arrive r P.TUIPER
       a.viewOf r P.TUIPER ≠ 2 → a.tuiper.faultQ = w :: ws →
       exec (.faultQPop r) s = .next (finish s (State.reply { a with tuiper := { a.tuiper with faultQ := ws } } r (.data w)))))

/-- A TELEMETRY message that passes its checks and is not older than its fixture's last is accepted, and an older one counted; a
fixture whose reports have stopped is lost, which is a fault onset; a REPLY, ACK or NACK is placed in HK_Q (R282, R285 to R289). A
fault onset is queued, or counted where the queue is full, raises the event, and is detected by the enabled set of the fixture
that counts its cause (R289, R292). The model's choices and readings in it: log entries 16 and 34. -/
def Obligations.TelemetryAndFaults : Prop :=
  (∀ s : State, s.runs →
     (∀ (l : Nat) (ws : List Word),
       let t := takeRx l s
       let fix := l % 64 * 4096 + bodyF ws 0 31 20
       t.tuiperOn = true → t.injArmed P.TUIPER 4 = false → t.injArmed P.TUIPER 31 = false → msgOk ws (telNeed ws) = true →
       fget (wordAt ws 0) ⟨16, 16⟩ = 1 → fget (wordAt ws 2) ⟨13, 8⟩ = l → bodyF ws 0 19 16 ≤ 8 →
       (telTemps ws).all finite16 = true → tuiperType ws = 6 →
       let older := match t.supEntry fix with
         | some a => bits (t.mem32 a) 31 31 == 1 && t.mem32 (a + 8) / 65536 == fget (wordAt ws 2) ⟨31, 16⟩
             && !later (wordAt ws 1).toNat (t.mem32 (a + 4))
         | none => false
       let u := if older then t.inc A.TUIPER_TEL_OLD else telAccept l fix ws (s.rxAt l) t
       (u.loop.queue.length < 4096 → exec (.telemetry l ws) s = .next (finish s u)) ∧
       (4096 ≤ u.loop.queue.length → exec (.telemetry l ws) s = .next (finish s (sliceStopOn .service P.CLOOP u)))) ∧
     (∀ fix, fix < 2 ^ 18 →
       let st := s.supState fix
       bits st 30 30 = 0 → (bits st 31 31 = 1 ∧ s.telOld fix = true ∨ bits st 31 31 = 0 ∧ s.setMember fix = true) →
       exec (.telLost fix) s = .next (finish s (faultOnset 3 0 fix (supPut fix (st + 2 ^ 30) s)))) ∧
     (∀ (l : Nat) (ws : List Word),
       let t := takeRx l s
       let op := bodyF ws 0 31 28
       t.tuiperOn = true → t.injArmed P.TUIPER 4 = false → t.injArmed P.TUIPER 31 = false →
       (tuiperType ws = 7 ∧ op = 4 ∧ msgOk ws 32 = true ∨ tuiperType ws = 8 ∧ (op = 3 ∨ op = 4) ∧ msgOk ws 16 = true) →
       let q := t.actF A.TUIPER_QSEL F.TUIPER_QSEL_HK_Q
       let u := queuePacket q 0xFF 2 0 0xFF ((wordBytes ws).take (msgLen ws)) (s.rxAt l) t
       exec (.hkFrame l ws) s =
         .next (finish s (u.raiseIf (decide ((u.queue q).words.length ≠ (t.queue q).words.length)) P.TUIPER 5)))) ∧
  (∀ (s : State) (kind emit fix : Nat),
     let w := w32 (2 ^ 31 + kind * 2 ^ 24 + emit * 2 ^ 21 + fix)
     let t : State := if s.tuiper.faultQ.length < 64 then { s with tuiper := { s.tuiper with faultQ := s.tuiper.faultQ ++ [w] } }
       else (s.add A.TUIPER_FAULT_LOST F.TUIPER_FAULT_LOST_COUNT 1).raise P.TUIPER 1
     let u := t.raise P.TUIPER 0
     (u.setOfFix fix = none → faultOnset kind emit fix s = u) ∧
     (∀ d, u.setOfFix fix = some d → u.setsOn = true → bits (d.words.getD 0 0) (23 + kind) (23 + kind) = 1 →
       faultOnset kind emit fix s = { u with tuiper := { u.tuiper with
         detected := u.tuiper.detected ++ [(d.id, kind, fix, u.frameNum)] } }))

/-- A set's step of a boundary: a detected fault takes it into fallback, health begins its hold and counts it, and a rearmed READY set
is NORMAL again; a full hold ends in READY where the set waits for REARM, and else in NORMAL (R292). FORCE detects a fault of
cause FORCED in an enabled set, REARM lets a READY set return, QUERY reports a set, and each names its result; a set that is not
enabled answers 3, and one that is not READY answers 2 to REARM; a read of TRANS_Q takes its oldest change of state (R292, R295,
R297). -/
def Obligations.FailTogetherSets : Prop :=
  (∀ (s : State) (i : Nat) (d : SetDef), s.runs → (s.tuiper.sets.find? fun d => d.id == i) = some d →
     let n := s.frameNum
     let x := s.setOf i
     let mine := s.tuiper.detected.filter fun y => y.1 == i
     let due := mine.filter fun y => y.2.2.2 != n
     let now := (mine.filter fun y => y.2.2.2 == n).map fun y => y.2.2.1
     let t : State := { s with tuiper := { s.tuiper with
       detected := s.tuiper.detected.filter fun y => !due.contains y,
       rearms := s.tuiper.rearms.filter fun r => r.1 != i || r.2 == n } }
     let u := t.putSet i { x with stepped := some n }
     (s.setsOn = true → x.stepped ≠ some n →
       (x.state ≠ 1 → ∀ y ys, due = y :: ys →
         exec (.setStateChange i) s = .next (finish s (setEnter i y.2.1 (if y.2.1 = 6 then none else some y.2.2.1) u))) ∧
       (x.state ≠ 1 → due = [] → ∀ c f, u.unhealthy d now = some (c, f) →
         exec (.setStateChange i) s = .next (finish s (setEnter i c (some f) u))) ∧
       (x.state = 1 → u.unhealthy d [] = none →
         exec (.setStateChange i) s = .next (finish s (setMove i 2 (u.putSet i { u.setOf i with hold := 1 })))) ∧
       (x.state = 2 → due = [] → u.unhealthy d now = none →
         exec (.setStateChange i) s = .next (finish s (u.putSet i { u.setOf i with hold := min (x.hold + 1) d.restoreHold }))) ∧
       (x.state = 3 → due = [] → u.unhealthy d now = none → (s.tuiper.rearms.any fun r => r.1 == i && r.2 != n) = true →
         exec (.setStateChange i) s = .next (finish s (setMove i 0 u)))) ∧
     (x.state = 2 → x.hold = d.restoreHold →
       exec (.setHoldComplete i) s = .next (finish s (setMove i (if bits (d.words.getD 0 0) 29 29 = 1 then 3 else 0) s)))) ∧
  (∀ (s : State) (r : Req) (i : Nat), i < 4096 → s.obeys r P.SETS →
     let a := s.arrive r P.SETS
     (a.setOn i = true →
       let t : State := { a with tuiper := { a.tuiper with detected := a.tuiper.detected ++ [(i, 6, 0, a.frameNum)] } }
       exec (.force r i) s = .next (finish s ((setsResult r 1 i t).reply r .done)) ∧
       ((a.setOf i).state = 3 →
         let u : State := { a with tuiper := { a.tuiper with rearms :=
           (i, a.frameNum) :: (a.tuiper.rearms.filter fun r => r.1 != i || r.2 != a.frameNum) } }
         exec (.rearm r i) s = .next (finish s ((setsResult r 1 i u).reply r .done))) ∧
       ((a.setOf i).state ≠ 3 → exec (.rearm r i) s = .next (finish s ((setsResult r 2 i a).reply r .done)))) ∧
     (a.setOn i = false →
       exec (.force r i) s = .next (finish s ((setsResult r 3 i a).reply r .done)) ∧
       exec (.rearm r i) s = .next (finish s ((setsResult r 3 i a).reply r .done))) ∧
     exec (.setsQuery r i) s =
       .next (finish s ((setsResult r 1 i (a.wr A.SETS_LAST_FAULT (w32 (a.setOf i).fix))).reply r .done)) ∧
     (∀ w ws, a.viewOf r P.SETS ≠ 2 → a.tuiper.transQ = w :: ws →
       exec (.transQPop r) s = .next (finish s (State.reply { a with tuiper := { a.tuiper with transQ := ws } } r (.data w)))))

/-- A fixture takes a good frame of its link that its sequence accepts and discards others, applies what is complete at its
presentation time and keeps its values else, darkens its duties without frames, and keeps its clock by the SYNCs of the preferred
master and the answers to its DELAY_REQs, of which it sends at most 16 a second (R257, R268 to R271, R276). The model's choices
and readings in it: log entry 17. -/
def Obligations.FixturesFollowTheirFrames : Prop :=
  ∀ s : State,
    let x := s.fixture
    (∀ (ws : List Word) (src : Nat),
      let ty := tuiperType ws
      let count := fget (wordAt ws 7) ⟨31, 16⟩
      let recs := if ty = 1 ∨ ty = 2 then readRecs (ty == 2) count ((ws.take (msgLen ws / 4)).drop 8) else some []
      let good := msgOk ws (recNeed ty count) = true ∧ 1 ≤ ty ∧ ty ≤ 5 ∧ x.assigned = true ∧ msgLink ws = x.link ∧ recs.isSome = true
      let sess := fget (wordAt ws 2) ⟨31, 16⟩
      let seq := (wordAt ws 1).toNat
      let ahead := (seq + 2 ^ 32 - x.high) % 2 ^ 32
      let behind := (x.high + 2 ^ 32 - seq) % 2 ^ 32
      let takes (y : Fixture) := finish s { s with fixture :=
        (let z := if bitOf (wordAt ws 0) 17 then { y with partner := some (src, y.clock) } else { y with home := some src }
         if ty = 5 then z else { z with lastRx := x.clock : Fixture }).takeBody ws (recs.getD []) }
      (good → x.session ≠ some sess → exec (.fixtureFrameAccept ⟨ws, src⟩) s = .next (takes (x.newSession sess seq))) ∧
      (good → x.session = some sess → 1 ≤ ahead → ahead < 2 ^ 31 → exec (.fixtureFrameAccept ⟨ws, src⟩) s =
        .next (takes { x with high := seq, seen := seq :: x.seen.filter fun q => (seq + 2 ^ 32 - q) % 2 ^ 32 ≤ 63 })) ∧
      (good → x.session = some sess → 1 ≤ behind → behind ≤ 63 → x.seen.contains seq = false →
        exec (.fixtureFrameAccept ⟨ws, src⟩) s = .next (takes { x with seen := seq :: x.seen })) ∧
      (x.session = some sess → 63 < behind ∧ 2 ^ 31 ≤ ahead ∨ behind = 0 ∨ x.seen.contains seq = true ∧ behind ≤ 63 →
        exec (.fixtureFrameAccept ⟨ws, src⟩) s = .next (finish s s)) ∧
      (¬ good → exec (.fixtureFrameAccept ⟨ws, src⟩) s = .next (finish s s))) ∧
    (∀ pt,
      let p := x.pendAt pt
      let y : Fixture := { x with clock := max x.clock pt, pend := x.pend.filter fun q => decide (pt < q.pt) }
      (∀ l, x.lastPt = some l → pt ≤ l → exec (.fixtureApply pt) s = .next (finish s { s with fixture := y })) ∧
      ((∀ l, x.lastPt = some l → l < pt) →
        (∀ k, p.strike = some k → covers k.2.1 k.2.2 = true → exec (.fixtureApply pt) s = .next (finish s { s with fixture :=
          { y with cells := putCells x.cells k.2.1 (k.2.2.getD 0), codes := k.1, lastPt := some pt, frame := p.frame } })) ∧
        (∀ k, p.strike = some k → covers k.2.1 k.2.2 = false → exec (.fixtureApply pt) s = .next (finish s { s with fixture := y })) ∧
        (p.strike = none →
          (p.hold = true ∨ x.complete p = false → exec (.fixtureApply pt) s = .next (finish s { s with fixture := y })) ∧
          (p.hold = false → x.complete p = true →
            let z := { y with cells := putCells x.cells p.cells (p.last.getD 0), lastPt := some pt, frame := p.frame }
            (p.cur = none → exec (.fixtureApply pt) s = .next (finish s { s with fixture := z })) ∧
            (∀ c, p.cur = some c →
              exec (.fixtureApply pt) s = .next (finish s { s with fixture := { z with codes := c.2, gen := some c.1 } })))))) ∧
    (x.lossDark ≠ 0 → exec .fixtureLossDark s = .next (finish s { s with fixture := { x with
      clock := max x.clock (x.lastRx + x.lossDark * 1000000)
      cells := x.cells.zipIdx.map fun c => if x.fmts.getD c.2 0 = 0 ∨ x.fmts.getD c.2 0 = 3 then 0 else c.1 } })) ∧
    (x.lossDark = 0 → exec .fixtureLossDark s = .next (finish s s)) ∧
    (∀ (ws : List Word) (src : Nat), msgOk ws 36 = true → tuiperType ws = 9 → bodyF ws 0 31 28 = 1 →
      let others := (x.heard.filter fun h => h.1 != src).map fun h => (h.1, h.2.1, h.2.2 + 1)
      let y := { x with heard := (src, bodyF ws 0 23 16, 0) :: others.filter fun h => decide (h.2.2 ≤ 3) }
      let t1 := (bodyAt ws 1 * 2 ^ 32 + bodyAt ws 2) * 10 ^ 9 + bodyAt ws 3
      (bestMaster y.heard = some src → exec (.fixtureSync ws src) s = .next (finish s
        { s with fixture := { y with sync := some (bodyF ws 0 15 0, t1, x.clock) }.discipline })) ∧
      (bestMaster y.heard ≠ some src → exec (.fixtureSync ws src) s = .next (finish s { s with fixture := y }))) ∧
    (x.assigned = true → ∀ q t1 t2 m, x.sync = some (q, t1, t2) → bestMaster x.heard = some m →
      let n := if x.dreqs.1 = secOf x.clock then x.dreqs.2 else 0
      (n < 16 → exec .fixtureDelayReqSend s = .next (finish s { s with fixture := { x with dreqs := (secOf x.clock, n + 1), out := x.out ++
        [(m, x.header 9 x.link 0 68 ++ [w32 (2 * 2 ^ 28 + q)] ++ timeWords t2 ++ timeWords x.clock ++ [w32 x.fixId, 0])] } })) ∧
      (16 ≤ n → exec .fixtureDelayReqSend s = .next (finish s s))) ∧
    (x.assigned = true → ∀ q t1 t2 ws, x.sync = some (q, t1, t2) → msgOk ws 36 = true → tuiperType ws = 9 → bodyF ws 0 31 28 = 3 →
      bodyF ws 7 17 0 = x.fixId → q = bodyF ws 0 15 0 →
      let off : Int := (t2 : Int) - t1 - bodyAt ws 8
      exec (.fixtureDelayResp ws) s = .next (finish s { s with fixture :=
        { x with mpd := some (bodyAt ws 8), clock := ((x.clock : Int) - off).toNat, sync := some (q, t1, ((t2 : Int) - off).toNat) } }))

/-- A fixture answers DISCOVER where it is not muted and in the range, is muted and unmuted by its UID, writes and reads its
parameters and answers a request to it alone, sends its telemetry and starts anew (R257, R277 to R281, R283, R284). The model's
choices and readings in it: log entries 1 and 17. -/
def Obligations.FixturesAnswerRequests : Prop :=
  ∀ s : State,
    let x := s.fixture
    (∀ (ws : List Word) (src : Nat) (y : Fixture), (x.assigned = true ∧ msgLink ws ≠ x.link ∧ y = x ∨
        (x.assigned = true → msgLink ws = x.link) ∧ ∃ z, x.judge ws = (true, z) ∧ y = z.heardFrom ws src) →
      let t : State := { s with fixture := y }
      let dst := bodyUid ws 1
      let me := y.uid.toNat
      (msgOk ws 20 = true → tuiperType ws = 7 →
        (bodyF ws 0 31 28 = 1 →
          (y.muted = false → dst ≤ me → me ≤ bodyUid ws 3 →
            exec (.discover ⟨ws, src⟩) s = .next (finish s { s with fixture := { y with replies := y.replies ++ [(msgLink ws, src)] } })) ∧
          (y.muted = true ∨ me < dst ∨ bodyUid ws 3 < me → exec (.discover ⟨ws, src⟩) s = .next (finish s t))) ∧
        (bodyF ws 0 31 28 = 2 →
          (dst = me → exec (.mute ⟨ws, src⟩) s = .next (finish s { s with fixture := { y with muted := true } })) ∧
          (dst ≠ me → exec (.mute ⟨ws, src⟩) s = .next (finish s t))) ∧
        (bodyF ws 0 31 28 = 3 →
          (dst = me ∨ dst = 2 ^ 64 - 1 → exec (.unmute ⟨ws, src⟩) s = .next (finish s { s with fixture := { y with muted := false } })) ∧
          (dst ≠ me → dst ≠ 2 ^ 64 - 1 → exec (.unmute ⟨ws, src⟩) s = .next (finish s t)))) ∧
      (msgOk ws 16 = true → tuiperType ws = 8 →
        let param := bodyF ws 0 15 0
        let v := bodyAt ws 3
        (bodyF ws 0 31 28 = 1 →
          (dst ≠ 2 ^ 64 - 1 → dst ≠ me → exec (.setWrite ⟨ws, src⟩) s = .next (finish s t)) ∧
          (∀ z, y.setParam param v (msgLink ws) = .inl z →
            (dst = 2 ^ 64 - 1 → exec (.setWrite ⟨ws, src⟩) s = .next (finish s { s with fixture := z })) ∧
            (dst ≠ 2 ^ 64 - 1 → dst = me → param ≠ 6 → exec (.setWrite ⟨ws, src⟩) s =
              .next (finish s (setAnswer ws src 3 ((z.getParam param 0).getD 0) { s with fixture := z }))) ∧
            (dst ≠ 2 ^ 64 - 1 → dst = me → param = 6 →
              let u := setAnswer ws src 3 v t
              exec (.setWrite ⟨ws, src⟩) s = .next (finish s { u with fixture := { z with out := u.fixture.out } }))) ∧
          (∀ reason, y.setParam param v (msgLink ws) = .inr reason →
            (dst = 2 ^ 64 - 1 → exec (.setWrite ⟨ws, src⟩) s = .next (finish s t)) ∧
            (dst ≠ 2 ^ 64 - 1 → dst = me → exec (.setWrite ⟨ws, src⟩) s = .next (finish s (setAnswer ws src 4 reason t))))) ∧
        (bodyF ws 0 31 28 = 2 →
          let q := t.fresh (2 ^ 32)
          (dst ≠ me → exec (.setReadParam ⟨ws, src⟩) s = .next (finish s t)) ∧
          (dst = me → ∀ k, y.getParam param q.1 = some k → exec (.setReadParam ⟨ws, src⟩) s = .next (finish s (setAnswer ws src 3 k q.2))) ∧
          (dst = me → y.getParam param q.1 = none → exec (.setReadParam ⟨ws, src⟩) s = .next (finish s (setAnswer ws src 4 1 q.2)))))) ∧
    (∀ l src, x.replies[(s.fresh x.replies.length).1]? = some (l, src) →
      let p := s.fresh x.replies.length
      let q := p.2.fresh (2 ^ 32)
      let body := [w32 (4 * 2 ^ 28), w32 (x.uid.toNat / 2 ^ 32), w32 x.uid.toNat, w32 (x.model * 65536), x.fw,
        w32 (x.nEmit * 2 ^ 28 + x.sensor.toNat * 2 ^ 27 + x.sensXyz.toNat * 2 ^ 26 + x.preempt.toNat * 2 ^ 25 +
          x.assigned.toNat * 2 ^ 24 + (if x.assigned then x.fixId else 0)),
        w32 (x.curStep * 65536 + x.ncells), w32 (x.pendMax * 2 ^ 24 + x.rxMax)]
      exec .fixtureReplySend s = .next (finish s { q.2 with fixture :=
        { x with replies := x.replies.eraseIdx p.1, out := x.out ++ [(src, x.header 7 l q.1 64 ++ body)] } })) ∧
    (x.assigned = true →
      let sens := x.sensor && x.sensorEn
      let now := max x.clock ((x.telAt.map fun t => t + 1000000).getD 0)
      let z : Fixture := { x with clock := now }
      let dst (d : Nat) := x.home = some d ∨ ∃ t, x.partner = some (d, t) ∧ now ≤ t + 10 ^ 9
      ((x.home = none ∧ ∀ d t, x.partner = some (d, t) → t + 10 ^ 9 < x.clock) → exec .fixtureTelemetrySend s = .next (finish s s)) ∧
      ((∃ d, x.home = some d ∨ ∃ t, x.partner = some (d, t) ∧ x.clock ≤ t + 10 ^ 9) → ∃ (w : Nat → Nat) (dsts : List Nat) (t : State),
        let body := [w32 (x.index * 2 ^ 20 + x.nEmit * 65536 + sens.toNat * 32768 + x.sensXyz.toNat * 16384 + x.overflow.toNat * 128 + w 0 % 5),
          x.fw, w32 (w 1)] ++ (List.range x.nEmit).map (fun e => w32 (w (2 + e)) &&& 0xCFFFFFFF) ++
          (if sens then x.frame :: (List.range 3).map (fun i => w32 (w (2 + x.nEmit + i))) else [])
        let h := z.header 6 x.link x.telSeq (32 + 4 * body.length)
        let m := (((h.set 3 (w32 (secOf now / 2 ^ 32))).set 4 (w32 (secOf now))).set 5 (w32 (nsOf now))).set 6 x.frame ++ body
        exec .fixtureTelemetrySend s = .next (finish s t) ∧ (∀ d, d ∈ dsts ↔ dst d) ∧
        t.fixture = { z with out := x.out ++ dsts.map fun d => (d, m), telSeq := (x.telSeq + 1) % 2 ^ 32, overflow := false, telAt := some now })) ∧
    exec .fixturePowerUp s = .next (finish s { s with fixture := { x with
      muted := false, session := none, high := 0, seen := [], gen := none, pend := [], lastPt := none, identify := 0,
      cells := x.cells.map fun _ => 0, codes := List.replicate 8 0, frame := 0, overflow := false, heard := [], sync := none,
      mpd := none, replies := [], telSeq := 0, home := none, partner := none, lastRx := x.clock, dreqs := (0, 0), telAt := none } })

/-! ### Ports, queues and DMX -/

/-- A good frame that passes the filter and finds room is counted and delivered; a bad one is counted as such. A datagram that is no
PTP message goes to the first context that matches it: a QUEUE flow's to its queue; one that was cut short is discarded there; one
that no context matches is counted, and queued where DQ_EN is 1 (R137, R302 to R304). A frame that has left its port is counted
and the next begins; a PAUSE hold ends and frames begin again; in XOFF another PAUSE is sent (R305, R306, R308, R309). A link
comes up at a rate that its port allows; a renegotiation that reaches its target counts as a step, and one that does not fails; a
link that goes down discards what waits; the verify handshake tries three times and fails (R298, R301, R310, R317). The model's
choices and readings in it: log entries 16 and 34. -/
def Obligations.PortsCarryFrames : Prop :=
  (∀ (s : State) (p : Nat), s.runs → s.portOn p = true →
     (∀ f : RxFrame, p < 71 → f.kind = .frame → (f.asmErr = false ∨ 64 ≤ p) →
       let t := (s.add64 (A.PORT_RX_FRAMES_LO p) 1).add64 (A.PORT_RX_BYTES_LO p) (f.data.length + 4)
       14 ≤ f.data.length → f.data.length + 4 ≤ t.actF (A.PORT_MAC_CTRL p) F.PORT_MAC_CTRL_MAX_FRAME →
       t.injArmed (P.PORT p) 1 = false → t.injArmed (P.PORT p) 3 = false →
       (f.fcsErr = true ∨ f.alignErr = true ∨ lenError f.data = true → exec (.portFrameReceive p f) s = .next (finish s
         (badFrame p f.data false f.fcsErr f.alignErr (lenError f.data) t))) ∧
       (f.fcsErr = false → f.alignErr = false → lenError f.data = false → t.passesFilter p f.data = false →
         exec (.portFrameReceive p f) s = .next (finish s (t.add64 (A.PORT_RX_FILTERED_LO p) 1))) ∧
       (f.fcsErr = false → f.alignErr = false → lenError f.data = false → t.passesFilter p f.data = true →
         ((t.port p).rxBytes + f.data.length ≤ rxCapacity p →
           exec (.portFrameReceive p f) s = .next (finish s (deliver p f.data t))) ∧
         (rxCapacity p < (t.port p).rxBytes + f.data.length →
           exec (.portFrameReceive p f) s = .next (finish s ((t.add64 (A.PORT_RX_OVF_LO p) 1).raise (P.PORT p) 3))))) ∧
     (∀ d : Datagram, 64 ≤ p → p < 68 ∨ p = 70 → d.dstPort ≠ 319 → d.dstPort ≠ 320 →
       let t := takeRx p s
       t.ingestEn = true →
       (∀ f fs, d.ipv6 = false → (t.flowsLive.filter fun f => t.flowMatches f p d) = f :: fs →
         (d.trunc = true → exec (.flowMatch p d) s = .next (finish s (t.flowDiscard f))) ∧
         (d.trunc = false → t.flowType f = 5 → exec (.flowMatch p d) s = .next (finish s
           (queuePacket (t.actF (A.FLOW_CFG f) F.FLOW_CFG_QUEUE) p 1 0 f d.payload (s.rxAt p) (t.flowUnit f)))) ∧
         (d.trunc = false → t.flowType f = 3 → beAt d.payload 3 1 = 4 → exec (.flowMatch p d) s = .next (finish s
           { t with ingest := { t.ingest with userAt := t.ingest.userAt ++ [(f, s.rxAt p)] } })) ∧
         (d.trunc = false → t.flowType f ≠ 5 → t.flowType f ≠ 3 ∨ beAt d.payload 3 1 ≠ 4 →
           exec (.flowMatch p d) s = .next (finish s t))) ∧
       (d.ipv6 = true ∨ (t.flowsLive.filter fun f => t.flowMatches f p d) = [] →
         let u := (t.inc A.INGEST_UNMATCHED).raise P.INGEST 0
         (t.actF A.INGEST_CTRL F.INGEST_CTRL_DQ_EN = 0 → exec (.flowMatch p d) s = .next (finish s u)) ∧
         (t.actF A.INGEST_CTRL F.INGEST_CTRL_DQ_EN = 1 → exec (.flowMatch p d) s = .next (finish s
           (queuePacket (t.actF A.INGEST_CTRL F.INGEST_CTRL_DEFAULT_Q) p 1 (d.trunc.toNat * 2 ^ 14 + 4) 0xFF d.payload (s.rxAt p) u)))))) ∧
  (∀ (s : State) (p : Nat), s.runs →
     (∀ f, (s.port p).cur = some f → exec (.portFrameSent p) s = .next (finish s (carriageAll (portKick p (frameLeft p f s))))) ∧
     (s.portHeld p = true →
       exec (.pauseHoldEnd p) s = .next (finish s (portKick p (s.put (A.PORT_STAT p) F.PORT_STAT_HELD 0)))) ∧
     (s.get (A.PORT_STAT p) F.PORT_STAT_XOFF = 1 → exec (.xoffPauseRefresh p) s = .next (finish s
       (handOver p (pauseFrame s p (s.actF (A.PORT_PAUSE_CFG p) F.PORT_PAUSE_CFG_QUANTA)) s)))) ∧
  (∀ (s : State) (p : Nat), s.runs →
     (∀ rate adv, p < 71 → s.linkUp p = false → s.rateOk p rate = true → s.portOut p = false →
       let t := s.setPort p { s.port p with partner := adv }
       (64 ≤ p → exec (.linkUp p rate adv) s = .next (finish s (linkIsUp p rate t))) ∧
       (p < 64 → t.inReneg p = false →
         let u := t.put (A.PORT_RATE_STAT p) F.PORT_RATE_STAT_RATE_MAX (t.rateMax p rate)
         exec (.linkUp p rate adv) s = .next (finish s (linkIsUp p rate (rateState p rate u)))) ∧
       (p < 64 → t.inReneg p = true → ∀ g, (t.port p).target = some g →
         (rate = g →
           let up := rate == t.get (A.PORT_RATE_STAT p) F.PORT_RATE_STAT_RATE_MAX
           let u := if up then t.inc (A.PORT_STEP_UP p) else t.inc (A.PORT_STEP_DOWN p)
           exec (.linkUp p rate adv) s = .next (finish s
             ((linkIsUp p rate (rateState p rate (u.setPort p { u.port p with target := none }))).raise (P.PORT p) 8))) ∧
         (rate ≠ g → exec (.linkUp p rate adv) s = .next (finish s (renegFail p t))))) ∧
     (p < 71 → s.linkUp p = true → exec (.linkDown p) s = .next (finish s (linkIsDown p s))) ∧
     (p < 64 → s.get (A.PORT_PREEMPT_STAT p) F.PORT_PREEMPT_STAT_VERIFY = 2 →
       ((s.port p).tries < 3 → exec (.verifyTimeout p) s =
         .next (finish s (s.setPort p { s.port p with tries := (s.port p).tries + 1 }))) ∧
       (3 ≤ (s.port p).tries → exec (.verifyTimeout p) s = .next (finish s (preemptState p 4 s)))) ∧
     (p < 64 → s.inReneg p = true → ∀ g, (s.port p).target = some g →
       exec (.renegTimeout p) s = .next (finish s (renegFail p s))))

/-- The owner of a queue takes its words one by one with their tags, drops the rest of the packet it has begun to take, and flushes
the queue; another requester's read answers 0 and its commands are rejected (R321 to R323). -/
def Obligations.QueuesAnswerTheirOwner : Prop :=
  ∀ (s : State) (r : Req) (q : Nat), q < 16 → s.obeys r (P.Q q) →
    let a := s.arrive r (P.Q q)
    let x := a.queue q
    (a.ownsQueue r q = true →
      (∀ w ws, a.viewOf r (P.Q q) ≠ 2 → x.words = w :: ws →
        let pp := w.bad || (!w.sop && x.poisoned)
        let tag := w32 (2 ^ 31 + w.sop.toNat * 2 ^ 30 + w.eop.toNat * 2 ^ 29 + w.bad.toNat * 2 ^ 28 + pp.toNat * 2 ^ 27)
        let t := (a.setBank (A.Q_TAG q) 0 r tag).setBank (A.Q_DATA_HI q) 0 r (w.w.extractLsb' 32 32)
        let u := if w.bad then (t.inc (A.Q_POISON_CNT q)).raise (P.Q q) 4 else t
        let v := u.setQueue q { x with words := ws, popped := !w.eop, poisoned := pp && !w.eop }
        exec (.dataLoPop r q) s = .next (finish s ((xoffSync v).reply r (.data (w.w.extractLsb' 0 32))))) ∧
      (x.popped = true →
        let ws := (x.words.dropWhile fun w => !w.eop).drop 1
        let t := a.setQueue q { x with words := ws, popped := false, poisoned := false }
        exec (.dropPkt r q) s = .next (finish s ((xoffSync (queueResult q 1 (x.words.length - ws.length) t)).reply r .done))) ∧
      (x.popped = false → exec (.dropPkt r q) s = .next (finish s ((xoffSync (queueResult q 2 0 a)).reply r .done))) ∧
      (let t := a.setQueue q { x with words := [], popped := false, poisoned := false }
       exec (.flush r q) s = .next (finish s ((xoffSync (queueResult q 1 x.words.length t)).reply r .done)))) ∧
    (a.ownsQueue r q = false →
      let t := queueResult q 3 0 (a.guard1 (P.Q q) 31 0xC0 (some 0))
      (a.viewOf r (P.Q q) ≠ 2 → exec (.dataLoPop r q) s = .next (finish s
        ((xoffSync (a.guard1 (P.Q q) 31 0xC0 (some 0))).reply r (.data 0)))) ∧
      exec (.dropPkt r q) s = .next (finish s ((xoffSync t).reply r .done)) ∧
      exec (.flush r q) s = .next (finish s ((xoffSync t).reply r .done)))

/-- An OUTPUT port starts a packet with the slots of the frame that is being presented and ends it; an INPUT port takes a good packet
as its unit and counts the others (R325 to R327). RDM: SEND takes a request for an enabled port, which waits for the packet in
progress; the request ends and a response is awaited, unless it is to all devices; a response is queued whole, or times out
(R328). The model's choices and readings in it: log entries 4 and 21. -/
def Obligations.DmxAndRdmRun : Prop :=
  (∀ (s : State) (n : Nat), s.runs →
     (∀ y, s.dmxOn n 0 = true → (s.dmxPort n).sending = false → s.rdmOn n = false → (s.dmxPort n).latest s.nowNs = some y →
       let k := s.dmxCfg n F.DMX_CFG_SLOTS
       let t := s.setDmx n { s.dmxPort n with sending := true, slots := (List.range k).map fun i => y.2.2.getD i 0 }
       let u := (t.inc (A.DMX_PKTS n)).put (A.DMX_STAT n) F.DMX_STAT_LAST_SLOTS k
       exec (.dmxPacketStart n) s = .next (finish s (u.wr (A.DMX_LAST_FRAME n) (w32 y.1)))) ∧
     ((s.dmxPort n).sending = true →
       let t := s.setDmx n { s.dmxPort n with sending := false }
       (s.net.rdm = none → exec (.dmxPacketEnd n) s = .next (finish s t)) ∧
       (∀ x, s.net.rdm = some x → x.port = n → x.phase = 0 →
         exec (.dmxPacketEnd n) s = .next (finish s { t with net := { t.net with rdm := some { x with phase := 1 } } }))) ∧
     (∀ p : DmxPacket, s.dmxOn n 1 = true → s.injArmed P.DMX 18 = false →
       (p.framingError = true ∨ p.shortBreak = true →
         exec (.dmxInputPacketEnd n p) s = .next (finish s ((s.inc (A.DMX_ERR n)).raise P.DMX 18))) ∧
       (p.framingError = false → p.shortBreak = false → p.startCode ≠ 0 →
         exec (.dmxInputPacketEnd n p) s = .next (finish s (s.inc (A.DMX_ALT_SC n)))) ∧
       (p.framingError = false → p.shortBreak = false → p.startCode = 0 →
         let slots := (p.slots.take 512).map (·.toNat)
         let t := dmxRecord n
           (((s.inc (A.DMX_PKTS n)).put (A.DMX_STAT n) F.DMX_STAT_VALID 1).put (A.DMX_STAT n) F.DMX_STAT_LAST_SLOTS slots.length)
         let u := t.setDmx n { t.dmxPort n with slots := slots, lastUnit := t.nowNs, newUnit := true, polK := none }
         exec (.dmxInputPacketEnd n p) s = .next (finish s (if (t.dmxPort n).timedOut then
           ((dmxResume n u).put (A.DMX_STAT n) F.DMX_STAT_FADING 0).raise P.DMX 16 else u))))) ∧
  (∀ s : State,
     (∀ (r : Req) (v : Word), s.obeys r P.DMX →
       let a := s.arrive r P.DMX
       let n := fget v F.DMX_RDM_CMD_PORT
       let k := fget v F.DMX_RDM_CMD_BYTES
       fget v F.DMX_RDM_CMD_OP = 1 → 24 ≤ k → k ≤ 255 → (a.rdmByte 2).toNat = k → a.dmxOn n 0 = true →
       a.dmxCfg n F.DMX_CFG_RDM_EN = 1 → a.net.rdm = none →
       bitOf (a.rd A.GAFFER_JACK_STAT) (8 + n / 2) = false →
       let phase := if (a.dmxPort n).sending then 0 else 1
       let t : State := { a with net := { a.net with rdm := some ⟨n, rdmWithSum ((List.range k).map a.rdmByte), phase⟩ } }
       exec (.rdmSend r v) s = .next (finish s ((t.wr A.DMX_RDM_STAT (w32 (2 ^ 31))).reply r .done))) ∧
     (s.runs → ∀ x, s.net.rdm = some x →
       (x.phase = 1 → (x.data.drop 3).take 6 = List.replicate 6 0xFF → exec .rdmRequestEnd s = .next (finish s (rdmEnd 3 s))) ∧
       (x.phase = 1 → (x.data.drop 3).take 6 ≠ List.replicate 6 0xFF → exec .rdmRequestEnd s =
         .next (finish s { s with net := { s.net with rdm := some { x with phase := 2 } } })) ∧
       (x.phase = 2 →
         (∀ d collision took, exec (.rdmResponseEnd ⟨d, took⟩ collision) s = .next (finish s
           (rdmEnd 1 (queuePacket (s.dmxCfg x.port F.DMX_CFG_RDM_Q) (80 + x.port) 3 ((!rdmSumOk d).toNat * 2 + collision.toNat) 0xFF d (s.nowNs - took) s)))) ∧
         exec .rdmResponseTimeout s = .next (finish s (rdmEnd 2 s)))))

/-! ### Time -/

/-- CAPTURE copies Krafohel time into NOW; an edge on an enabled CAPc that its EDGE selects is queued with its time, or counted where
16 wait; a read of POP or of TSQ_POP gives up the oldest entry, and answers 0 where none waits (R334, R344, R357). -/
def Obligations.TimesAreCapturedAndTaken : Prop :=
  ∀ s : State,
    (∀ r : Req, s.reaches r P.TIME →
      let a := s.arrive r P.TIME
      let q := (a.port (a.tsqPort r)).tsq
      exec (.timeCapture r) s = .next (finish s ((((a.wr64 A.TIME_NOW_SEC_LO (a.nowNs / 10 ^ 9)).wr A.TIME_NOW_NS
        (w32 (a.nowNs % 10 ^ 9))).wr A.TIME_NOW_FRAC (w32 a.time.t)).reply r .done)) ∧
      (a.viewOf r P.TIME ≠ 2 →
        (q = [] → exec (.tsqPop r) s = .next (finish s (a.reply r (.data 0)))) ∧
        (∀ x xs, q = x :: xs →
          let t := a.setPort (a.tsqPort r) { a.port (a.tsqPort r) with tsq := xs }
          exec (.tsqPop r) s = .next (finish s (((t.wr A.TIME_TSQ_SEC (w32 x.2.1)).wr A.TIME_TSQ_NS (w32 x.2.2)).reply r
            (.data (w32 (2 ^ 31 + x.1 % 65536)))))))) ∧
    (∀ (r : Req) (c : Nat), c < 8 → s.reaches r P.TRIG →
      let a := s.arrive r P.TRIG
      a.viewOf r P.TRIG ≠ 2 →
      (a.capQ c = [] → exec (.capturePop r c) s = .next (finish s (a.reply r (.data 0)))) ∧
      (∀ x xs, a.capQ c = x :: xs →
        let t := (a.setCap c xs).wr64 (A.TRIG_CSEC_LO c) (x.2 / 10 ^ 9)
        exec (.capturePop r c) s = .next (finish s ((t.wr (A.TRIG_CNS c) (w32 (x.2 % 10 ^ 9))).reply r
          (.data (w32 (2 ^ 31 + x.1.toNat * 2 ^ 30))))))) ∧
    (s.runs → ∀ (c : Nat) (rising : Bool), c < 8 → s.actF (A.TRIG_CCFG c) F.TRIG_CCFG_EN ≠ 0 → s.injArmed P.TRIG 31 = false →
      (s.actF (A.TRIG_CCFG c) F.TRIG_CCFG_EDGE = 1 → rising = true) → (s.actF (A.TRIG_CCFG c) F.TRIG_CCFG_EDGE = 2 → rising = false) →
      let e := s.edgeTime (s.actF (A.TRIG_CCFG c) F.TRIG_CCFG_GLITCH_NS) / 2 ^ 32
      ((s.capQ c).length < 16 → exec (.captureEdge c rising) s =
        .next (finish s ((s.setCap c (s.capQ c ++ [(rising, e)])).raise P.TRIG c))) ∧
      (16 ≤ (s.capQ c).length → exec (.captureEdge c rising) s = .next (finish s ((s.inc (A.TRIG_LOST c)).raise P.TRIG 9))))

/-- A domain follows the best master its ports hear: an Announce is counted, wakes a LOST domain, and replaces the parent where the
parent sends it or a better master does; a Sync of the parent, with its Follow_Up where it has one, gives OFS and a sample of the
servo; a Delay_Req, within its interval, and its answer give MPD; a parent that is silent for ANN_TO intervals leaves the domain
LOST, and AUTO gives the authority back to TA after REVERT_S (R336, R337, R339). The model's choices and readings in it: log
entries 21 and 26. -/
def Obligations.DomainsFollowTheirMasters : Prop :=
  ∀ (s : State) (d : Nat), s.runs →
    (∀ m : PtpAnnounce,
      let u := takeRx m.port s
      let t := u.inc (A.PTP_ANN_RX d)
      u.ptpHears d m.port m.domain m.ether = true → t.injArmed P.PTP (1 + d) = false →
      (t.domState d = 4 → exec (.ptpAnnounce d m) s = .next (finish s (domTake d 1 t))) ∧
      (t.domState d ≠ 4 →
        ((t.dom d).parent = none → exec (.ptpAnnounce d m) s = .next (finish s (govSync (chooseParent d m t)))) ∧
        (∀ p, (t.dom d).parent = some p →
          (p.source = m.source → p.port = m.port → exec (.ptpAnnounce d m) s = .next (finish s (govSync (chooseParent d m t)))) ∧
          (better m p = true → exec (.ptpAnnounce d m) s = .next (finish s (govSync (chooseParent d m t)))) ∧
          (p.source ≠ m.source ∨ p.port ≠ m.port → better m p = false → exec (.ptpAnnounce d m) s = .next (finish s t))))) ∧
    (∀ m : PtpSync,
      let t := takeRx m.port s
      let arrival : Int := ((s.rxT m.port / 65536 : Nat) : Int)
      t.ptpHears d m.port m.domain m.ether = true → t.injArmed P.PTP (1 + d) = false →
      (t.domState d = 4 → exec (.ptpSync d m) s = .next (finish s (domTake d 1 t))) ∧
      (t.domState d ≠ 4 → t.fromParent d m.port m.source = true →
        let v := syncHeard d m.interval t
        (m.twoStep = true → exec (.ptpSync d m) s =
          .next (finish s (v.setDom d { v.dom d with pending := some (m.seqId, arrival, m.corr) }))) ∧
        (m.twoStep = false → exec (.ptpSync d m) s =
          .next (finish s (syncUsed d (v.ptpTime m.originSec m.originNs + m.corr) arrival v))))) ∧
    (∀ (m : PtpFollowUp) q arrival corr,
      let t := takeRx m.port s
      (t.dom d).pending = some (q, arrival, corr) → t.ptpHears d m.port m.domain m.ether = true → t.fromParent d m.port m.source = true →
      q = m.seqId → exec (.ptpFollowUp d m) s =
        .next (finish s (syncUsed d (t.ptpTime m.originSec m.originNs + m.corr + corr) arrival t))) ∧
    (∀ p,
      let u := reach (s.dreqDue d) s
      (u.dom d).parent = some p → u.fromParent d p.port p.source = true → u.dreqDue d ≤ u.nowNs →
      let x := u.dom d
      let t := u.setDom d { x with dreq := some (x.dseq, none), dseq := (x.dseq + 1) % 65536, dreqAt := some u.nowNs }
      let body : TxBody := .delayReq p.domain x.dseq p.ether (bitOf (u.act (A.PTP_CFG d)) 28)
      exec (.ptpDelayReqSend d) s =
        .next (finish s (handOver p.port { plainFrame false body with ptp := some (d, x.dseq) } (t.inc (A.PTP_DREQ_TX d))))) ∧
    (∀ (m : PtpDelayResp) q t3 t1 t2,
      let t := takeRx m.port s
      let x := { t.dom d with dreqInt := logNs m.interval }
      t.ptpHears d m.port m.domain m.ether = true → t.fromParent d m.port m.source = true →
      (t.dom d).dreq = some (q, some t3) → (t.dom d).last = some (t1, t2) → q = m.seqId →
      let mpd := roundEven (((t2 - t1 + (t.ptpTime m.rxSec m.rxNs - t3) - m.corr : Int) : Rat) / 2)
      (mpd < 0 → exec (.ptpDelayResp d m) s = .next (finish s (t.setDom d { x with dreq := none }))) ∧
      (0 ≤ mpd →
        let ds := mpd :: x.delays.take 7
        let mean := roundEven (((ds.foldl (· + ·) 0 : Int) : Rat) / ((ds.length * 65536 : Nat)))
        exec (.ptpDelayResp d m) s = .next (finish s ((t.setDom d { x with dreq := none, delays := ds }).wr (A.PTP_MPD d)
          (w32 (min mean.toNat (2 ^ 32 - 1))))))) ∧
    (let t := reach (s.lostDue d) s
     t.domOn d = true → t.domState d = 2 ∨ t.domState d = 3 → t.lostDue d ≤ t.nowNs →
      exec (.ptpDomainLost d) s = .next (finish s (govSync (dropParent d (domTake d 4 t))))) ∧
    (let t := reach s.revertDue s
     t.actF A.PTP_CTRL F.PTP_CTRL_GOV = 2 → t.time.gov = some 1 → t.domValid 0 = true →
      exec .ptpRevert s = .next (finish s (govSync t)))

/-- An edge of GENLOCK_IN counts where it lies within 1/16 period of the prediction, or, unlocked, between the shortest and the
longest period; the flywheel puts an edge in the place of a missing one. An LTC frame that is whole and at TC_CTRL.RATE is a unit,
and the decoder continues a lost one for LTC_FLY units (R350, R353, R354). An armed trigger's pulse starts at the first tick at or
after the time it is due, a ONCE trigger's is its only one, a PERIODIC trigger's next is due a period later, and the pulse lasts
WIDTH (R355, R356). The model's choices and readings in it: log entries 4 and 26. -/
def Obligations.InputsAndTriggersKeepTime : Prop :=
  (∀ s : State, s.runs →
     (s.injArmed P.SYNC 31 = false → s.injArmed P.SYNC 6 = false →
       let e := s.edgeTime (s.actF A.SYNC_GL_CFG F.SYNC_GL_CFG_GL_GLITCH_NS)
       let g := s.time.gl
       (g.edge = none → exec .genlockEdge s = .next (finish s (glAccept e { s with time := { s.time with gl := { g with row := 0 } } }))) ∧
       (∀ p, g.edge = some p →
         (s.glLocked = true →
           let off := ((e : Int) - ((p + s.pAvg : Nat) : Int)).natAbs
           (16 * off ≤ s.pAvg → exec .genlockEdge s = .next (finish s (glAccept e s))) ∧
           (s.pAvg < 16 * off → exec .genlockEdge s = .next (finish s (s.inc A.SYNC_GL_SPUR)))) ∧
         (s.glLocked = false →
           (10 ^ 9 * 2 ^ 32 ≤ (e - p) * 240 → (e - p) * 24000 ≤ 1001 * 10 ^ 9 * 2 ^ 32 →
             exec .genlockEdge s = .next (finish s (glAccept e s))) ∧
           ((e - p) * 240 < 10 ^ 9 * 2 ^ 32 → exec .genlockEdge s =
             .next (finish s ((s.inc A.SYNC_GL_SPUR).setGl { g with row := 0 }))) ∧
           (1001 * 10 ^ 9 * 2 ^ 32 < (e - p) * 24000 → exec .genlockEdge s =
             .next (finish s ((s.inc A.SYNC_GL_SPUR).setGl { g with row := 0, edge := some e, periods := [] })))))) ∧
     (let u := reach (s.glDue.getD 0) s
      u.glLocked = true → u.glDue.getD 0 ≤ u.nowNs → ∀ e, u.time.gl.edge = some e →
       let g := u.time.gl
       let t := ((u.inc A.SYNC_GL_MISS).raise P.SYNC 6).setGl { g with edge := some (e + u.pAvg), misses := g.misses + 1, fly := true, row := 0 }
       (g.misses < 3 → exec .genlockFlywheel s = .next (finish s t)) ∧
       (3 ≤ g.misses → exec .genlockFlywheel s = .next (finish s (t.put A.SYNC_GL_STAT F.SYNC_GL_STAT_LOCKED 0)))) ∧
     (∀ f : LtcFrame, s.actF A.SYNC_LTC_CFG F.SYNC_LTC_CFG_EN ≠ 0 → s.injArmed P.SYNC 31 = false →
       (f.reversed = true → exec (.ltcFrame f) s = .next (finish s (s.inc A.SYNC_LTC_REVERSE))) ∧
       (f.reversed = false →
         (ltcRate f.bitRate f.dropFlag = none → exec (.ltcFrame f) s = .next (finish s (s.inc A.SYNC_LTC_ERR))) ∧
         (∀ rate, ltcRate f.bitRate f.dropFlag = some rate →
           let t := (s.put A.SYNC_LTC_STAT F.SYNC_LTC_STAT_DF f.dropFlag.toNat).put A.SYNC_LTC_STAT F.SYNC_LTC_STAT_RATE rate
           (f.bitError = true ∨ bcdOk f.tc (tcFps rate) = false → exec (.ltcFrame f) s = .next (finish s (s.inc A.SYNC_LTC_ERR))) ∧
           (f.bitError = false → bcdOk f.tc (tcFps rate) = true →
             (rate ≠ t.actF A.SCHED_TC_CTRL ⟨29, 28⟩ → exec (.ltcFrame f) s = .next (finish s (t.inc A.SYNC_LTC_RATE_ERR))) ∧
             (rate = t.actF A.SCHED_TC_CTRL ⟨29, 28⟩ →
               let tc := if t.actF A.SYNC_LTC_CFG F.SYNC_LTC_CFG_ADVANCE = 1 then tcNext f.tc rate else f.tc
               exec (.ltcFrame f) s = .next (finish s (ltcUnit tc 0 (t.wr A.SYNC_LTC_USER f.user)))))))) ∧
     (let u := reach s.ltcFlyDue s
      u.actF A.SYNC_LTC_CFG F.SYNC_LTC_CFG_EN ≠ 0 → u.get A.SYNC_LTC_STAT F.SYNC_LTC_STAT_VALID ≠ 0 → u.ltcFlyDue ≤ u.nowNs →
       (u.time.ltc.fly < u.actF A.SYNC_LTC_CFG F.SYNC_LTC_CFG_LTC_FLY → exec .ltcFlywheel s = .next (finish s
         (ltcUnit (tcNext (u.rd A.SYNC_LTC_VAL) (u.get A.SYNC_LTC_STAT F.SYNC_LTC_STAT_RATE)) (u.time.ltc.fly + 1) u))) ∧
       (u.actF A.SYNC_LTC_CFG F.SYNC_LTC_CFG_LTC_FLY ≤ u.time.ltc.fly → exec .ltcFlywheel s =
         .next (finish s (u.put A.SYNC_LTC_STAT F.SYNC_LTC_STAT_FLYWHEEL 0))))) ∧
  (∀ (s : State) (n : Nat), s.runs →
     (n < 16 →
       let t := reachT (s.trigDue n) s
       let x := t.trig n
       x.armed = true →
       (∀ d ds, x.due = d :: ds → d ≤ t.time.t →
         (t.actF (A.TRIG_TCFG n) F.TRIG_TCFG_MODE = 1 → exec (.triggerPulse n) s = .next (finish s
           (t.setTrig n { x with due := ds, active := some t.time.t, armed := false }))) ∧
         (t.actF (A.TRIG_TCFG n) F.TRIG_TCFG_MODE ≠ 1 → exec (.triggerPulse n) s = .next (finish s
           (t.setTrig n { x with due := ds, active := some t.time.t, armed := true })))) ∧
       (∀ start j, x.due = [] → x.next = some (start, j) → start + j * t.trigPeriod n ≤ t.time.t →
         exec (.triggerPulse n) s = .next (finish s (t.setTrig n { x with next := some (start, j + 1), active := some t.time.t })))) ∧
     (∀ b,
       let t := reachT (s.trigEndDue n) s
       (t.trig n).active = some b → b + t.actF (A.TRIG_WIDTH n) F.TRIG_WIDTH_NS * 2 ^ 32 ≤ t.time.t →
       exec (.triggerPulseEnd n) s = .next (finish s (t.setTrig n { t.trig n with active := none }))))

/-! ### The pair -/

/-- HELLO leaves each millisecond on the punty links that are up; a HELLO shows the peer, ends seeking, settles two home devices for
side A and, from a HOMED device, ends the failover of a partner in MIRROR; a peer not heard for 10 ms is lost, and a partner
without links is due to take authority; seeking in vain for SEEK_MS makes a device the home device (R366, R377 to R379, R381). The
model's choices and readings in it: log entries 4 and 35. -/
def Obligations.TwinsSeekEachOther : Prop :=
  ∀ s : State, s.runs →
    (s.twinOn = true → s.twinSt ≠ 0 →
      let t := reach s.twin.helloAt s
      let u : State := { t with twin := { t.twin with helloAt := t.nowNs + 1000000 } }
      s.twin.helloAt ≤ t.nowNs → exec .helloSend s = .next (finish s
        (u.puntyUp.foldl (fun v k => puntySend k (t.puntyHeader 1 0 (t.pairNum t.frameNum) 0) [] v) u))) ∧
    (∀ (pl : Nat) (ws : List Word),
      let t := takeRx (68 + pl) s
      t.puntyGood pl 1 0 ws 0 →
      let st := fget (wordAt ws 1) ⟨13, 11⟩
      let home := fget (wordAt ws 1) ⟨14, 14⟩ = 0 ∧ (st = 2 ∨ st = 3)
      let u : State := { t.put A.TWIN_STAT F.TWIN_STAT_PEER_SEEN 1 with
        twin := { t.twin with heardAt := max t.twin.heardAt (s.rxAt (68 + pl)) } }
      let w := if t.peerSeen then u else u.raise P.TWIN 0
      let v := if st = 3 ∧ w.twinSt = 5 then twinFault (w.put A.TWIN_STAT F.TWIN_STAT_FAILOVER 0) else w
      (v.twinSt = 1 →
        (home → exec (.hello pl ws) s = .next (finish s (twinEnter 4 v))) ∧
        (st = 1 → v.side = 0 → exec (.hello pl ws) s = .next (finish s (twinEnter 2 v))) ∧
        (¬ home → ¬ (st = 1 ∧ v.side = 0) → exec (.hello pl ws) s = .next (finish s v))) ∧
      (v.twinSt = 2 ∨ v.twinSt = 3 →
        (home → (v.raise P.TWIN 8).side = 1 → exec (.hello pl ws) s = .next (finish s (twinEnter 4 (v.raise P.TWIN 8)))) ∧
        (home → (v.raise P.TWIN 8).side ≠ 1 → exec (.hello pl ws) s = .next (finish s (v.raise P.TWIN 8))) ∧
        (¬ home → exec (.hello pl ws) s = .next (finish s v))) ∧
      (4 ≤ v.twinSt → v.twinSt ≤ 6 → exec (.hello pl ws) s = .next (finish s v))) ∧
    (s.twinOn = true → s.peerSeen = true →
      let w := reach (s.twin.heardAt + 10000000) s
      let t := (w.put A.TWIN_STAT F.TWIN_STAT_PEER_SEEN 0).raise P.TWIN 1
      let u := if t.twinSt = 3 then twinEnter 2 t else t
      s.twin.heardAt + 10000000 ≤ w.nowNs →
      (u.isPartner = true → u.puntyUp = [] → exec .peerLost s = .next (finish s { u with twin := { u.twin with takeover := true } })) ∧
      (u.isPartner = false ∨ u.puntyUp ≠ [] → exec .peerLost s = .next (finish s u))) ∧
    (s.twinOn = true → s.twinSt = 1 →
      let due := s.twin.seekAt + s.actF A.TWIN_WAIT F.TWIN_WAIT_SEEK_MS * 1000000
      due ≤ (reach due s).nowNs → exec .seekTimeout s = .next (finish s (twinEnter 2 (reach due s))))

/-- A HEAD of the engine frame in progress that comes before the wait for it ends is judged by its digests and its boundary, and one
for the next frame is held; one that is missing when HEAD_WAIT_US has passed is counted, and the partner goes on from its own
state, 2^20 sequence numbers on (R367 to R372). The model's choices and readings in it: log entries 4, 18 and 35. -/
def Obligations.PartnersFollowHeads : Prop :=
  ∀ s : State, s.runs →
    (∀ (pl : Nat) (ws : List Word),
      let t := takeRx (68 + pl) s
      t.puntyGood pl 2 808 ws 0 → t.isPartner = true → t.headOld ws = false → t.injArmed P.TWIN 6 = false →
      let b := puntyBody ws
      let bnd : Int := ((b 5 * 2 ^ 32 + b 6) * 10 ^ 9 + b 7 : Nat)
      let tol := t.actF A.TWIN_FAIL F.TWIN_FAIL_BND_TOL_NS
      let next := (bnd - (t.time.boundary : Nat)).natAbs ≤ tol ∧ tol < (bnd - (t.time.prevBoundary : Nat)).natAbs
      let n := t.engFrameNum
      let diff := bnd - (t.time.prevBoundary : Nat)
      let u : State := { t.wr A.TWIN_BND_DIFF (sat32 diff) with twin := { t.twin with miss := 0 } }
      (next → exec (.head pl ws) s =
        .next (finish s { t with twin := { t.twin with nextHead := t.twin.nextHead.or (some ws) } })) ∧
      (¬ next → 2 ≤ t.time.bnds → s.rxAt (68 + pl) ≤ t.headDue → t.twinFrame n = none → ∀ c i, t.digestsOf n = some (c, i) →
        (c = b 1 * 2 ^ 32 + b 2 → i = b 3 * 2 ^ 32 + b 4 → diff.natAbs ≤ tol →
          let v := noteFrame ⟨n, true, none⟩ (setOfs (w32 ((wordAt ws 2).toNat + 2 ^ 32 - n))
            { u with twin := { u.twin with lastHead := some (wordAt ws 2).toNat } })
          (v.twinSt = 5 →
            let w := mergeSeq (fun l => b (10 + l)) (fallbackSync { v with twin := { v.twin with usedHead := some ws } })
            exec (.head pl ws) s = .next (finish s
              (releaseEngines (some (bnd.toNat + b 8)) false (w.put A.TUIPER_SESSION F.TUIPER_SESSION_SESSION (b 9))))) ∧
          (v.twinSt ≠ 5 → exec (.head pl ws) s = .next (finish s (releaseEngines none true v)))) ∧
        (let off := fun reason => finish s (releaseEngines none true (diverge reason (noteFrame ⟨n, false, none⟩ u)))
         (c ≠ b 1 * 2 ^ 32 + b 2 → exec (.head pl ws) s = .next (off 1)) ∧
         (c = b 1 * 2 ^ 32 + b 2 → i ≠ b 3 * 2 ^ 32 + b 4 → exec (.head pl ws) s = .next (off 2)) ∧
         (c = b 1 * 2 ^ 32 + b 2 → i = b 3 * 2 ^ 32 + b 4 → tol < diff.natAbs → exec (.head pl ws) s = .next (off 3))))) ∧
    (let w := reach s.headDue s
     let n := w.engFrameNum
     w.twinOn = true → w.isPartner = true → 2 ≤ w.time.bnds → w.twinFrame n = none → w.headDue ≤ w.nowNs →
      let t := notClean (noteFrame ⟨n, false, none⟩ ((w.inc A.TWIN_HEAD_MISS).raise P.TWIN 6))
      let m := t.twin.miss + 1
      let failed := decide (t.actF A.TWIN_FAIL F.TWIN_FAIL_FAIL_MISS ≤ m)
      let take := match t.twin.take with
        | some (x, _) => if (x + 2 ^ 32 - t.pairNum n) % 2 ^ 32 ≤ 2 then none else t.twin.take
        | none => none
      let u : State := { t with twin := { t.twin with miss := m, takeover := t.twin.takeover || failed, usedHead := none, take := take } }
      (u.twinSt = 5 → exec .headMiss s = .next (finish s (releaseEngines none false
        (fallbackSync ((List.range 64).foldl (fun (t : State) l => t.setSeq l (t.seqOf l + 2 ^ 20)) u))))) ∧
      (u.twinSt ≠ 5 → exec .headMiss s = .next (finish s (releaseEngines none true u))))

/-- The chunks of a record are gathered by their offsets; a record that is missing is counted and calls for a full one; the records
that are complete are applied in step 1, each as a clean frame or as a divergence; an ACK gives the home device the counters of
its partner (R373 to R376). The model's choices and readings in it: log entries 18 and 35. -/
def Obligations.RecordsAndAcksAreTaken : Prop :=
  ∀ s : State, s.runs →
    (∀ (pl : Nat) (ws : List Word) (body : List Byte),
      let t := takeRx (68 + pl) s
      t.puntyGood pl 3 0 ws body.length → t.isPartner = true →
      let n := t.ownNum (wordAt ws 2).toNat
      n = t.engFrameNum ∨ n = t.frameNum → (t.twin.recDone.any fun r => r.1 == n) = false →
      let off := (wordAt ws 3).toNat
      let others := t.twin.recIn.filter fun r => r.1 != n && (r.1 == t.engFrameNum || r.1 == t.frameNum)
      let old := ((t.twin.recIn.find? fun r => r.1 == n).map (·.2)).getD []
      let got := body.zipIdx.foldl (fun m y => amSet (fun _ => 256) m (off + y.2) y.1.toNat) old
      let size := (List.range 4).foldl (fun v k => v * 256 + amGet (fun _ => 256) got (8 + k) % 256) 0
      let known := (List.range 4).all fun k => amGet (fun _ => 256) got (8 + k) != 256
      let whole := known && decide (got.length = size) && ((got.getLast?.map (·.1)) == some (size - 1))
      (whole = false → exec (.recMsg pl ws body) s =
        .next (finish s { t with twin := { t.twin with recIn := others ++ [(n, got)] } })) ∧
      (whole = true → t.injArmed P.TWIN 7 = false →
        let u := ({ t with twin := { t.twin with recIn := others } } : State).wr A.TWIN_REC_SIZE (w32 size)
        let v := u.wr A.TWIN_REC_US (w32 (min 65535 ((t.nowNs - t.time.boundary) / 1000)))
        exec (.recMsg pl ws body) s = .next (finish s
          { v with twin := { v.twin with recDone := v.twin.recDone ++ [(n, got.map fun x => BitVec.ofNat 8 x.2)] } }))) ∧
    (let n := (s.engFrameNum + 2 ^ 32 - 1) % 2 ^ 32
     s.twinOn = true → s.isPartner = true → 3 ≤ s.time.bnds → (s.twin.recDone.any fun r => r.1 == n) = false →
     (∀ f, s.twinFrame n = some f → f.recd = none) →
      let t := ((s.inc A.TWIN_REC_MISS).raise P.TWIN 7).wr A.TWIN_REC_US 65535
      let head := match t.twinFrame n with | some f => f.head | none => false
      let u := notClean (noteFrame ⟨n, head, some false⟩ t)
      exec .recMiss s = .next (finish s { u with twin := { u.twin with
        full := false, nextSeg := some 0, recIn := u.twin.recIn.filter fun r => r.1 != n } })) ∧
    (s.sched.holding = true →
      let t : State := { s with twin := { s.twin with recDone := [] } }
      (s.isPartner = false → exec .recordApply s = .next (finish s t)) ∧
      (s.isPartner = true → exec .recordApply s = .next (finish s (s.twin.recDone.foldl recordTake t)))) ∧
    (∀ (t : State) (n : Nat) (bs : List Byte),
      let be (i k : Nat) : Nat := leNat ((bs.drop i).take k).reverse
      let p := recordParts bs
      let was := t.twin.full
      let seg := be 12 4
      let next := if seg = 0 then some 1 else if t.twin.nextSeg = some seg then some (seg + 1) else some 0
      let full := was || (seg == 7 && next == some 8)
      let u := p.2.2.2.1.foldl (fun t b => applyLoop b t) t
      let old := ((u.twin.copies.find? fun x => x.1 == n).map (·.2)).getD TwinCopy.empty
      let own := if was then old else old.patch p
      let same := decide (({ own with loop := u.twinCopy.loop }).digest.toNat = be 16 8)
      let w := (p.1.foldl (fun t b => applySlot b t) u).setFlags (leNat (p.2.1.take 8).reverse)
      let all := p.2.2.2.2.foldl (fun t b => applyCur b t) (p.2.2.1.foldl (fun t b => match t.blockAddr (leNat (b.take 4).reverse) with
          | some a => t.memWrite a (b.drop 4)
          | none => t) { w with sched := { w.sched with tcFired := leNat (p.2.1.drop 8).reverse } })
      let z := if was && same then u else all
      let x : State := { z with twin := { z.twin with full := full, nextSeg := if full then none else next } }
      let head := match x.twinFrame n with | some f => f.head | none => false
      let clean := full && head && same
      let y := noteFrame ⟨n, head, some (!full || same)⟩ x
      let v := if clean then y.add A.TWIN_STAT F.TWIN_STAT_CLEAN_CNT 1 else notClean y
      (full = true → same = false → recordTake t (n, bs) =
        let w := diverge 4 v
        { w with twin := { w.twin with full := false, nextSeg := some 0 } }) ∧
      (full = false ∨ same = true →
        (v.twinSt = 4 → clean = true → recordTake t (n, bs) = twinEnter 5 v) ∧
        (v.twinSt = 6 → 8 ≤ v.get A.TWIN_STAT F.TWIN_STAT_CLEAN_CNT → recordTake t (n, bs) = twinEnter 5 v) ∧
        ((v.twinSt = 4 → clean = false) → (v.twinSt = 6 → v.get A.TWIN_STAT F.TWIN_STAT_CLEAN_CNT < 8) →
          recordTake t (n, bs) = if clean then takeAuto v else v))) ∧
    (∀ (pl : Nat) (ws : List Word),
      let t := takeRx (68 + pl) s
      t.puntyGood pl 4 264 ws 0 → t.twinSt = 2 ∨ t.twinSt = 3 →
      let n := t.ownNum (wordAt ws 2).toNat
      let rebase := puntyBody ws 65 == 1
      let u : State := { t with twin := { t.twin with
        ack := some ((List.range 64).map (puntyBody ws))
        based := if rebase then t.twin.based else (n + 2 ^ 32 - 1) % 2 ^ 32
        wantRebase := t.twin.wantRebase || (rebase && t.twin.seg.isNone) } }
      let st := fget (wordAt ws 1) ⟨13, 11⟩
      (st = 5 → t.twinSt = 2 → exec (.ack pl ws) s = .next (finish s (twinEnter 3 u))) ∧
      (st = 5 → t.twinSt = 3 → exec (.ack pl ws) s = .next (finish s u)) ∧
      (st ≠ 5 → t.twinSt = 3 → exec (.ack pl ws) s = .next (finish s (twinEnter 2 u))) ∧
      (st ≠ 5 → t.twinSt = 2 → exec (.ack pl ws) s = .next (finish s u)))

/-- Authority changes: a partner that is due takes it; TAKE and YIELD ask for it by a message three frames ahead, the other device
answers, and both change roles at the boundary after the frame named; an answer that names another frame changes nothing; REJOIN
and CLEAR_FAILOVER have their effect in their states; each command is rejected in the others (R378, R380, R381, R384). The model's
choices and readings in it: log entry 35. -/
def Obligations.AuthorityChanges : Prop :=
  ∀ s : State,
    (s.runs → s.twinOn = true → s.isPartner = true → s.twin.takeDue = true →
      let t := ((s.inc A.TWIN_TAKEOVER_CNT).raise P.TWIN 2).put A.TWIN_STAT F.TWIN_STAT_FAILOVER 1
      exec .takeover s = .next (finish s (updateTwin (twinEnter 2 t)))) ∧
    (∀ r : Req, s.obeys r P.TWIN →
      let a := s.arrive r P.TWIN
      let t := (a.pairNum a.frameNum + 3) % 2 ^ 32
      let u : State := { a with twin := { a.twin with take := some (t, false), again := false } }
      let asks := finish s ((u.puntyUp.foldl (fun v k => puntySend k (u.puntyHeader 5 0 (u.pairNum u.frameNum) t) [] v) u).reply r .done)
      let no := finish s ((a.guard1 P.TWIN 31 0x62 (some 2)).reply r .done)
      (a.twinSt = 5 → a.side = 0 → exec (.take r) s = .next asks) ∧
      (a.twinSt ≠ 5 ∨ a.side ≠ 0 → exec (.take r) s = .next no) ∧
      (a.twinSt = 3 → exec (.yieldCmd r) s = .next asks) ∧
      (a.twinSt ≠ 3 → exec (.yieldCmd r) s = .next no) ∧
      (a.twinSt = 6 → exec (.rejoin r) s =
        .next (finish s (({ a with twin := { a.twin with full := false, nextSeg := some 0 } } : State).reply r .done))) ∧
      (a.twinSt ≠ 6 → exec (.rejoin r) s = .next no) ∧
      (a.get A.TWIN_STAT F.TWIN_STAT_FAILOVER = 1 → a.peerSeen = false → exec (.clearFailover r) s =
        .next (finish s ((twinFault (a.put A.TWIN_STAT F.TWIN_STAT_FAILOVER 0)).reply r .done))) ∧
      (a.get A.TWIN_STAT F.TWIN_STAT_FAILOVER ≠ 1 ∨ a.peerSeen = true → exec (.clearFailover r) s = .next no)) ∧
    (s.runs → ∀ (pl : Nat) (ws : List Word),
      let t := takeRx (68 + pl) s
      (t.puntyGood pl 5 0 ws 0 →
        let n := (wordAt ws 3).toNat
        t.twinSt = 5 ∨ ((t.twinSt = 2 ∨ t.twinSt = 3) ∧ fget (wordAt ws 1) ⟨13, 11⟩ = 5) →
        let u : State := { t with twin := { t.twin with take := some (n, true) } }
        exec (.takeMessage pl ws) s = .next (finish s (u.puntyUp.foldl (fun v k => puntySend k (t.puntyHeader 6 0 n 0) [] v) u))) ∧
      (t.puntyGood pl 6 0 ws 0 → ∀ n, t.twin.take = some (n, false) →
        ((wordAt ws 2).toNat = n → exec (.takeOk pl ws) s =
          .next (finish s { t with twin := { t.twin with take := some (n, true) } })) ∧
        ((wordAt ws 2).toNat ≠ n → exec (.takeOk pl ws) s = .next (finish s t)))) ∧
    (s.runs → s.twinOn = true → ∀ n, s.twin.take = some (n, true) → s.pairNum s.frameNum = (n + 1) % 2 ^ 32 →
      let t : State := { s with twin := { s.twin with take := none } }
      let u := (t.inc A.TWIN_TAKEBACK_CNT).raise P.TWIN 3
      (u.isPartner = true → exec .takeback s = .next (finish s (updateTwin (twinEnter 3 u)))) ∧
      (u.isPartner = false →
        let v := twinEnter 5 u
        exec .takeback s = .next (finish s (updateTwin (notClean
          { v with twin := { v.twin with full := true, nextSeg := none, headSent := none, seg := none } })))))

/-! ### Temperature, calibration, self-test and debug -/

/-- A sample, 1 or 10 ms after the one before, that fits its sensor sets its cluster's temperature, demand and the depth D, and two in
a row at the shut-down level shut the die down; one that does not marks the sensor failed; a failed sensor's samples count towards
RESTORE; the rise hold ends a demand in RATE mode; the clocks glide by one step in 10 µs towards D; ACK_FAIL lifts the freeze
(R386, R387, R390, R391, R394 to R396). The model's choices and readings in it: log entries 4 and 25. -/
def Obligations.SensorsThrottleTheClocks : Prop :=
  ∀ s : State,
    (s.runs → ∀ x : SensorReading,
      let n := x.sensor
      let w := reach (s.sampleDue n) s
      n < 24 → w.sampleDue n ≤ w.nowNs → (w.calHeld = some n →
        exec (.sensorSample x) s = .next (finish s (w.setSensor n { w.sensor n with lastAt := some w.nowNs }))) ∧ (w.calHeld ≠ some n →
      let j := judgeSample n x.value w
      let t := match x.value with
        | some v => w.put (A.LEHR_SENSOR n) F.LEHR_SENSOR_READ (wrapN 16 v)
        | none => w
      let u := t.setSensor n { t.sensor n with
        lastAt := some t.nowNs, prev := if x.value.isSome then x.value else (t.sensor n).prev, spread := j.2,
        good := min (if j.1 = 0 then (t.sensor n).good + 1 else 0) 16 }
      (w.failed n = true → (clusterUpdate (n / 3) false u).injArmed P.LEHR 2 = false →
        exec (.sensorSample x) s = .next (finish s (clusterUpdate (n / 3) false u))) ∧
      (w.failed n = false → j.1 ≠ 0 → (sensorFail n j.1 u).injArmed P.LEHR 2 = false →
        exec (.sensorSample x) s = .next (finish s (sensorFail n j.1 u))) ∧
      (w.failed n = false → j.1 = 0 →
        let hot := if u.level F.LEHR_LEVELS_SHUTDOWN ≤ u.reading n then (u.sensor n).hot + 1 else 0
        let v := clusterUpdate (n / 3) false (u.setSensor n { u.sensor n with hot := min hot 2 })
        (hot < 2 → v.injArmed P.LEHR 2 = false → exec (.sensorSample x) s = .next (finish s v)) ∧
        (2 ≤ hot → exec (.sensorSample x) s = .next (finish s (thermalShutdown v)))))) ∧
    (s.runs → ∀ c,
      let w := reach (s.holdDue c) s
      w.rateMode = true → c < 8 → w.holdOver c = true →
      let t := w.put (A.LEHR_CL_STAT c) F.LEHR_CL_STAT_DEMAND (w.leastDemand c)
      exec (.riseHoldExpire c) s = .next (finish s
        (lehrDepth (clusterReport c (fgetS (t.rd (A.LEHR_CL_TEMP c)) F.LEHR_CL_TEMP_TEMP) t)))) ∧
    (s.runs →
      let w := reach (s.lehr.glideAt + 10000) s
      let g := w.lehr.glide
      let at_ := w.nowNs
      (g < w.depth → w.lehr.glideAt + 10000 ≤ at_ → exec .clockGlideStep s = .next (finish s
        { w with lehr := { w.lehr with glide := g + 1, glideAt := at_ } })) ∧
      (w.depth < g → w.lehr.glideAt + 10000 ≤ at_ → exec .clockGlideStep s = .next (finish s
        { w with lehr := { w.lehr with glide := g - 1, glideAt := at_ } })) ∧
      (g = w.depth → exec .clockGlideStep s = .next (finish s w))) ∧
    (∀ r : Req, s.obeys r P.LEHR →
      let a := s.arrive r P.LEHR
      let t := (a.put A.LEHR_STAT F.LEHR_STAT_FROZEN 0).put A.LEHR_STAT F.LEHR_STAT_FLOOR 0
      let u := t.lehr.unacked.foldl (fun v c => clusterUpdate c false v) { t with lehr := { t.lehr with unacked := [] } }
      exec (.ackFail r) s = .next (finish s ((lehrFault (lehrDepth u)).reply r .done)) ∧
      (∀ n, n < 24 →
        (a.failed n = true → 16 ≤ (a.sensor n).good →
          let v := (a.put (A.LEHR_SENSOR n) F.LEHR_SENSOR_FAILED 0).put A.LEHR_FAILED ⟨n, n⟩ 0
          let w := v.put A.LEHR_STAT F.LEHR_STAT_BLIND ((List.range 8).filter v.blind).length
          exec (.restore r n) s = .next (finish s ((clusterUpdate (n / 3) false
            { w with lehr := { w.lehr with unacked := w.lehr.unacked.filter (· != n / 3) } }).reply r .done))) ∧
        (a.failed n = false ∨ (a.sensor n).good < 16 →
          exec (.restore r n) s = .next (finish s ((a.guard1 P.LEHR 31 0x66 (some 2)).reply r .done)))))

/-- SENSORS, TIMEBASE and LANE start a calibration where none runs, LANE of a lane that is off line; its measurement ends it when its
time has passed, and what it found waits until the results of all take effect together at an epoch; a lane's eye is measured each
100 ms with a spare slice (R400 to R405, R407). The model's choices and readings in it: log entries 4, 20 and 25. -/
def Obligations.CalibrationsRunAndApply : Prop :=
  ∀ s : State,
    (∀ r : Req, s.obeys r P.CAL →
      let a := s.arrive r P.CAL
      let b (op lane : Nat) : State := { a.put A.CAL_STAT F.CAL_STAT_BUSY 1 with cal := { a.cal with op := op, lane := lane, startAt := a.nowNs } }
      let no := finish s (((a.put A.CAL_STAT F.CAL_STAT_RESULT 5).guard1 P.CAL 31 0x7C (some 0)).reply r .done)
      (a.get A.CAL_STAT F.CAL_STAT_BUSY = 0 →
        exec (.calSensors r) s = .next (finish s ((b 1 0).reply r .done)) ∧
        exec (.calTimebase r) s = .next (finish s ((b 2 0).reply r .done)) ∧
        (∀ l, l < 70 →
          (a.offline (P.LANE l) = true → exec (.calLane r l) s = .next (finish s ((b 3 l).reply r .done))) ∧
          (a.offline (P.LANE l) = false → exec (.calLane r l) s = .next no))) ∧
      (a.get A.CAL_STAT F.CAL_STAT_BUSY = 1 →
        exec (.calSensors r) s = .next no ∧ exec (.calTimebase r) s = .next no ∧ ∀ l, l < 70 → exec (.calLane r l) s = .next no)) ∧
    (s.runs → s.get A.CAL_STAT F.CAL_STAT_BUSY = 1 → ∀ m : CalMeasure,
      let w := if s.stage = 1 then s else reach (s.calDue m) s
      s.stage = 1 ∨ w.calDue m ≤ w.nowNs →
      let c := calApplyOp w
      let ends (t : State) := exec (.calComplete m) s = .next (finish s (if s.stage = 1 then startCalNext t else t))
      (c.cal.op = 1 →
        let t := c.put A.CAL_EXTREF_UV F.CAL_EXTREF_UV_UV m.extrefUv
        (m.extrefUv < 1243750 ∨ 1256250 < m.extrefUv → ends (calEnd 2 false t)) ∧
        (1243750 ≤ m.extrefUv → m.extrefUv ≤ 1256250 →
          let ok := (m.residuals.take 24).zipIdx.filter fun x => decide (x.1.natAbs ≤ t.actF A.CAL_RES_LIMIT F.CAL_RES_LIMIT_MC)
          let u := ok.foldl (fun (t : State) x => { t.put (A.CAL_SENS_RES x.2) F.CAL_SENS_RES_PENDING (wrapN 16 x.1) with
            cal := { t.cal with sens := amSet (fun _ => 0) t.cal.sens x.2 x.1 } }) t
          ends (calEnd (if ok.length = 24 then 1 else 3) (!ok.isEmpty) u))) ∧
      (c.cal.op = 2 →
        (m.refPresent = false ∨ 200 < m.refOffPpm → ends (calEnd 2 false c)) ∧
        (m.refPresent = true → m.refOffPpm ≤ 200 →
          let t := c.wr A.CAL_TB_PPB (w32 (wrapN 32 m.tbPpb))
          ends (calEnd 1 true { t with cal := { t.cal with tb := some m.tbPpb } }))) ∧
      (c.cal.op = 3 → ends (laneDone m c))) ∧
    (s.runs → s.cal.due = true →
      let t := s.cal.sens.foldl (fun t x => t.wr (A.CAL_SENS_RES x.1) (w32 (wrapN 16 x.2))) s
      let u : State := { t with cal := { t.cal with tbForce := t.cal.tb.getD t.cal.tbForce } }
      let v := u.cal.sel.foldl (fun t x => laneApply x t) u
      let w := calTrim { v with cal := { v.cal with sens := [], tb := none, sel := [], due := false } }
      let z := w.put A.CAL_STAT F.CAL_STAT_PENDING 0
      exec .calResultsApply s = .next (finish s ((z.wr A.CAL_CAL_FRAME (w32 w.frameNum)).raise P.CAL 1))) ∧
    (s.runs → ∀ l w h, l < 70 →
      let x := reach (s.eyeDue l) s
      x.actF (A.LANE_CTRL l) F.LANE_CTRL_EYE_EN ≠ 0 → x.offline (P.LANE l) = false → x.eyeDue l ≤ x.nowNs →
      (x.get (A.LANE_STAT l) F.LANE_STAT_SPARE_SLICES = 0 →
        exec (.eyeMeasure l w h) s = .next (finish s (x.put (A.LANE_EYE l) F.LANE_EYE_VALID 0))) ∧
      (x.get (A.LANE_STAT l) F.LANE_STAT_SPARE_SLICES ≠ 0 → x.injArmed (P.LANE l) 0 = false →
        let t := (eyeStamp l x).wr (A.LANE_EYE l) (w32 (2 ^ 31 + h % 1024 * 65536 + w % 128))
        let low := w < t.actF (A.LANE_EYE_MIN l) F.LANE_EYE_MIN_W ∨ h < t.actF (A.LANE_EYE_MIN l) F.LANE_EYE_MIN_H_MV
        (low → exec (.eyeMeasure l w h) s = .next (finish s (t.raise (P.LANE l) 0))) ∧
        (¬ low → exec (.eyeMeasure l w h) s = .next (finish s t))))

/-- A slice starts on the lowest waiting page whose block may be tested, and ends with its result: FAIL, PASS, short, or ABORTED where
its budget ran out; it counts, sets its events, and its block takes its repairs (R435, R436, R438 to R441, R444). The model's
choices and readings in it: log entries 4 and 20. -/
def Obligations.SlicesRunAndEnd : Prop :=
  ∀ s : State, s.runs →
    (s.dbg.slice = none → s.get A.GLORY_CTRL F.GLORY_CTRL_EN ≠ 0 →
      ∀ p, (allPages.find? fun p => bitOf (s.rd (H.ST_CTRL p)) 0 && s.testable p) = some p → s.injArmed P.GLORY 1 = false →
      let test := s.get (H.ST_CTRL p) ⟨15, 8⟩
      let t := ((s.put (H.ST_CTRL p) ⟨0, 0⟩ 0).put (H.PAGE_STAT p) ⟨30, 30⟩ 1).put (H.ST_STAT p) ⟨2, 0⟩ 1
      let u := t.wr A.GLORY_STAT (w32 (2 ^ 31 + p * 65536 + test))
      let due := u.nowNs + u.get A.GLORY_CTRL F.GLORY_CTRL_BUDGET_US * 1000
      exec .sliceStart s = .next (finish s { u with dbg := { u.dbg with slice := some ⟨due, p, test, isWindow p, false⟩ } })) ∧
    (∀ (x : Slice) (m : SliceMeasure), s.dbg.slice = some x →
      let golden := if x.inv then ~~~ m.golden else m.golden
      let ends (why res : Nat) : Prop :=
        let b := if why = 0 then s else reach s.sliceDue s
        let t : State := { b with dbg := { b.dbg with slice := none } }
        let t := (t.wr A.GLORY_LAST (w32 (x.page * 65536 + res * 256 + x.test))).wr A.GLORY_STAT 0
        let t := (t.wr A.GLORY_LAST_PATTERNS (w32 (m.total % 65536 * 65536 + m.done % 65536))).wr64 A.GLORY_MISR_LO m.sig.toNat
        let t := if x.test / 64 = 2 then
            let t := t.put A.GLORY_FAIL_MEM F.GLORY_FAIL_MEM_COUNT (min m.mismatches 65535)
            if m.mismatches = 0 then t
            else ((t.put A.GLORY_FAIL_MEM F.GLORY_FAIL_MEM_MEM m.mem).put A.GLORY_FAIL_MEM F.GLORY_FAIL_MEM_BIT m.bit).put
              A.GLORY_FAIL_ADDR F.GLORY_FAIL_ADDR_ADDR m.addr
          else t
        let t := t.inc A.GLORY_SLICE_CNT
        let t := if res = 3 then t.inc A.GLORY_FAIL_CNT else if res = 5 then t.inc A.GLORY_ABORT_CNT
          else if res = 4 then t.inc A.GLORY_INCOMPLETE_CNT else t
        let t := t.raise P.GLORY 0
        let t := if res = 3 then t.raise P.GLORY 1 else if res = 5 then t.raise P.GLORY 2 else t
        let t := repairsApply x.page (if x.window then t else faultSync x.page (blockWork x.page t))
        let t := (t.put (H.PAGE_STAT x.page) ⟨30, 30⟩ 0).put (H.ST_STAT x.page) ⟨2, 0⟩ res
        let t := t.put (H.ST_STAT x.page) ⟨31, 16⟩ (t.get (H.ST_STAT x.page) ⟨31, 16⟩ + 1)
        (why = 1 → s.sliceDue ≤ b.nowNs) →
          exec (if why = 0 then .sliceEnd m else .sliceBudgetExpire m) s = .next (finish s (t.raise x.page 29))
      (x.test / 64 = 2 → m.mismatches ≠ 0 → ∀ why, why < 2 → ends why 3) ∧
      (x.test / 64 ≠ 2 ∨ m.mismatches = 0 →
        (m.done < m.total → ends 0 4 ∧ ends 1 5) ∧
        (m.total ≤ m.done →
          (x.test / 64 = 2 ∨ m.sig = golden → ∀ why, why < 2 → ends why 2) ∧
          (x.test / 64 ≠ 2 → m.sig ≠ golden → ∀ why, why < 2 → ends why 3))))

/-- ROW and COLUMN take a spare of a memory of an off-line page, FUSE makes its repairs lasting, each but where it may not; ADVANCE,
REVOKE and SEC_BUMP begin to burn their fuses where their key and their conditions are met and are rejected elsewhere; the fuses
burn where the supply held (R444, R445, R447, R472). The model's choices and readings in it: log entries 1 and 33. -/
def Obligations.RepairsAndFusesAreMade : Prop :=
  ∀ s : State,
    (∀ (r : Req) (p mem : Nat), p < 4096 → mem < 256 → s.obeys r P.GLORY →
      let a := s.arrive r P.GLORY
      let may := (blkOf p).isSome = true ∧ mem < memCount p ∧ a.offline p = true ∧ a.sliceOn p = false ∧ a.life ≠ 0 ∧ a.life ≠ 4
      let no := finish s ((repairResult 3 p mem (a.guard1 P.GLORY 31 0x69 (some 1))).reply r .done)
      let takes (c : Instr) (column : Bool) : Prop :=
        ((a.repairsOf p mem column).length < 2 →
          let n : Repair := ⟨p, mem, column, a.get A.GLORY_REPAIR_IDX F.GLORY_REPAIR_IDX_IDX, false, false⟩
          exec c s = .next (finish s ((repairResult 1 p mem
            { a with dbg := { a.dbg with repairs := a.dbg.repairs ++ [n] } }).reply r .done))) ∧
        (2 ≤ (a.repairsOf p mem column).length → exec c s = .next (finish s ((repairResult 2 p mem a).reply r .done)))
      (may → takes (.row r p mem) false ∧ takes (.column r p mem) true ∧
        (a.life = 1 → exec (.fuse r p mem) s = .next (finish s ((repairResult 1 p mem { a with dbg := { a.dbg with
          repairs := a.dbg.repairs.map fun x => if x.page = p ∧ x.mem = mem then { x with fused := true } else x } }).reply r .done))) ∧
        (a.life ≠ 1 → exec (.fuse r p mem) s = .next no)) ∧
      (¬ may → exec (.row r p mem) s = .next no ∧ exec (.column r p mem) s = .next no ∧ exec (.fuse r p mem) s = .next no)) ∧
    (∀ (r : Req) (v : Word), s.obeys r P.LIFE →
      let a := s.arrive r P.LIFE
      let begins (op : FuseOp) := finish s
        (({ a.wr A.LIFE_FUSE_STAT (w32 (2 ^ 31)) with dbg := { a.dbg with fuse := some op } } : State).reply r .done)
      let no := finish s (((a.put A.LIFE_FUSE_STAT F.LIFE_FUSE_STAT_RESULT 2).guard1 P.LIFE 31 0x6A (some 0)).reply r .done)
      let free := a.dbg.fuse = none
      let t := fget v F.LIFE_ADVANCE_TARGET
      let now := a.get A.LIFE_STATE F.LIFE_STATE_NEXT
      let k := fget v F.LIFE_REVOKE_SLOT
      let next := a.get A.LIFE_MIN_SEC_VER F.LIFE_MIN_SEC_VER_MIN + 1
      let advance := fget v F.LIFE_ADVANCE_KEY = 0x6C1E ∧ free ∧ ((t = now + 1 ∧ t ≤ 4) ∨ (now = 2 ∧ t = 4))
      let revoke := fget v F.LIFE_REVOKE_KEY = 0x6C1E ∧ free ∧ (a.life = 0 → k = 0) ∧ a.life ≠ 4 ∧
        ¬ (a.gaffer.started = true ∧ a.gaffer.image.keySlot = k)
      let bump := fget v F.LIFE_SEC_BUMP_KEY = 0x6C1E ∧ free ∧ a.life ≠ 4 ∧ a.gaffer.started = true ∧
        next ≤ a.gaffer.image.secVer ∧ next ≤ 64
      (advance → exec (.advance r v) s = .next (begins (.advance t))) ∧ (¬ advance → exec (.advance r v) s = .next no) ∧
      (revoke → exec (.revoke r v) s = .next (begins (.revoke k))) ∧ (¬ revoke → exec (.revoke r v) s = .next no) ∧
      (bump → exec (.secBump r v) s = .next (begins .secBump)) ∧ (¬ bump → exec (.secBump r v) s = .next no)) ∧
    (s.runs → s.power.rstWait = false → ∀ op, s.dbg.fuse = some op →
      let t : State := { s with dbg := { s.dbg with fuse := none } }
      let burnt := match op with
        | .advance k => t.put A.LIFE_STATE F.LIFE_STATE_NEXT k
        | .revoke k => t.put A.LIFE_KEYS ⟨4 + k, 4 + k⟩ 1
        | .secBump => t.add A.LIFE_MIN_SEC_VER F.LIFE_MIN_SEC_VER_MIN 1
      exec (.fuseDone true) s = .next (finish s ((burnt.wr A.LIFE_FUSE_STAT (w32 (2 ^ 28))).raise P.LIFE 0)) ∧
      exec (.fuseDone false) s = .next (finish s ((t.wr A.LIFE_FUSE_STAT (w32 (3 * 2 ^ 28))).raise P.LIFE 0)))

/-- A freeze begins from DEBUG.FREEZE with its key, from FRZ_N, or from the TAP, where the life-cycle state allows it; while it lasts
the domains stop one by one and overheating trips the die. The TAP shifts the boundary, the identity, a bypass bit and, frozen,
the dump chains (R448 to R453). -/
def Obligations.FreezeAndTestPort : Prop :=
  ∀ s : State,
    (let frozen (t : State) (src : Nat) : State := { t with
        power := { t.power with mode := .frozen }
        dbg := { t.dbg with freezeSrc := src, forced := 0, forcedLnk := 0, forcedShow := 0, stoppedDomains := [] } }
     (∀ (r : Req) (v : Word), s.obeys r P.DEBUG →
        let a := s.arrive r P.DEBUG
        let may := a.life = 1 ∨ a.life = 2 ∨ a.life = 4
        (fget v F.DEBUG_FREEZE_KEY = 0x7A5C → fget v F.DEBUG_FREEZE_GO = 1 → may →
          exec (.debugFreeze r v) s = .next (finish s ((frozen a 2).reply r .done))) ∧
        (fget v F.DEBUG_FREEZE_KEY = 0x7A5C → fget v F.DEBUG_FREEZE_GO = 0 → may →
          exec (.debugFreeze r v) s = .next (finish s (a.reply r .done))) ∧
        (fget v F.DEBUG_FREEZE_KEY ≠ 0x7A5C ∨ ¬ may →
          exec (.debugFreeze r v) s = .next (finish s ((a.guard1 P.DEBUG 31 0x6C (some 0)).reply r .done)))) ∧
     (s.runs → s.injArmed P.DEBUG 31 = false → exec .frzN s = .next (finish s (frozen s 1))) ∧
     (let t : State := { s with dbg := { s.dbg with tapOut := [], pinsDriven := none } }
      (s.runs → s.life = 1 ∨ s.life = 2 ∨ s.life = 4 → exec .tapFreeze s = .next (finish s (frozen t 3))) ∧
      (¬ s.runs ∨ s.life = 0 ∨ s.life = 3 → exec .tapFreeze s = .next (finish s t)))) ∧
    (s.power.mode = .frozen → ∀ k sub, k < 9 →
      let d : Debug := { s.dbg with stoppedDomains :=
        if s.dbg.stoppedDomains.contains (k, sub) then s.dbg.stoppedDomains else s.dbg.stoppedDomains ++ [(k, sub)] }
      let e : Debug := { d with forced := d.forced ||| 2 ^ k }
      let g : Debug := if k = 7 then { e with forcedLnk := e.forcedLnk ||| (1 <<< (sub % 64)) }
        else if k = 8 then { e with forcedShow := e.forcedShow ||| 2 ^ (sub % 4) } else e
      exec (.freezeClockStop k sub false) s = .next (finish s { s with dbg := d }) ∧
      exec (.freezeClockStop k sub true) s = .next (finish s { s with dbg := g })) ∧
    (s.power.mode = .frozen → exec .freezeOvertemp s = .next (finish s { s with power := { s.power with thermtrip := true } })) ∧
    (let out (ws : List Word) : State := { s with dbg := { s.dbg with tapOut := ws, pinsDriven := none } }
     (∀ pins,
       (s.power.rstLow = true ∨ s.power.mode = .frozen → exec (.extest pins) s = .next (finish s { s with
         dbg := { s.dbg with tapOut := s.dbg.boundary.map w32, boundary := pins, pinsDriven := some pins } })) ∧
       (s.power.rstLow = false → s.power.mode ≠ .frozen → exec (.extest pins) s = .next (finish s (out [0]))) ∧
       exec (.samplePreload pins) s = .next (finish s { s with
         dbg := { s.dbg with tapOut := s.dbg.boundary.map w32, boundary := pins, pinsDriven := none } })) ∧
     exec .idcode s = .next (finish s (out [0xB4096 * 0x1000 + 0x4C7 * 2 + 1])) ∧
     (∀ code, exec (.bypass code) s = .next (finish s (out [0]))) ∧
     (∀ k, exec (.dumpSel k) s = .next (finish s { s with
       dbg := { s.dbg with tapOut := [], pinsDriven := none, tapChain := k % 65536 } })) ∧
     (s.power.mode = .frozen → s.life = 1 ∨ s.life = 2 ∨ s.life = 4 → s.dbg.tapChain = 0 →
       exec .dumpScan s = .next (finish s (out s.dumpDirectory))) ∧
     (s.power.mode ≠ .frozen ∨ s.life = 0 ∨ s.life = 3 → exec .dumpScan s = .next (finish s (out [0]))))
end

