-- ==== Sys2Proof/Laws/Map.lean ====
section
/-!
SUPPORT. The laws of the sorted maps: read after write, and that every operation keeps the canonical form, so that equal maps are
equal data.
-/
namespace Sys2Proof.Machine

variable {α : Type} [DecidableEq α] (d : Nat → α)

omit [DecidableEq α] in
theorem amGet_del_same (m : AMap α) (k : Nat) : amGet d (amDel m k) k = d k := by
  induction m with
  | nil => rfl
  | cons x m ih =>
    obtain ⟨j, w⟩ := x
    by_cases h : k = j <;> simp [amDel, amGet, h] <;> simpa [h] using ih

omit [DecidableEq α] in
theorem amGet_del_ne (m : AMap α) {k k' : Nat} (h : k' ≠ k) : amGet d (amDel m k) k' = amGet d m k' := by
  induction m with
  | nil => rfl
  | cons x m ih =>
    obtain ⟨j, w⟩ := x
    by_cases hj : k = j
    · subst hj; simp [amDel, amGet, ih, h]
    · by_cases hk : k' = j <;> simp [amDel, amGet, hj, hk, ih]

omit [DecidableEq α] in
theorem amGet_ins (m : AMap α) (k k' : Nat) (v : α) :
    amGet d (amIns (amDel m k) k v) k' = if k' = k then v else amGet d (amDel m k) k' := by
  induction m with
  | nil => simp [amDel, amIns, amGet]
  | cons x m ih =>
    obtain ⟨j, w⟩ := x
    by_cases hj : k = j
    · simpa [amDel, hj] using ih
    · by_cases hlt : k < j
      · simp [amDel, hj, amIns, hlt, amGet]
      · by_cases hk : k' = j
        · have : k' ≠ k := fun e => hj (e ▸ hk)
          have hjk : ¬ j = k := fun e => hj e.symm
          simp [amDel, hj, amIns, hlt, amGet, hk, hjk]
        · simp [amDel, hj, amIns, hlt, amGet, hk, ih]

/-- Reading a map after a write. -/
theorem amGet_set (m : AMap α) (k k' : Nat) (v : α) :
    amGet d (amSet d m k v) k' = if k' = k then v else amGet d m k' := by
  by_cases hv : v = d k
  · by_cases hk : k' = k
    · simp [amSet, hv, hk, amGet_del_same]
    · simp [amSet, hv, hk, amGet_del_ne d m hk]
  · by_cases hk : k' = k
    · simp [amSet, hv, amGet_ins, hk]
    · simp [amSet, hv, amGet_ins, hk, amGet_del_ne d m hk]

@[simp] theorem amGet_set_same (m : AMap α) (k : Nat) (v : α) : amGet d (amSet d m k v) k = v := by simp [amGet_set]

theorem amGet_set_ne (m : AMap α) {k k' : Nat} (v : α) (h : k' ≠ k) : amGet d (amSet d m k v) k' = amGet d m k' := by
  simp [amGet_set, h]

/-! ### The canonical form -/

theorem amWfFrom_mono {lo lo' : Nat} (h : lo' ≤ lo) : ∀ m : AMap α, amWfFrom d lo m = true → amWfFrom d lo' m = true
  | [], _ => rfl
  | (j, v) :: m, hm => by
    simp only [amWfFrom, Bool.and_eq_true, decide_eq_true_eq] at hm ⊢
    exact ⟨⟨by omega, hm.1.2⟩, hm.2⟩

theorem amWfFrom_del (k : Nat) : ∀ (m : AMap α) (lo : Nat), amWfFrom d lo m = true → amWfFrom d lo (amDel m k) = true
  | [], _, _ => rfl
  | (j, v) :: m, lo, hm => by
    simp only [amWfFrom, Bool.and_eq_true, decide_eq_true_eq] at hm
    by_cases h : k = j
    · have := amWfFrom_del k m (j + 1) hm.2
      simp only [amDel, h, if_true]
      exact amWfFrom_mono d (by omega) _ (h ▸ this)
    · simp only [amDel, h, if_false, amWfFrom, Bool.and_eq_true, decide_eq_true_eq]
      exact ⟨hm.1, amWfFrom_del k m (j + 1) hm.2⟩

theorem amWfFrom_ins (k : Nat) (v : α) (hv : v ≠ d k) : ∀ (m : AMap α) (lo : Nat), lo ≤ k → amWfFrom d lo m = true →
    amWfFrom d lo (amIns (amDel m k) k v) = true
  | [], lo, hk, _ => by simp [amDel, amIns, amWfFrom, hk, hv]
  | (j, w) :: m, lo, hk, hm => by
    have hm' := hm
    simp only [amWfFrom, Bool.and_eq_true, decide_eq_true_eq] at hm
    by_cases h : k = j
    · have := amWfFrom_ins k v hv m lo hk (amWfFrom_mono d (by omega) _ hm.2)
      simpa [amDel, h] using this
    · by_cases hlt : k < j
      · have hd := amWfFrom_del d k ((j, w) :: m) lo hm'
        simp only [amDel, h, if_false] at hd ⊢
        simp only [amIns, hlt, if_true, amWfFrom, Bool.and_eq_true, decide_eq_true_eq] at hd ⊢
        exact ⟨⟨hk, hv⟩, ⟨by omega, hd.1.2⟩, hd.2⟩
      · simp only [amDel, h, if_false, amIns, hlt, amWfFrom, Bool.and_eq_true, decide_eq_true_eq]
        exact ⟨hm.1, amWfFrom_ins k v hv m (j + 1) (by omega) hm.2⟩

/-- A write keeps the canonical form. -/
theorem amWf_set (m : AMap α) (k : Nat) (v : α) (h : amWf d m = true) : amWf d (amSet d m k v) = true := by
  unfold amWf amSet at *
  split
  · exact amWfFrom_del d k m 0 h
  · exact amWfFrom_ins d k v ‹_› m 0 (Nat.zero_le _) h

/-- Removing entries keeps the canonical form. -/
theorem amWfFrom_filter (p : Nat × α → Bool) : ∀ (m : AMap α) (lo : Nat), amWfFrom d lo m = true →
    amWfFrom d lo (m.filter p) = true
  | [], _, _ => rfl
  | x :: m, lo, hm => by
    obtain ⟨j, v⟩ := x
    simp only [amWfFrom, Bool.and_eq_true, decide_eq_true_eq] at hm
    have ih := amWfFrom_filter p m (j + 1) hm.2
    by_cases hp : p (j, v)
    · simp only [List.filter_cons, hp, if_true, amWfFrom, Bool.and_eq_true, decide_eq_true_eq]
      exact ⟨hm.1, ih⟩
    · simp only [List.filter_cons, hp]
      exact amWfFrom_mono d (by omega) _ ih

theorem amWf_filter (p : Nat × α → Bool) (m : AMap α) (h : amWf d m = true) : amWf d (m.filter p) = true :=
  amWfFrom_filter d p m 0 h

end Sys2Proof.Machine
end

