-- ==== Sys2Proof/Laws/State.lean ====
section
/-!
SUPPORT. What the shared operations leave of each field of the state, and what they write: one lemma per operation and field.
-/
namespace Sys2Proof.Machine


/-! `State.wr` -/

@[simp] theorem State.wr_commit (s : State) (a : Nat) (v : Word) : (s.wr a v).commit = s.commit := rfl
@[simp] theorem State.wr_msix (s : State) (a : Nat) (v : Word) : (s.wr a v).msix = s.msix := rfl
@[simp] theorem State.wr_power (s : State) (a : Nat) (v : Word) : (s.wr a v).power = s.power := rfl
@[simp] theorem State.wr_gaffer (s : State) (a : Nat) (v : Word) : (s.wr a v).gaffer = s.gaffer := rfl
@[simp] theorem State.wr_keepLog (s : State) (a : Nat) (v : Word) : (s.wr a v).keepLog = s.keepLog := rfl
@[simp] theorem State.wr_dbg (s : State) (a : Nat) (v : Word) : (s.wr a v).dbg = s.dbg := rfl
@[simp] theorem State.wr_lease (s : State) (a : Nat) (v : Word) : (s.wr a v).lease = s.lease := rfl
@[simp] theorem State.wr_ingest (s : State) (a : Nat) (v : Word) : (s.wr a v).ingest = s.ingest := rfl
@[simp] theorem State.wr_sched (s : State) (a : Nat) (v : Word) : (s.wr a v).sched = s.sched := rfl
@[simp] theorem State.wr_marver (s : State) (a : Nat) (v : Word) : (s.wr a v).marver = s.marver := rfl
@[simp] theorem State.wr_solver (s : State) (a : Nat) (v : Word) : (s.wr a v).solver = s.solver := rfl
@[simp] theorem State.wr_loop (s : State) (a : Nat) (v : Word) : (s.wr a v).loop = s.loop := rfl
@[simp] theorem State.wr_time (s : State) (a : Nat) (v : Word) : (s.wr a v).time = s.time := rfl
@[simp] theorem State.wr_net (s : State) (a : Nat) (v : Word) : (s.wr a v).net = s.net := rfl
@[simp] theorem State.wr_scan (s : State) (a : Nat) (v : Word) : (s.wr a v).scan = s.scan := rfl
@[simp] theorem State.wr_tuiper (s : State) (a : Nat) (v : Word) : (s.wr a v).tuiper = s.tuiper := rfl
@[simp] theorem State.wr_fixture (s : State) (a : Nat) (v : Word) : (s.wr a v).fixture = s.fixture := rfl
@[simp] theorem State.wr_lehr (s : State) (a : Nat) (v : Word) : (s.wr a v).lehr = s.lehr := rfl
@[simp] theorem State.wr_cal (s : State) (a : Nat) (v : Word) : (s.wr a v).cal = s.cal := rfl
@[simp] theorem State.wr_twin (s : State) (a : Nat) (v : Word) : (s.wr a v).twin = s.twin := rfl
@[simp] theorem State.wr_mem (s : State) (a : Nat) (v : Word) : (s.wr a v).mem = s.mem := rfl
@[simp] theorem State.wr_free (s : State) (a : Nat) (v : Word) : (s.wr a v).free = s.free := rfl
@[simp] theorem State.wr_pending (s : State) (a : Nat) (v : Word) : (s.wr a v).pending = s.pending := rfl
@[simp] theorem State.wr_rf_shadow (s : State) (a : Nat) (v : Word) : (s.wr a v).rf.shadow = s.rf.shadow := rfl
@[simp] theorem State.wr_rf_pend (s : State) (a : Nat) (v : Word) : (s.wr a v).rf.pend = s.rf.pend := rfl
@[simp] theorem State.wr_rf_active (s : State) (a : Nat) (v : Word) : (s.wr a v).rf.active = s.rf.active := rfl
@[simp] theorem State.wr_rf_force (s : State) (a : Nat) (v : Word) : (s.wr a v).rf.force = s.rf.force := rfl
@[simp] theorem State.wr_rf_prev (s : State) (a : Nat) (v : Word) : (s.wr a v).rf.prev = s.rf.prev := rfl
@[simp] theorem State.wr_rf_snap (s : State) (a : Nat) (v : Word) : (s.wr a v).rf.snap = s.rf.snap := rfl
@[simp] theorem State.wr_rf_bank (s : State) (a : Nat) (v : Word) : (s.wr a v).rf.bank = s.rf.bank := rfl
@[simp] theorem State.wr_rf_hostReply (s : State) (a : Nat) (v : Word) : (s.wr a v).rf.hostReply = s.rf.hostReply := rfl
@[simp] theorem State.wr_rf_gafferReply (s : State) (a : Nat) (v : Word) : (s.wr a v).rf.gafferReply = s.rf.gafferReply := rfl

/-! `State.wrShadow` -/

@[simp] theorem State.wrShadow_commit (s : State) (a : Nat) (v : Word) : (s.wrShadow a v).commit = s.commit := rfl
@[simp] theorem State.wrShadow_msix (s : State) (a : Nat) (v : Word) : (s.wrShadow a v).msix = s.msix := rfl
@[simp] theorem State.wrShadow_power (s : State) (a : Nat) (v : Word) : (s.wrShadow a v).power = s.power := rfl
@[simp] theorem State.wrShadow_gaffer (s : State) (a : Nat) (v : Word) : (s.wrShadow a v).gaffer = s.gaffer := rfl
@[simp] theorem State.wrShadow_keepLog (s : State) (a : Nat) (v : Word) : (s.wrShadow a v).keepLog = s.keepLog := rfl
@[simp] theorem State.wrShadow_dbg (s : State) (a : Nat) (v : Word) : (s.wrShadow a v).dbg = s.dbg := rfl
@[simp] theorem State.wrShadow_lease (s : State) (a : Nat) (v : Word) : (s.wrShadow a v).lease = s.lease := rfl
@[simp] theorem State.wrShadow_ingest (s : State) (a : Nat) (v : Word) : (s.wrShadow a v).ingest = s.ingest := rfl
@[simp] theorem State.wrShadow_sched (s : State) (a : Nat) (v : Word) : (s.wrShadow a v).sched = s.sched := rfl
@[simp] theorem State.wrShadow_marver (s : State) (a : Nat) (v : Word) : (s.wrShadow a v).marver = s.marver := rfl
@[simp] theorem State.wrShadow_solver (s : State) (a : Nat) (v : Word) : (s.wrShadow a v).solver = s.solver := rfl
@[simp] theorem State.wrShadow_loop (s : State) (a : Nat) (v : Word) : (s.wrShadow a v).loop = s.loop := rfl
@[simp] theorem State.wrShadow_time (s : State) (a : Nat) (v : Word) : (s.wrShadow a v).time = s.time := rfl
@[simp] theorem State.wrShadow_net (s : State) (a : Nat) (v : Word) : (s.wrShadow a v).net = s.net := rfl
@[simp] theorem State.wrShadow_scan (s : State) (a : Nat) (v : Word) : (s.wrShadow a v).scan = s.scan := rfl
@[simp] theorem State.wrShadow_tuiper (s : State) (a : Nat) (v : Word) : (s.wrShadow a v).tuiper = s.tuiper := rfl
@[simp] theorem State.wrShadow_fixture (s : State) (a : Nat) (v : Word) : (s.wrShadow a v).fixture = s.fixture := rfl
@[simp] theorem State.wrShadow_lehr (s : State) (a : Nat) (v : Word) : (s.wrShadow a v).lehr = s.lehr := rfl
@[simp] theorem State.wrShadow_cal (s : State) (a : Nat) (v : Word) : (s.wrShadow a v).cal = s.cal := rfl
@[simp] theorem State.wrShadow_twin (s : State) (a : Nat) (v : Word) : (s.wrShadow a v).twin = s.twin := rfl
@[simp] theorem State.wrShadow_mem (s : State) (a : Nat) (v : Word) : (s.wrShadow a v).mem = s.mem := rfl
@[simp] theorem State.wrShadow_free (s : State) (a : Nat) (v : Word) : (s.wrShadow a v).free = s.free := rfl
@[simp] theorem State.wrShadow_pending (s : State) (a : Nat) (v : Word) : (s.wrShadow a v).pending = s.pending := rfl
@[simp] theorem State.wrShadow_rf_live (s : State) (a : Nat) (v : Word) : (s.wrShadow a v).rf.live = s.rf.live := rfl
@[simp] theorem State.wrShadow_rf_pend (s : State) (a : Nat) (v : Word) : (s.wrShadow a v).rf.pend = s.rf.pend := rfl
@[simp] theorem State.wrShadow_rf_active (s : State) (a : Nat) (v : Word) : (s.wrShadow a v).rf.active = s.rf.active := rfl
@[simp] theorem State.wrShadow_rf_force (s : State) (a : Nat) (v : Word) : (s.wrShadow a v).rf.force = s.rf.force := rfl
@[simp] theorem State.wrShadow_rf_prev (s : State) (a : Nat) (v : Word) : (s.wrShadow a v).rf.prev = s.rf.prev := rfl
@[simp] theorem State.wrShadow_rf_snap (s : State) (a : Nat) (v : Word) : (s.wrShadow a v).rf.snap = s.rf.snap := rfl
@[simp] theorem State.wrShadow_rf_bank (s : State) (a : Nat) (v : Word) : (s.wrShadow a v).rf.bank = s.rf.bank := rfl
@[simp] theorem State.wrShadow_rf_hostReply (s : State) (a : Nat) (v : Word) : (s.wrShadow a v).rf.hostReply = s.rf.hostReply := rfl
@[simp] theorem State.wrShadow_rf_gafferReply (s : State) (a : Nat) (v : Word) : (s.wrShadow a v).rf.gafferReply = s.rf.gafferReply := rfl

/-! `State.wrActive` -/

@[simp] theorem State.wrActive_commit (s : State) (a : Nat) (v : Word) : (s.wrActive a v).commit = s.commit := rfl
@[simp] theorem State.wrActive_msix (s : State) (a : Nat) (v : Word) : (s.wrActive a v).msix = s.msix := rfl
@[simp] theorem State.wrActive_power (s : State) (a : Nat) (v : Word) : (s.wrActive a v).power = s.power := rfl
@[simp] theorem State.wrActive_gaffer (s : State) (a : Nat) (v : Word) : (s.wrActive a v).gaffer = s.gaffer := rfl
@[simp] theorem State.wrActive_keepLog (s : State) (a : Nat) (v : Word) : (s.wrActive a v).keepLog = s.keepLog := rfl
@[simp] theorem State.wrActive_dbg (s : State) (a : Nat) (v : Word) : (s.wrActive a v).dbg = s.dbg := rfl
@[simp] theorem State.wrActive_lease (s : State) (a : Nat) (v : Word) : (s.wrActive a v).lease = s.lease := rfl
@[simp] theorem State.wrActive_ingest (s : State) (a : Nat) (v : Word) : (s.wrActive a v).ingest = s.ingest := rfl
@[simp] theorem State.wrActive_sched (s : State) (a : Nat) (v : Word) : (s.wrActive a v).sched = s.sched := rfl
@[simp] theorem State.wrActive_marver (s : State) (a : Nat) (v : Word) : (s.wrActive a v).marver = s.marver := rfl
@[simp] theorem State.wrActive_solver (s : State) (a : Nat) (v : Word) : (s.wrActive a v).solver = s.solver := rfl
@[simp] theorem State.wrActive_loop (s : State) (a : Nat) (v : Word) : (s.wrActive a v).loop = s.loop := rfl
@[simp] theorem State.wrActive_time (s : State) (a : Nat) (v : Word) : (s.wrActive a v).time = s.time := rfl
@[simp] theorem State.wrActive_net (s : State) (a : Nat) (v : Word) : (s.wrActive a v).net = s.net := rfl
@[simp] theorem State.wrActive_scan (s : State) (a : Nat) (v : Word) : (s.wrActive a v).scan = s.scan := rfl
@[simp] theorem State.wrActive_tuiper (s : State) (a : Nat) (v : Word) : (s.wrActive a v).tuiper = s.tuiper := rfl
@[simp] theorem State.wrActive_fixture (s : State) (a : Nat) (v : Word) : (s.wrActive a v).fixture = s.fixture := rfl
@[simp] theorem State.wrActive_lehr (s : State) (a : Nat) (v : Word) : (s.wrActive a v).lehr = s.lehr := rfl
@[simp] theorem State.wrActive_cal (s : State) (a : Nat) (v : Word) : (s.wrActive a v).cal = s.cal := rfl
@[simp] theorem State.wrActive_twin (s : State) (a : Nat) (v : Word) : (s.wrActive a v).twin = s.twin := rfl
@[simp] theorem State.wrActive_mem (s : State) (a : Nat) (v : Word) : (s.wrActive a v).mem = s.mem := rfl
@[simp] theorem State.wrActive_free (s : State) (a : Nat) (v : Word) : (s.wrActive a v).free = s.free := rfl
@[simp] theorem State.wrActive_pending (s : State) (a : Nat) (v : Word) : (s.wrActive a v).pending = s.pending := rfl
@[simp] theorem State.wrActive_rf_live (s : State) (a : Nat) (v : Word) : (s.wrActive a v).rf.live = s.rf.live := rfl
@[simp] theorem State.wrActive_rf_force (s : State) (a : Nat) (v : Word) : (s.wrActive a v).rf.force = s.rf.force := rfl
@[simp] theorem State.wrActive_rf_prev (s : State) (a : Nat) (v : Word) : (s.wrActive a v).rf.prev = s.rf.prev := rfl
@[simp] theorem State.wrActive_rf_snap (s : State) (a : Nat) (v : Word) : (s.wrActive a v).rf.snap = s.rf.snap := rfl
@[simp] theorem State.wrActive_rf_bank (s : State) (a : Nat) (v : Word) : (s.wrActive a v).rf.bank = s.rf.bank := rfl
@[simp] theorem State.wrActive_rf_hostReply (s : State) (a : Nat) (v : Word) : (s.wrActive a v).rf.hostReply = s.rf.hostReply := rfl
@[simp] theorem State.wrActive_rf_gafferReply (s : State) (a : Nat) (v : Word) : (s.wrActive a v).rf.gafferReply = s.rf.gafferReply := rfl

/-! `State.setBank` -/

@[simp] theorem State.setBank_commit (s : State) (a k : Nat) (r : Req) (v : Word) : (s.setBank a k r v).commit = s.commit := rfl
@[simp] theorem State.setBank_msix (s : State) (a k : Nat) (r : Req) (v : Word) : (s.setBank a k r v).msix = s.msix := rfl
@[simp] theorem State.setBank_power (s : State) (a k : Nat) (r : Req) (v : Word) : (s.setBank a k r v).power = s.power := rfl
@[simp] theorem State.setBank_gaffer (s : State) (a k : Nat) (r : Req) (v : Word) : (s.setBank a k r v).gaffer = s.gaffer := rfl
@[simp] theorem State.setBank_keepLog (s : State) (a k : Nat) (r : Req) (v : Word) : (s.setBank a k r v).keepLog = s.keepLog := rfl
@[simp] theorem State.setBank_dbg (s : State) (a k : Nat) (r : Req) (v : Word) : (s.setBank a k r v).dbg = s.dbg := rfl
@[simp] theorem State.setBank_lease (s : State) (a k : Nat) (r : Req) (v : Word) : (s.setBank a k r v).lease = s.lease := rfl
@[simp] theorem State.setBank_ingest (s : State) (a k : Nat) (r : Req) (v : Word) : (s.setBank a k r v).ingest = s.ingest := rfl
@[simp] theorem State.setBank_sched (s : State) (a k : Nat) (r : Req) (v : Word) : (s.setBank a k r v).sched = s.sched := rfl
@[simp] theorem State.setBank_marver (s : State) (a k : Nat) (r : Req) (v : Word) : (s.setBank a k r v).marver = s.marver := rfl
@[simp] theorem State.setBank_solver (s : State) (a k : Nat) (r : Req) (v : Word) : (s.setBank a k r v).solver = s.solver := rfl
@[simp] theorem State.setBank_loop (s : State) (a k : Nat) (r : Req) (v : Word) : (s.setBank a k r v).loop = s.loop := rfl
@[simp] theorem State.setBank_time (s : State) (a k : Nat) (r : Req) (v : Word) : (s.setBank a k r v).time = s.time := rfl
@[simp] theorem State.setBank_net (s : State) (a k : Nat) (r : Req) (v : Word) : (s.setBank a k r v).net = s.net := rfl
@[simp] theorem State.setBank_scan (s : State) (a k : Nat) (r : Req) (v : Word) : (s.setBank a k r v).scan = s.scan := rfl
@[simp] theorem State.setBank_tuiper (s : State) (a k : Nat) (r : Req) (v : Word) : (s.setBank a k r v).tuiper = s.tuiper := rfl
@[simp] theorem State.setBank_fixture (s : State) (a k : Nat) (r : Req) (v : Word) : (s.setBank a k r v).fixture = s.fixture := rfl
@[simp] theorem State.setBank_lehr (s : State) (a k : Nat) (r : Req) (v : Word) : (s.setBank a k r v).lehr = s.lehr := rfl
@[simp] theorem State.setBank_cal (s : State) (a k : Nat) (r : Req) (v : Word) : (s.setBank a k r v).cal = s.cal := rfl
@[simp] theorem State.setBank_twin (s : State) (a k : Nat) (r : Req) (v : Word) : (s.setBank a k r v).twin = s.twin := rfl
@[simp] theorem State.setBank_mem (s : State) (a k : Nat) (r : Req) (v : Word) : (s.setBank a k r v).mem = s.mem := rfl
@[simp] theorem State.setBank_free (s : State) (a k : Nat) (r : Req) (v : Word) : (s.setBank a k r v).free = s.free := rfl
@[simp] theorem State.setBank_pending (s : State) (a k : Nat) (r : Req) (v : Word) : (s.setBank a k r v).pending = s.pending := rfl
@[simp] theorem State.setBank_rf_live (s : State) (a k : Nat) (r : Req) (v : Word) : (s.setBank a k r v).rf.live = s.rf.live := rfl
@[simp] theorem State.setBank_rf_shadow (s : State) (a k : Nat) (r : Req) (v : Word) : (s.setBank a k r v).rf.shadow = s.rf.shadow := rfl
@[simp] theorem State.setBank_rf_pend (s : State) (a k : Nat) (r : Req) (v : Word) : (s.setBank a k r v).rf.pend = s.rf.pend := rfl
@[simp] theorem State.setBank_rf_active (s : State) (a k : Nat) (r : Req) (v : Word) : (s.setBank a k r v).rf.active = s.rf.active := rfl
@[simp] theorem State.setBank_rf_force (s : State) (a k : Nat) (r : Req) (v : Word) : (s.setBank a k r v).rf.force = s.rf.force := rfl
@[simp] theorem State.setBank_rf_prev (s : State) (a k : Nat) (r : Req) (v : Word) : (s.setBank a k r v).rf.prev = s.rf.prev := rfl
@[simp] theorem State.setBank_rf_snap (s : State) (a k : Nat) (r : Req) (v : Word) : (s.setBank a k r v).rf.snap = s.rf.snap := rfl
@[simp] theorem State.setBank_rf_hostReply (s : State) (a k : Nat) (r : Req) (v : Word) : (s.setBank a k r v).rf.hostReply = s.rf.hostReply := rfl
@[simp] theorem State.setBank_rf_gafferReply (s : State) (a k : Nat) (r : Req) (v : Word) : (s.setBank a k r v).rf.gafferReply = s.rf.gafferReply := rfl

/-! `State.put` -/

@[simp] theorem State.put_commit (s : State) (a : Nat) (f : Fld) (v : Nat) : (s.put a f v).commit = s.commit := rfl
@[simp] theorem State.put_msix (s : State) (a : Nat) (f : Fld) (v : Nat) : (s.put a f v).msix = s.msix := rfl
@[simp] theorem State.put_power (s : State) (a : Nat) (f : Fld) (v : Nat) : (s.put a f v).power = s.power := rfl
@[simp] theorem State.put_gaffer (s : State) (a : Nat) (f : Fld) (v : Nat) : (s.put a f v).gaffer = s.gaffer := rfl
@[simp] theorem State.put_keepLog (s : State) (a : Nat) (f : Fld) (v : Nat) : (s.put a f v).keepLog = s.keepLog := rfl
@[simp] theorem State.put_dbg (s : State) (a : Nat) (f : Fld) (v : Nat) : (s.put a f v).dbg = s.dbg := rfl
@[simp] theorem State.put_lease (s : State) (a : Nat) (f : Fld) (v : Nat) : (s.put a f v).lease = s.lease := rfl
@[simp] theorem State.put_ingest (s : State) (a : Nat) (f : Fld) (v : Nat) : (s.put a f v).ingest = s.ingest := rfl
@[simp] theorem State.put_sched (s : State) (a : Nat) (f : Fld) (v : Nat) : (s.put a f v).sched = s.sched := rfl
@[simp] theorem State.put_marver (s : State) (a : Nat) (f : Fld) (v : Nat) : (s.put a f v).marver = s.marver := rfl
@[simp] theorem State.put_solver (s : State) (a : Nat) (f : Fld) (v : Nat) : (s.put a f v).solver = s.solver := rfl
@[simp] theorem State.put_loop (s : State) (a : Nat) (f : Fld) (v : Nat) : (s.put a f v).loop = s.loop := rfl
@[simp] theorem State.put_time (s : State) (a : Nat) (f : Fld) (v : Nat) : (s.put a f v).time = s.time := rfl
@[simp] theorem State.put_net (s : State) (a : Nat) (f : Fld) (v : Nat) : (s.put a f v).net = s.net := rfl
@[simp] theorem State.put_scan (s : State) (a : Nat) (f : Fld) (v : Nat) : (s.put a f v).scan = s.scan := rfl
@[simp] theorem State.put_tuiper (s : State) (a : Nat) (f : Fld) (v : Nat) : (s.put a f v).tuiper = s.tuiper := rfl
@[simp] theorem State.put_fixture (s : State) (a : Nat) (f : Fld) (v : Nat) : (s.put a f v).fixture = s.fixture := rfl
@[simp] theorem State.put_lehr (s : State) (a : Nat) (f : Fld) (v : Nat) : (s.put a f v).lehr = s.lehr := rfl
@[simp] theorem State.put_cal (s : State) (a : Nat) (f : Fld) (v : Nat) : (s.put a f v).cal = s.cal := rfl
@[simp] theorem State.put_twin (s : State) (a : Nat) (f : Fld) (v : Nat) : (s.put a f v).twin = s.twin := rfl
@[simp] theorem State.put_mem (s : State) (a : Nat) (f : Fld) (v : Nat) : (s.put a f v).mem = s.mem := rfl
@[simp] theorem State.put_free (s : State) (a : Nat) (f : Fld) (v : Nat) : (s.put a f v).free = s.free := rfl
@[simp] theorem State.put_pending (s : State) (a : Nat) (f : Fld) (v : Nat) : (s.put a f v).pending = s.pending := rfl
@[simp] theorem State.put_rf_shadow (s : State) (a : Nat) (f : Fld) (v : Nat) : (s.put a f v).rf.shadow = s.rf.shadow := rfl
@[simp] theorem State.put_rf_pend (s : State) (a : Nat) (f : Fld) (v : Nat) : (s.put a f v).rf.pend = s.rf.pend := rfl
@[simp] theorem State.put_rf_active (s : State) (a : Nat) (f : Fld) (v : Nat) : (s.put a f v).rf.active = s.rf.active := rfl
@[simp] theorem State.put_rf_force (s : State) (a : Nat) (f : Fld) (v : Nat) : (s.put a f v).rf.force = s.rf.force := rfl
@[simp] theorem State.put_rf_prev (s : State) (a : Nat) (f : Fld) (v : Nat) : (s.put a f v).rf.prev = s.rf.prev := rfl
@[simp] theorem State.put_rf_snap (s : State) (a : Nat) (f : Fld) (v : Nat) : (s.put a f v).rf.snap = s.rf.snap := rfl
@[simp] theorem State.put_rf_bank (s : State) (a : Nat) (f : Fld) (v : Nat) : (s.put a f v).rf.bank = s.rf.bank := rfl
@[simp] theorem State.put_rf_hostReply (s : State) (a : Nat) (f : Fld) (v : Nat) : (s.put a f v).rf.hostReply = s.rf.hostReply := rfl
@[simp] theorem State.put_rf_gafferReply (s : State) (a : Nat) (f : Fld) (v : Nat) : (s.put a f v).rf.gafferReply = s.rf.gafferReply := rfl

/-! `State.add` -/

@[simp] theorem State.add_commit (s : State) (a : Nat) (f : Fld) (n : Nat) : (s.add a f n).commit = s.commit := rfl
@[simp] theorem State.add_msix (s : State) (a : Nat) (f : Fld) (n : Nat) : (s.add a f n).msix = s.msix := rfl
@[simp] theorem State.add_power (s : State) (a : Nat) (f : Fld) (n : Nat) : (s.add a f n).power = s.power := rfl
@[simp] theorem State.add_gaffer (s : State) (a : Nat) (f : Fld) (n : Nat) : (s.add a f n).gaffer = s.gaffer := rfl
@[simp] theorem State.add_keepLog (s : State) (a : Nat) (f : Fld) (n : Nat) : (s.add a f n).keepLog = s.keepLog := rfl
@[simp] theorem State.add_dbg (s : State) (a : Nat) (f : Fld) (n : Nat) : (s.add a f n).dbg = s.dbg := rfl
@[simp] theorem State.add_lease (s : State) (a : Nat) (f : Fld) (n : Nat) : (s.add a f n).lease = s.lease := rfl
@[simp] theorem State.add_ingest (s : State) (a : Nat) (f : Fld) (n : Nat) : (s.add a f n).ingest = s.ingest := rfl
@[simp] theorem State.add_sched (s : State) (a : Nat) (f : Fld) (n : Nat) : (s.add a f n).sched = s.sched := rfl
@[simp] theorem State.add_marver (s : State) (a : Nat) (f : Fld) (n : Nat) : (s.add a f n).marver = s.marver := rfl
@[simp] theorem State.add_solver (s : State) (a : Nat) (f : Fld) (n : Nat) : (s.add a f n).solver = s.solver := rfl
@[simp] theorem State.add_loop (s : State) (a : Nat) (f : Fld) (n : Nat) : (s.add a f n).loop = s.loop := rfl
@[simp] theorem State.add_time (s : State) (a : Nat) (f : Fld) (n : Nat) : (s.add a f n).time = s.time := rfl
@[simp] theorem State.add_net (s : State) (a : Nat) (f : Fld) (n : Nat) : (s.add a f n).net = s.net := rfl
@[simp] theorem State.add_scan (s : State) (a : Nat) (f : Fld) (n : Nat) : (s.add a f n).scan = s.scan := rfl
@[simp] theorem State.add_tuiper (s : State) (a : Nat) (f : Fld) (n : Nat) : (s.add a f n).tuiper = s.tuiper := rfl
@[simp] theorem State.add_fixture (s : State) (a : Nat) (f : Fld) (n : Nat) : (s.add a f n).fixture = s.fixture := rfl
@[simp] theorem State.add_lehr (s : State) (a : Nat) (f : Fld) (n : Nat) : (s.add a f n).lehr = s.lehr := rfl
@[simp] theorem State.add_cal (s : State) (a : Nat) (f : Fld) (n : Nat) : (s.add a f n).cal = s.cal := rfl
@[simp] theorem State.add_twin (s : State) (a : Nat) (f : Fld) (n : Nat) : (s.add a f n).twin = s.twin := rfl
@[simp] theorem State.add_mem (s : State) (a : Nat) (f : Fld) (n : Nat) : (s.add a f n).mem = s.mem := rfl
@[simp] theorem State.add_free (s : State) (a : Nat) (f : Fld) (n : Nat) : (s.add a f n).free = s.free := rfl
@[simp] theorem State.add_pending (s : State) (a : Nat) (f : Fld) (n : Nat) : (s.add a f n).pending = s.pending := rfl
@[simp] theorem State.add_rf_shadow (s : State) (a : Nat) (f : Fld) (n : Nat) : (s.add a f n).rf.shadow = s.rf.shadow := rfl
@[simp] theorem State.add_rf_pend (s : State) (a : Nat) (f : Fld) (n : Nat) : (s.add a f n).rf.pend = s.rf.pend := rfl
@[simp] theorem State.add_rf_active (s : State) (a : Nat) (f : Fld) (n : Nat) : (s.add a f n).rf.active = s.rf.active := rfl
@[simp] theorem State.add_rf_force (s : State) (a : Nat) (f : Fld) (n : Nat) : (s.add a f n).rf.force = s.rf.force := rfl
@[simp] theorem State.add_rf_prev (s : State) (a : Nat) (f : Fld) (n : Nat) : (s.add a f n).rf.prev = s.rf.prev := rfl
@[simp] theorem State.add_rf_snap (s : State) (a : Nat) (f : Fld) (n : Nat) : (s.add a f n).rf.snap = s.rf.snap := rfl
@[simp] theorem State.add_rf_bank (s : State) (a : Nat) (f : Fld) (n : Nat) : (s.add a f n).rf.bank = s.rf.bank := rfl
@[simp] theorem State.add_rf_hostReply (s : State) (a : Nat) (f : Fld) (n : Nat) : (s.add a f n).rf.hostReply = s.rf.hostReply := rfl
@[simp] theorem State.add_rf_gafferReply (s : State) (a : Nat) (f : Fld) (n : Nat) : (s.add a f n).rf.gafferReply = s.rf.gafferReply := rfl

/-! `State.inc` -/

@[simp] theorem State.inc_commit (s : State) (a : Nat) : (s.inc a).commit = s.commit := rfl
@[simp] theorem State.inc_msix (s : State) (a : Nat) : (s.inc a).msix = s.msix := rfl
@[simp] theorem State.inc_power (s : State) (a : Nat) : (s.inc a).power = s.power := rfl
@[simp] theorem State.inc_gaffer (s : State) (a : Nat) : (s.inc a).gaffer = s.gaffer := rfl
@[simp] theorem State.inc_keepLog (s : State) (a : Nat) : (s.inc a).keepLog = s.keepLog := rfl
@[simp] theorem State.inc_dbg (s : State) (a : Nat) : (s.inc a).dbg = s.dbg := rfl
@[simp] theorem State.inc_lease (s : State) (a : Nat) : (s.inc a).lease = s.lease := rfl
@[simp] theorem State.inc_ingest (s : State) (a : Nat) : (s.inc a).ingest = s.ingest := rfl
@[simp] theorem State.inc_sched (s : State) (a : Nat) : (s.inc a).sched = s.sched := rfl
@[simp] theorem State.inc_marver (s : State) (a : Nat) : (s.inc a).marver = s.marver := rfl
@[simp] theorem State.inc_solver (s : State) (a : Nat) : (s.inc a).solver = s.solver := rfl
@[simp] theorem State.inc_loop (s : State) (a : Nat) : (s.inc a).loop = s.loop := rfl
@[simp] theorem State.inc_time (s : State) (a : Nat) : (s.inc a).time = s.time := rfl
@[simp] theorem State.inc_net (s : State) (a : Nat) : (s.inc a).net = s.net := rfl
@[simp] theorem State.inc_scan (s : State) (a : Nat) : (s.inc a).scan = s.scan := rfl
@[simp] theorem State.inc_tuiper (s : State) (a : Nat) : (s.inc a).tuiper = s.tuiper := rfl
@[simp] theorem State.inc_fixture (s : State) (a : Nat) : (s.inc a).fixture = s.fixture := rfl
@[simp] theorem State.inc_lehr (s : State) (a : Nat) : (s.inc a).lehr = s.lehr := rfl
@[simp] theorem State.inc_cal (s : State) (a : Nat) : (s.inc a).cal = s.cal := rfl
@[simp] theorem State.inc_twin (s : State) (a : Nat) : (s.inc a).twin = s.twin := rfl
@[simp] theorem State.inc_mem (s : State) (a : Nat) : (s.inc a).mem = s.mem := rfl
@[simp] theorem State.inc_free (s : State) (a : Nat) : (s.inc a).free = s.free := rfl
@[simp] theorem State.inc_pending (s : State) (a : Nat) : (s.inc a).pending = s.pending := rfl
@[simp] theorem State.inc_rf_shadow (s : State) (a : Nat) : (s.inc a).rf.shadow = s.rf.shadow := rfl
@[simp] theorem State.inc_rf_pend (s : State) (a : Nat) : (s.inc a).rf.pend = s.rf.pend := rfl
@[simp] theorem State.inc_rf_active (s : State) (a : Nat) : (s.inc a).rf.active = s.rf.active := rfl
@[simp] theorem State.inc_rf_force (s : State) (a : Nat) : (s.inc a).rf.force = s.rf.force := rfl
@[simp] theorem State.inc_rf_prev (s : State) (a : Nat) : (s.inc a).rf.prev = s.rf.prev := rfl
@[simp] theorem State.inc_rf_snap (s : State) (a : Nat) : (s.inc a).rf.snap = s.rf.snap := rfl
@[simp] theorem State.inc_rf_bank (s : State) (a : Nat) : (s.inc a).rf.bank = s.rf.bank := rfl
@[simp] theorem State.inc_rf_hostReply (s : State) (a : Nat) : (s.inc a).rf.hostReply = s.rf.hostReply := rfl
@[simp] theorem State.inc_rf_gafferReply (s : State) (a : Nat) : (s.inc a).rf.gafferReply = s.rf.gafferReply := rfl

/-! `State.wr64` -/

@[simp] theorem State.wr64_commit (s : State) (a v : Nat) : (s.wr64 a v).commit = s.commit := rfl
@[simp] theorem State.wr64_msix (s : State) (a v : Nat) : (s.wr64 a v).msix = s.msix := rfl
@[simp] theorem State.wr64_power (s : State) (a v : Nat) : (s.wr64 a v).power = s.power := rfl
@[simp] theorem State.wr64_gaffer (s : State) (a v : Nat) : (s.wr64 a v).gaffer = s.gaffer := rfl
@[simp] theorem State.wr64_keepLog (s : State) (a v : Nat) : (s.wr64 a v).keepLog = s.keepLog := rfl
@[simp] theorem State.wr64_dbg (s : State) (a v : Nat) : (s.wr64 a v).dbg = s.dbg := rfl
@[simp] theorem State.wr64_lease (s : State) (a v : Nat) : (s.wr64 a v).lease = s.lease := rfl
@[simp] theorem State.wr64_ingest (s : State) (a v : Nat) : (s.wr64 a v).ingest = s.ingest := rfl
@[simp] theorem State.wr64_sched (s : State) (a v : Nat) : (s.wr64 a v).sched = s.sched := rfl
@[simp] theorem State.wr64_marver (s : State) (a v : Nat) : (s.wr64 a v).marver = s.marver := rfl
@[simp] theorem State.wr64_solver (s : State) (a v : Nat) : (s.wr64 a v).solver = s.solver := rfl
@[simp] theorem State.wr64_loop (s : State) (a v : Nat) : (s.wr64 a v).loop = s.loop := rfl
@[simp] theorem State.wr64_time (s : State) (a v : Nat) : (s.wr64 a v).time = s.time := rfl
@[simp] theorem State.wr64_net (s : State) (a v : Nat) : (s.wr64 a v).net = s.net := rfl
@[simp] theorem State.wr64_scan (s : State) (a v : Nat) : (s.wr64 a v).scan = s.scan := rfl
@[simp] theorem State.wr64_tuiper (s : State) (a v : Nat) : (s.wr64 a v).tuiper = s.tuiper := rfl
@[simp] theorem State.wr64_fixture (s : State) (a v : Nat) : (s.wr64 a v).fixture = s.fixture := rfl
@[simp] theorem State.wr64_lehr (s : State) (a v : Nat) : (s.wr64 a v).lehr = s.lehr := rfl
@[simp] theorem State.wr64_cal (s : State) (a v : Nat) : (s.wr64 a v).cal = s.cal := rfl
@[simp] theorem State.wr64_twin (s : State) (a v : Nat) : (s.wr64 a v).twin = s.twin := rfl
@[simp] theorem State.wr64_mem (s : State) (a v : Nat) : (s.wr64 a v).mem = s.mem := rfl
@[simp] theorem State.wr64_free (s : State) (a v : Nat) : (s.wr64 a v).free = s.free := rfl
@[simp] theorem State.wr64_pending (s : State) (a v : Nat) : (s.wr64 a v).pending = s.pending := rfl
@[simp] theorem State.wr64_rf_shadow (s : State) (a v : Nat) : (s.wr64 a v).rf.shadow = s.rf.shadow := rfl
@[simp] theorem State.wr64_rf_pend (s : State) (a v : Nat) : (s.wr64 a v).rf.pend = s.rf.pend := rfl
@[simp] theorem State.wr64_rf_active (s : State) (a v : Nat) : (s.wr64 a v).rf.active = s.rf.active := rfl
@[simp] theorem State.wr64_rf_force (s : State) (a v : Nat) : (s.wr64 a v).rf.force = s.rf.force := rfl
@[simp] theorem State.wr64_rf_prev (s : State) (a v : Nat) : (s.wr64 a v).rf.prev = s.rf.prev := rfl
@[simp] theorem State.wr64_rf_snap (s : State) (a v : Nat) : (s.wr64 a v).rf.snap = s.rf.snap := rfl
@[simp] theorem State.wr64_rf_bank (s : State) (a v : Nat) : (s.wr64 a v).rf.bank = s.rf.bank := rfl
@[simp] theorem State.wr64_rf_hostReply (s : State) (a v : Nat) : (s.wr64 a v).rf.hostReply = s.rf.hostReply := rfl
@[simp] theorem State.wr64_rf_gafferReply (s : State) (a v : Nat) : (s.wr64 a v).rf.gafferReply = s.rf.gafferReply := rfl

/-! `State.add64` -/

@[simp] theorem State.add64_commit (s : State) (a n : Nat) : (s.add64 a n).commit = s.commit := State.wr64_commit s a _
@[simp] theorem State.add64_msix (s : State) (a n : Nat) : (s.add64 a n).msix = s.msix := State.wr64_msix s a _
@[simp] theorem State.add64_power (s : State) (a n : Nat) : (s.add64 a n).power = s.power := State.wr64_power s a _
@[simp] theorem State.add64_gaffer (s : State) (a n : Nat) : (s.add64 a n).gaffer = s.gaffer := State.wr64_gaffer s a _
@[simp] theorem State.add64_keepLog (s : State) (a n : Nat) : (s.add64 a n).keepLog = s.keepLog := State.wr64_keepLog s a _
@[simp] theorem State.add64_dbg (s : State) (a n : Nat) : (s.add64 a n).dbg = s.dbg := State.wr64_dbg s a _
@[simp] theorem State.add64_lease (s : State) (a n : Nat) : (s.add64 a n).lease = s.lease := State.wr64_lease s a _
@[simp] theorem State.add64_ingest (s : State) (a n : Nat) : (s.add64 a n).ingest = s.ingest := State.wr64_ingest s a _
@[simp] theorem State.add64_sched (s : State) (a n : Nat) : (s.add64 a n).sched = s.sched := State.wr64_sched s a _
@[simp] theorem State.add64_marver (s : State) (a n : Nat) : (s.add64 a n).marver = s.marver := State.wr64_marver s a _
@[simp] theorem State.add64_solver (s : State) (a n : Nat) : (s.add64 a n).solver = s.solver := State.wr64_solver s a _
@[simp] theorem State.add64_loop (s : State) (a n : Nat) : (s.add64 a n).loop = s.loop := State.wr64_loop s a _
@[simp] theorem State.add64_time (s : State) (a n : Nat) : (s.add64 a n).time = s.time := State.wr64_time s a _
@[simp] theorem State.add64_net (s : State) (a n : Nat) : (s.add64 a n).net = s.net := State.wr64_net s a _
@[simp] theorem State.add64_scan (s : State) (a n : Nat) : (s.add64 a n).scan = s.scan := State.wr64_scan s a _
@[simp] theorem State.add64_tuiper (s : State) (a n : Nat) : (s.add64 a n).tuiper = s.tuiper := State.wr64_tuiper s a _
@[simp] theorem State.add64_fixture (s : State) (a n : Nat) : (s.add64 a n).fixture = s.fixture := State.wr64_fixture s a _
@[simp] theorem State.add64_lehr (s : State) (a n : Nat) : (s.add64 a n).lehr = s.lehr := State.wr64_lehr s a _
@[simp] theorem State.add64_cal (s : State) (a n : Nat) : (s.add64 a n).cal = s.cal := State.wr64_cal s a _
@[simp] theorem State.add64_twin (s : State) (a n : Nat) : (s.add64 a n).twin = s.twin := State.wr64_twin s a _
@[simp] theorem State.add64_mem (s : State) (a n : Nat) : (s.add64 a n).mem = s.mem := State.wr64_mem s a _
@[simp] theorem State.add64_free (s : State) (a n : Nat) : (s.add64 a n).free = s.free := State.wr64_free s a _
@[simp] theorem State.add64_pending (s : State) (a n : Nat) : (s.add64 a n).pending = s.pending := State.wr64_pending s a _
@[simp] theorem State.add64_rf_shadow (s : State) (a n : Nat) : (s.add64 a n).rf.shadow = s.rf.shadow := State.wr64_rf_shadow s a _
@[simp] theorem State.add64_rf_pend (s : State) (a n : Nat) : (s.add64 a n).rf.pend = s.rf.pend := State.wr64_rf_pend s a _
@[simp] theorem State.add64_rf_active (s : State) (a n : Nat) : (s.add64 a n).rf.active = s.rf.active := State.wr64_rf_active s a _
@[simp] theorem State.add64_rf_force (s : State) (a n : Nat) : (s.add64 a n).rf.force = s.rf.force := State.wr64_rf_force s a _
@[simp] theorem State.add64_rf_prev (s : State) (a n : Nat) : (s.add64 a n).rf.prev = s.rf.prev := State.wr64_rf_prev s a _
@[simp] theorem State.add64_rf_snap (s : State) (a n : Nat) : (s.add64 a n).rf.snap = s.rf.snap := State.wr64_rf_snap s a _
@[simp] theorem State.add64_rf_bank (s : State) (a n : Nat) : (s.add64 a n).rf.bank = s.rf.bank := State.wr64_rf_bank s a _
@[simp] theorem State.add64_rf_hostReply (s : State) (a n : Nat) : (s.add64 a n).rf.hostReply = s.rf.hostReply := State.wr64_rf_hostReply s a _
@[simp] theorem State.add64_rf_gafferReply (s : State) (a n : Nat) : (s.add64 a n).rf.gafferReply = s.rf.gafferReply := State.wr64_rf_gafferReply s a _

/-! `State.memWB` -/

@[simp] theorem State.memWB_rf (s : State) (a : Nat) (b : Byte) : (s.memWB a b).rf = s.rf := rfl
@[simp] theorem State.memWB_commit (s : State) (a : Nat) (b : Byte) : (s.memWB a b).commit = s.commit := rfl
@[simp] theorem State.memWB_msix (s : State) (a : Nat) (b : Byte) : (s.memWB a b).msix = s.msix := rfl
@[simp] theorem State.memWB_power (s : State) (a : Nat) (b : Byte) : (s.memWB a b).power = s.power := rfl
@[simp] theorem State.memWB_gaffer (s : State) (a : Nat) (b : Byte) : (s.memWB a b).gaffer = s.gaffer := rfl
@[simp] theorem State.memWB_keepLog (s : State) (a : Nat) (b : Byte) : (s.memWB a b).keepLog = s.keepLog := rfl
@[simp] theorem State.memWB_dbg (s : State) (a : Nat) (b : Byte) : (s.memWB a b).dbg = s.dbg := rfl
@[simp] theorem State.memWB_lease (s : State) (a : Nat) (b : Byte) : (s.memWB a b).lease = s.lease := rfl
@[simp] theorem State.memWB_ingest (s : State) (a : Nat) (b : Byte) : (s.memWB a b).ingest = s.ingest := rfl
@[simp] theorem State.memWB_sched (s : State) (a : Nat) (b : Byte) : (s.memWB a b).sched = s.sched := rfl
@[simp] theorem State.memWB_marver (s : State) (a : Nat) (b : Byte) : (s.memWB a b).marver = s.marver := rfl
@[simp] theorem State.memWB_solver (s : State) (a : Nat) (b : Byte) : (s.memWB a b).solver = s.solver := rfl
@[simp] theorem State.memWB_loop (s : State) (a : Nat) (b : Byte) : (s.memWB a b).loop = s.loop := rfl
@[simp] theorem State.memWB_time (s : State) (a : Nat) (b : Byte) : (s.memWB a b).time = s.time := rfl
@[simp] theorem State.memWB_net (s : State) (a : Nat) (b : Byte) : (s.memWB a b).net = s.net := rfl
@[simp] theorem State.memWB_scan (s : State) (a : Nat) (b : Byte) : (s.memWB a b).scan = s.scan := rfl
@[simp] theorem State.memWB_tuiper (s : State) (a : Nat) (b : Byte) : (s.memWB a b).tuiper = s.tuiper := rfl
@[simp] theorem State.memWB_fixture (s : State) (a : Nat) (b : Byte) : (s.memWB a b).fixture = s.fixture := rfl
@[simp] theorem State.memWB_lehr (s : State) (a : Nat) (b : Byte) : (s.memWB a b).lehr = s.lehr := rfl
@[simp] theorem State.memWB_cal (s : State) (a : Nat) (b : Byte) : (s.memWB a b).cal = s.cal := rfl
@[simp] theorem State.memWB_twin (s : State) (a : Nat) (b : Byte) : (s.memWB a b).twin = s.twin := rfl
@[simp] theorem State.memWB_free (s : State) (a : Nat) (b : Byte) : (s.memWB a b).free = s.free := rfl
@[simp] theorem State.memWB_pending (s : State) (a : Nat) (b : Byte) : (s.memWB a b).pending = s.pending := rfl

/-! `State.memClear` -/

@[simp] theorem State.memClear_rf (s : State) (a n : Nat) : (s.memClear a n).rf = s.rf := rfl
@[simp] theorem State.memClear_commit (s : State) (a n : Nat) : (s.memClear a n).commit = s.commit := rfl
@[simp] theorem State.memClear_msix (s : State) (a n : Nat) : (s.memClear a n).msix = s.msix := rfl
@[simp] theorem State.memClear_power (s : State) (a n : Nat) : (s.memClear a n).power = s.power := rfl
@[simp] theorem State.memClear_gaffer (s : State) (a n : Nat) : (s.memClear a n).gaffer = s.gaffer := rfl
@[simp] theorem State.memClear_keepLog (s : State) (a n : Nat) : (s.memClear a n).keepLog = s.keepLog := rfl
@[simp] theorem State.memClear_dbg (s : State) (a n : Nat) : (s.memClear a n).dbg = s.dbg := rfl
@[simp] theorem State.memClear_lease (s : State) (a n : Nat) : (s.memClear a n).lease = s.lease := rfl
@[simp] theorem State.memClear_ingest (s : State) (a n : Nat) : (s.memClear a n).ingest = s.ingest := rfl
@[simp] theorem State.memClear_sched (s : State) (a n : Nat) : (s.memClear a n).sched = s.sched := rfl
@[simp] theorem State.memClear_marver (s : State) (a n : Nat) : (s.memClear a n).marver = s.marver := rfl
@[simp] theorem State.memClear_solver (s : State) (a n : Nat) : (s.memClear a n).solver = s.solver := rfl
@[simp] theorem State.memClear_loop (s : State) (a n : Nat) : (s.memClear a n).loop = s.loop := rfl
@[simp] theorem State.memClear_time (s : State) (a n : Nat) : (s.memClear a n).time = s.time := rfl
@[simp] theorem State.memClear_net (s : State) (a n : Nat) : (s.memClear a n).net = s.net := rfl
@[simp] theorem State.memClear_scan (s : State) (a n : Nat) : (s.memClear a n).scan = s.scan := rfl
@[simp] theorem State.memClear_tuiper (s : State) (a n : Nat) : (s.memClear a n).tuiper = s.tuiper := rfl
@[simp] theorem State.memClear_fixture (s : State) (a n : Nat) : (s.memClear a n).fixture = s.fixture := rfl
@[simp] theorem State.memClear_lehr (s : State) (a n : Nat) : (s.memClear a n).lehr = s.lehr := rfl
@[simp] theorem State.memClear_cal (s : State) (a n : Nat) : (s.memClear a n).cal = s.cal := rfl
@[simp] theorem State.memClear_twin (s : State) (a n : Nat) : (s.memClear a n).twin = s.twin := rfl
@[simp] theorem State.memClear_free (s : State) (a n : Nat) : (s.memClear a n).free = s.free := rfl
@[simp] theorem State.memClear_pending (s : State) (a n : Nat) : (s.memClear a n).pending = s.pending := rfl

/-! `State.reply` -/

@[simp] theorem State.reply_commit (s : State) (r : Req) (c : Completion) : (s.reply r c).commit = s.commit := by cases r <;> rfl
@[simp] theorem State.reply_msix (s : State) (r : Req) (c : Completion) : (s.reply r c).msix = s.msix := by cases r <;> rfl
@[simp] theorem State.reply_power (s : State) (r : Req) (c : Completion) : (s.reply r c).power = s.power := by cases r <;> rfl
@[simp] theorem State.reply_gaffer (s : State) (r : Req) (c : Completion) : (s.reply r c).gaffer = s.gaffer := by cases r <;> rfl
@[simp] theorem State.reply_keepLog (s : State) (r : Req) (c : Completion) : (s.reply r c).keepLog = s.keepLog := by cases r <;> rfl
@[simp] theorem State.reply_dbg (s : State) (r : Req) (c : Completion) : (s.reply r c).dbg = s.dbg := by cases r <;> rfl
@[simp] theorem State.reply_lease (s : State) (r : Req) (c : Completion) : (s.reply r c).lease = s.lease := by cases r <;> rfl
@[simp] theorem State.reply_ingest (s : State) (r : Req) (c : Completion) : (s.reply r c).ingest = s.ingest := by cases r <;> rfl
@[simp] theorem State.reply_sched (s : State) (r : Req) (c : Completion) : (s.reply r c).sched = s.sched := by cases r <;> rfl
@[simp] theorem State.reply_marver (s : State) (r : Req) (c : Completion) : (s.reply r c).marver = s.marver := by cases r <;> rfl
@[simp] theorem State.reply_solver (s : State) (r : Req) (c : Completion) : (s.reply r c).solver = s.solver := by cases r <;> rfl
@[simp] theorem State.reply_loop (s : State) (r : Req) (c : Completion) : (s.reply r c).loop = s.loop := by cases r <;> rfl
@[simp] theorem State.reply_time (s : State) (r : Req) (c : Completion) : (s.reply r c).time = s.time := by cases r <;> rfl
@[simp] theorem State.reply_net (s : State) (r : Req) (c : Completion) : (s.reply r c).net = s.net := by cases r <;> rfl
@[simp] theorem State.reply_scan (s : State) (r : Req) (c : Completion) : (s.reply r c).scan = s.scan := by cases r <;> rfl
@[simp] theorem State.reply_tuiper (s : State) (r : Req) (c : Completion) : (s.reply r c).tuiper = s.tuiper := by cases r <;> rfl
@[simp] theorem State.reply_fixture (s : State) (r : Req) (c : Completion) : (s.reply r c).fixture = s.fixture := by cases r <;> rfl
@[simp] theorem State.reply_lehr (s : State) (r : Req) (c : Completion) : (s.reply r c).lehr = s.lehr := by cases r <;> rfl
@[simp] theorem State.reply_cal (s : State) (r : Req) (c : Completion) : (s.reply r c).cal = s.cal := by cases r <;> rfl
@[simp] theorem State.reply_twin (s : State) (r : Req) (c : Completion) : (s.reply r c).twin = s.twin := by cases r <;> rfl
@[simp] theorem State.reply_mem (s : State) (r : Req) (c : Completion) : (s.reply r c).mem = s.mem := by cases r <;> rfl
@[simp] theorem State.reply_free (s : State) (r : Req) (c : Completion) : (s.reply r c).free = s.free := by cases r <;> rfl
@[simp] theorem State.reply_pending (s : State) (r : Req) (c : Completion) : (s.reply r c).pending = s.pending := by cases r <;> rfl
@[simp] theorem State.reply_rf_live (s : State) (r : Req) (c : Completion) : (s.reply r c).rf.live = s.rf.live := by cases r <;> rfl
@[simp] theorem State.reply_rf_shadow (s : State) (r : Req) (c : Completion) : (s.reply r c).rf.shadow = s.rf.shadow := by cases r <;> rfl
@[simp] theorem State.reply_rf_pend (s : State) (r : Req) (c : Completion) : (s.reply r c).rf.pend = s.rf.pend := by cases r <;> rfl
@[simp] theorem State.reply_rf_active (s : State) (r : Req) (c : Completion) : (s.reply r c).rf.active = s.rf.active := by cases r <;> rfl
@[simp] theorem State.reply_rf_force (s : State) (r : Req) (c : Completion) : (s.reply r c).rf.force = s.rf.force := by cases r <;> rfl
@[simp] theorem State.reply_rf_prev (s : State) (r : Req) (c : Completion) : (s.reply r c).rf.prev = s.rf.prev := by cases r <;> rfl
@[simp] theorem State.reply_rf_snap (s : State) (r : Req) (c : Completion) : (s.reply r c).rf.snap = s.rf.snap := by cases r <;> rfl
@[simp] theorem State.reply_rf_bank (s : State) (r : Req) (c : Completion) : (s.reply r c).rf.bank = s.rf.bank := by cases r <;> rfl

/-! `State.fresh` and `State.memWrite` -/

@[simp] theorem State.fresh_rf (s : State) (n : Nat) : (s.fresh n).2.rf = s.rf := rfl
@[simp] theorem State.fresh_commit (s : State) (n : Nat) : (s.fresh n).2.commit = s.commit := rfl
@[simp] theorem State.fresh_msix (s : State) (n : Nat) : (s.fresh n).2.msix = s.msix := rfl
@[simp] theorem State.fresh_power (s : State) (n : Nat) : (s.fresh n).2.power = s.power := rfl
@[simp] theorem State.fresh_gaffer (s : State) (n : Nat) : (s.fresh n).2.gaffer = s.gaffer := rfl
@[simp] theorem State.fresh_keepLog (s : State) (n : Nat) : (s.fresh n).2.keepLog = s.keepLog := rfl
@[simp] theorem State.fresh_dbg (s : State) (n : Nat) : (s.fresh n).2.dbg = s.dbg := rfl
@[simp] theorem State.fresh_lease (s : State) (n : Nat) : (s.fresh n).2.lease = s.lease := rfl
@[simp] theorem State.fresh_ingest (s : State) (n : Nat) : (s.fresh n).2.ingest = s.ingest := rfl
@[simp] theorem State.fresh_sched (s : State) (n : Nat) : (s.fresh n).2.sched = s.sched := rfl
@[simp] theorem State.fresh_marver (s : State) (n : Nat) : (s.fresh n).2.marver = s.marver := rfl
@[simp] theorem State.fresh_solver (s : State) (n : Nat) : (s.fresh n).2.solver = s.solver := rfl
@[simp] theorem State.fresh_loop (s : State) (n : Nat) : (s.fresh n).2.loop = s.loop := rfl
@[simp] theorem State.fresh_time (s : State) (n : Nat) : (s.fresh n).2.time = s.time := rfl
@[simp] theorem State.fresh_net (s : State) (n : Nat) : (s.fresh n).2.net = s.net := rfl
@[simp] theorem State.fresh_scan (s : State) (n : Nat) : (s.fresh n).2.scan = s.scan := rfl
@[simp] theorem State.fresh_tuiper (s : State) (n : Nat) : (s.fresh n).2.tuiper = s.tuiper := rfl
@[simp] theorem State.fresh_fixture (s : State) (n : Nat) : (s.fresh n).2.fixture = s.fixture := rfl
@[simp] theorem State.fresh_lehr (s : State) (n : Nat) : (s.fresh n).2.lehr = s.lehr := rfl
@[simp] theorem State.fresh_cal (s : State) (n : Nat) : (s.fresh n).2.cal = s.cal := rfl
@[simp] theorem State.fresh_twin (s : State) (n : Nat) : (s.fresh n).2.twin = s.twin := rfl
@[simp] theorem State.fresh_mem (s : State) (n : Nat) : (s.fresh n).2.mem = s.mem := rfl
@[simp] theorem State.fresh_pending (s : State) (n : Nat) : (s.fresh n).2.pending = s.pending := rfl
@[simp] theorem State.fresh_free (s : State) (n : Nat) : (s.fresh n).2.free = s.free + 1 := rfl
@[simp] theorem State.memWrite_rf (l : List Byte) (s : State) (a : Nat) : (s.memWrite a l).rf = s.rf := by
  induction l generalizing s a with
  | nil => rfl
  | cons b l ih => simp [State.memWrite, ih]
@[simp] theorem State.memWrite_commit (l : List Byte) (s : State) (a : Nat) : (s.memWrite a l).commit = s.commit := by
  induction l generalizing s a with
  | nil => rfl
  | cons b l ih => simp [State.memWrite, ih]
@[simp] theorem State.memWrite_msix (l : List Byte) (s : State) (a : Nat) : (s.memWrite a l).msix = s.msix := by
  induction l generalizing s a with
  | nil => rfl
  | cons b l ih => simp [State.memWrite, ih]
@[simp] theorem State.memWrite_power (l : List Byte) (s : State) (a : Nat) : (s.memWrite a l).power = s.power := by
  induction l generalizing s a with
  | nil => rfl
  | cons b l ih => simp [State.memWrite, ih]
@[simp] theorem State.memWrite_gaffer (l : List Byte) (s : State) (a : Nat) : (s.memWrite a l).gaffer = s.gaffer := by
  induction l generalizing s a with
  | nil => rfl
  | cons b l ih => simp [State.memWrite, ih]
@[simp] theorem State.memWrite_keepLog (l : List Byte) (s : State) (a : Nat) : (s.memWrite a l).keepLog = s.keepLog := by
  induction l generalizing s a with
  | nil => rfl
  | cons b l ih => simp [State.memWrite, ih]
@[simp] theorem State.memWrite_dbg (l : List Byte) (s : State) (a : Nat) : (s.memWrite a l).dbg = s.dbg := by
  induction l generalizing s a with
  | nil => rfl
  | cons b l ih => simp [State.memWrite, ih]
@[simp] theorem State.memWrite_lease (l : List Byte) (s : State) (a : Nat) : (s.memWrite a l).lease = s.lease := by
  induction l generalizing s a with
  | nil => rfl
  | cons b l ih => simp [State.memWrite, ih]
@[simp] theorem State.memWrite_ingest (l : List Byte) (s : State) (a : Nat) : (s.memWrite a l).ingest = s.ingest := by
  induction l generalizing s a with
  | nil => rfl
  | cons b l ih => simp [State.memWrite, ih]
@[simp] theorem State.memWrite_sched (l : List Byte) (s : State) (a : Nat) : (s.memWrite a l).sched = s.sched := by
  induction l generalizing s a with
  | nil => rfl
  | cons b l ih => simp [State.memWrite, ih]
@[simp] theorem State.memWrite_marver (l : List Byte) (s : State) (a : Nat) : (s.memWrite a l).marver = s.marver := by
  induction l generalizing s a with
  | nil => rfl
  | cons b l ih => simp [State.memWrite, ih]
@[simp] theorem State.memWrite_solver (l : List Byte) (s : State) (a : Nat) : (s.memWrite a l).solver = s.solver := by
  induction l generalizing s a with
  | nil => rfl
  | cons b l ih => simp [State.memWrite, ih]
@[simp] theorem State.memWrite_loop (l : List Byte) (s : State) (a : Nat) : (s.memWrite a l).loop = s.loop := by
  induction l generalizing s a with
  | nil => rfl
  | cons b l ih => simp [State.memWrite, ih]
@[simp] theorem State.memWrite_time (l : List Byte) (s : State) (a : Nat) : (s.memWrite a l).time = s.time := by
  induction l generalizing s a with
  | nil => rfl
  | cons b l ih => simp [State.memWrite, ih]
@[simp] theorem State.memWrite_net (l : List Byte) (s : State) (a : Nat) : (s.memWrite a l).net = s.net := by
  induction l generalizing s a with
  | nil => rfl
  | cons b l ih => simp [State.memWrite, ih]
@[simp] theorem State.memWrite_scan (l : List Byte) (s : State) (a : Nat) : (s.memWrite a l).scan = s.scan := by
  induction l generalizing s a with
  | nil => rfl
  | cons b l ih => simp [State.memWrite, ih]
@[simp] theorem State.memWrite_tuiper (l : List Byte) (s : State) (a : Nat) : (s.memWrite a l).tuiper = s.tuiper := by
  induction l generalizing s a with
  | nil => rfl
  | cons b l ih => simp [State.memWrite, ih]
@[simp] theorem State.memWrite_fixture (l : List Byte) (s : State) (a : Nat) : (s.memWrite a l).fixture = s.fixture := by
  induction l generalizing s a with
  | nil => rfl
  | cons b l ih => simp [State.memWrite, ih]
@[simp] theorem State.memWrite_lehr (l : List Byte) (s : State) (a : Nat) : (s.memWrite a l).lehr = s.lehr := by
  induction l generalizing s a with
  | nil => rfl
  | cons b l ih => simp [State.memWrite, ih]
@[simp] theorem State.memWrite_cal (l : List Byte) (s : State) (a : Nat) : (s.memWrite a l).cal = s.cal := by
  induction l generalizing s a with
  | nil => rfl
  | cons b l ih => simp [State.memWrite, ih]
@[simp] theorem State.memWrite_twin (l : List Byte) (s : State) (a : Nat) : (s.memWrite a l).twin = s.twin := by
  induction l generalizing s a with
  | nil => rfl
  | cons b l ih => simp [State.memWrite, ih]
@[simp] theorem State.memWrite_free (l : List Byte) (s : State) (a : Nat) : (s.memWrite a l).free = s.free := by
  induction l generalizing s a with
  | nil => rfl
  | cons b l ih => simp [State.memWrite, ih]
@[simp] theorem State.memWrite_pending (l : List Byte) (s : State) (a : Nat) : (s.memWrite a l).pending = s.pending := by
  induction l generalizing s a with
  | nil => rfl
  | cons b l ih => simp [State.memWrite, ih]

/-! ### Reading after writing -/

theorem State.rd_wr (s : State) (a b : Nat) (v : Word) : (s.wr a v).rd b = if b = a then v else s.rd b := amGet_set resetOf _ _ _ _

@[simp] theorem State.rd_wr_same (s : State) (a : Nat) (v : Word) : (s.wr a v).rd a = v := by simp [State.rd_wr]

theorem State.rd_wr_ne (s : State) {a b : Nat} (v : Word) (h : b ≠ a) : (s.wr a v).rd b = s.rd b := by simp [State.rd_wr, h]

theorem State.rd_put_ne (s : State) {a b : Nat} (f : Fld) (v : Nat) (h : b ≠ a) : (s.put a f v).rd b = s.rd b := s.rd_wr_ne _ h

theorem State.shd_wrShadow (s : State) (a b : Nat) (v : Word) : (s.wrShadow a v).shd b = if b = a then v else s.shd b :=
  amGet_set resetOf _ _ _ _

@[simp] theorem State.rd_reply (s : State) (r : Req) (c : Completion) (a : Nat) : (s.reply r c).rd a = s.rd a := by
  cases r <;> rfl

@[simp] theorem State.bank_setBank (s : State) (a k : Nat) (r : Req) (v : Word) : (s.setBank a k r v).bank a k r = v :=
  amGet_set_same _ _ _ _

theorem State.memB_memWB (s : State) (a b : Nat) (v : Byte) : (s.memWB a v).memB b = if b = a then v else s.memB b :=
  amGet_set memDefault _ _ _ _

/-- A byte outside those written reads as before. -/
theorem State.memB_memWrite_out (l : List Byte) (s : State) (a b : Nat) (h : b < a ∨ a + l.length ≤ b) :
    (s.memWrite a l).memB b = s.memB b := by
  induction l generalizing s a with
  | nil => rfl
  | cons v l ih =>
    simp only [List.length_cons] at h
    rw [State.memWrite, ih _ _ (by omega), State.memB_memWB, if_neg (by omega)]

/-- A byte written reads as it was written. -/
theorem State.memB_memWrite_in (l : List Byte) (s : State) (a i : Nat) (h : i < l.length) :
    (s.memWrite a l).memB (a + i) = l[i] := by
  induction l generalizing s a i with
  | nil => simp at h
  | cons v l ih =>
    cases i with
    | zero => rw [State.memWrite, State.memB_memWrite_out _ _ _ _ (by omega), State.memB_memWB]; simp
    | succ i =>
      have := ih (s.memWB a v) (a + 1) i (by simpa using h)
      rw [State.memWrite]
      simpa [Nat.add_assoc, Nat.add_comm 1 i] using this

/-! ### The canonical form of memory -/

theorem State.memWB_wf (s : State) (a : Nat) (b : Byte) (h : Memory.wf s.mem) : Memory.wf (s.memWB a b).mem := amWf_set _ _ _ _ h

theorem State.memWrite_wf (l : List Byte) (s : State) (a : Nat) (h : Memory.wf s.mem) : Memory.wf (s.memWrite a l).mem := by
  induction l generalizing s a with
  | nil => exact h
  | cons b l ih => exact ih _ _ (s.memWB_wf a b h)

theorem State.memW_wf (s : State) (a n v : Nat) (h : Memory.wf s.mem) : Memory.wf (s.memW a n v).mem := s.memWrite_wf _ a h

theorem State.memClear_wf (s : State) (a n : Nat) (h : Memory.wf s.mem) : Memory.wf (s.memClear a n).mem := amWf_filter _ _ _ h

end Sys2Proof.Machine
end

