-- ==== Sys2Proof/Laws/Irq.lean ====
section
/-!
SUPPORT. What events, interrupts, guard records and injections leave of the state: they write live registers and the message table
only. And what the interrupt logic leaves: INT_PEND and the vectors' levels agree with the enabled events (R58, R59).
-/
namespace Sys2Proof.Machine

/-! ### `vecStep` -/

theorem State.sendVector_eq (s : State) (v : Nat) : ∃ m : Msix, s.sendVector v = { s with msix := m } ∧ m.level = s.msix.level := by
  unfold State.sendVector; split <;> exact ⟨_, rfl, rfl⟩

theorem State.vecStep_eq (s : State) (v : Nat) (b : Bool) : ∃ m : Msix, s.vecStep v b = { s with msix := m } ∧
    (v < 64 → ∀ i, i < 64 → m.level.getLsbD i = if i = v then b else s.msix.level.getLsbD i) := by
  have hx : ∀ (l : Cell), v < 64 → ∀ i, i < 64 → (l ^^^ (1 <<< v : Cell)).getLsbD i = (l.getLsbD i ^^ decide (i = v)) := by
    intro l hv i hi
    have h1 : ((1 <<< v : Cell)).getLsbD i = decide (i = v) := by
      rw [BitVec.natCast_eq_ofNat, BitVec.getLsbD_ofNat, Nat.one_shiftLeft, Nat.testBit_two_pow]
      simp [hi, eq_comm]
    rw [BitVec.getLsbD_xor, h1]
  unfold State.vecStep
  split
  · rename_i h
    refine ⟨s.msix, rfl, fun _ i _ => ?_⟩
    split
    · rename_i e; rw [e, h]
    · rfl
  · rename_i h
    cases b with
    | true =>
      obtain ⟨m, hm, hl⟩ := s.sendVector_eq v
      simp only [if_true, hm]
      refine ⟨_, rfl, fun hv i hi => ?_⟩
      simp only [hl]
      rw [hx _ hv i hi]
      by_cases e : i = v
      · subst e; cases hh : s.msix.level.getLsbD i <;> simp_all
      · simp [e]
    | false =>
      refine ⟨_, rfl, fun hv i hi => ?_⟩
      simp only [Bool.false_eq_true, if_false]
      rw [hx _ hv i hi]
      by_cases e : i = v
      · subst e; cases hh : s.msix.level.getLsbD i <;> simp_all
      · simp [e]

/-- Taking the new level of each vector of a list: the message table changes, and its levels are the new ones. -/
theorem vecSteps_eq (lvl : State → Nat → Bool)
    (l : List Nat) (s : State) (hlt : ∀ v ∈ l, v < 64) :
    ∃ m : Msix, l.foldl (fun t v => t.vecStep v (lvl s v)) s = { s with msix := m } ∧
      ∀ i, i < 64 → m.level.getLsbD i = if i ∈ l then lvl s i else s.msix.level.getLsbD i := by
  have key : ∀ (l : List Nat) (t : State), (∀ v ∈ l, v < 64) →
      ∃ m : Msix, l.foldl (fun t v => t.vecStep v (lvl s v)) t = { t with msix := m } ∧
        ∀ i, i < 64 → m.level.getLsbD i = if i ∈ l then lvl s i else t.msix.level.getLsbD i := by
    intro l
    induction l with
    | nil => intro t _; exact ⟨t.msix, rfl, by simp⟩
    | cons v l ih =>
      intro t h
      obtain ⟨m, hm, hb⟩ := t.vecStep_eq v (lvl s v)
      obtain ⟨m', hm', hb'⟩ := ih { t with msix := m } (fun x hx => h x (by simp [hx]))
      refine ⟨m', by rw [List.foldl_cons, hm, hm'], fun i hi => ?_⟩
      rw [hb' i hi]
      by_cases e : i ∈ l
      · simp [e]
      · simp only [e, if_false, List.mem_cons, or_false]
        rw [hb (h v (by simp)) i hi]
        by_cases e2 : i = v <;> simp [e2]
  exact key l s hlt

/-! ### `irqSync` -/

theorem foldl_wr_eq (f : Nat → Nat) (g : Nat → Word) (l : List Nat) (s : State) :
    ∃ m, l.foldl (fun t k => t.wr (f k) (g k)) s = { s with rf := { s.rf with live := m } } := by
  induction l generalizing s with
  | nil => exact ⟨_, rfl⟩
  | cons k l ih => obtain ⟨m, hm⟩ := ih (s.wr (f k) (g k)); exact ⟨m, by rw [List.foldl_cons, hm]; rfl⟩

/-- The interrupt logic changes live registers and the message table only. -/
theorem State.irqSync_eq (s : State) : ∃ m x, s.irqSync = { s with rf := { s.rf with live := m }, msix := x } := by
  obtain ⟨x, hx, -⟩ := vecSteps_eq (fun s v => s.vecLevel v s.pendPages) (List.range 64) s (by simp)
  obtain ⟨m, hm⟩ := foldl_wr_eq A.SYS_INT_PEND (intPendWord s.pendPages) (List.range 16) { s with msix := x }
  refine ⟨m, x, ?_⟩
  unfold State.irqSync
  simp only at hx ⊢
  have : (List.range 64).foldl (fun t v => t.vecStep v (s.vecLevel v s.pendPages)) s = { s with msix := x } := hx
  rw [this, hm]


/-! `irqSync` -/

@[simp] theorem State.irqSync_commit (s : State)  : (s.irqSync ).commit = s.commit := by
  obtain ⟨m, x, h⟩ := s.irqSync_eq ; rw [h]
@[simp] theorem State.irqSync_power (s : State)  : (s.irqSync ).power = s.power := by
  obtain ⟨m, x, h⟩ := s.irqSync_eq ; rw [h]
@[simp] theorem State.irqSync_gaffer (s : State)  : (s.irqSync ).gaffer = s.gaffer := by
  obtain ⟨m, x, h⟩ := s.irqSync_eq ; rw [h]
@[simp] theorem State.irqSync_keepLog (s : State)  : (s.irqSync ).keepLog = s.keepLog := by
  obtain ⟨m, x, h⟩ := s.irqSync_eq ; rw [h]
@[simp] theorem State.irqSync_dbg (s : State)  : (s.irqSync ).dbg = s.dbg := by
  obtain ⟨m, x, h⟩ := s.irqSync_eq ; rw [h]
@[simp] theorem State.irqSync_lease (s : State)  : (s.irqSync ).lease = s.lease := by
  obtain ⟨m, x, h⟩ := s.irqSync_eq ; rw [h]
@[simp] theorem State.irqSync_ingest (s : State)  : (s.irqSync ).ingest = s.ingest := by
  obtain ⟨m, x, h⟩ := s.irqSync_eq ; rw [h]
@[simp] theorem State.irqSync_sched (s : State)  : (s.irqSync ).sched = s.sched := by
  obtain ⟨m, x, h⟩ := s.irqSync_eq ; rw [h]
@[simp] theorem State.irqSync_marver (s : State)  : (s.irqSync ).marver = s.marver := by
  obtain ⟨m, x, h⟩ := s.irqSync_eq ; rw [h]
@[simp] theorem State.irqSync_solver (s : State)  : (s.irqSync ).solver = s.solver := by
  obtain ⟨m, x, h⟩ := s.irqSync_eq ; rw [h]
@[simp] theorem State.irqSync_loop (s : State)  : (s.irqSync ).loop = s.loop := by
  obtain ⟨m, x, h⟩ := s.irqSync_eq ; rw [h]
@[simp] theorem State.irqSync_time (s : State)  : (s.irqSync ).time = s.time := by
  obtain ⟨m, x, h⟩ := s.irqSync_eq ; rw [h]
@[simp] theorem State.irqSync_net (s : State)  : (s.irqSync ).net = s.net := by
  obtain ⟨m, x, h⟩ := s.irqSync_eq ; rw [h]
@[simp] theorem State.irqSync_scan (s : State)  : (s.irqSync ).scan = s.scan := by
  obtain ⟨m, x, h⟩ := s.irqSync_eq ; rw [h]
@[simp] theorem State.irqSync_tuiper (s : State)  : (s.irqSync ).tuiper = s.tuiper := by
  obtain ⟨m, x, h⟩ := s.irqSync_eq ; rw [h]
@[simp] theorem State.irqSync_fixture (s : State)  : (s.irqSync ).fixture = s.fixture := by
  obtain ⟨m, x, h⟩ := s.irqSync_eq ; rw [h]
@[simp] theorem State.irqSync_lehr (s : State)  : (s.irqSync ).lehr = s.lehr := by
  obtain ⟨m, x, h⟩ := s.irqSync_eq ; rw [h]
@[simp] theorem State.irqSync_cal (s : State)  : (s.irqSync ).cal = s.cal := by
  obtain ⟨m, x, h⟩ := s.irqSync_eq ; rw [h]
@[simp] theorem State.irqSync_twin (s : State)  : (s.irqSync ).twin = s.twin := by
  obtain ⟨m, x, h⟩ := s.irqSync_eq ; rw [h]
@[simp] theorem State.irqSync_mem (s : State)  : (s.irqSync ).mem = s.mem := by
  obtain ⟨m, x, h⟩ := s.irqSync_eq ; rw [h]
@[simp] theorem State.irqSync_free (s : State)  : (s.irqSync ).free = s.free := by
  obtain ⟨m, x, h⟩ := s.irqSync_eq ; rw [h]
@[simp] theorem State.irqSync_pending (s : State)  : (s.irqSync ).pending = s.pending := by
  obtain ⟨m, x, h⟩ := s.irqSync_eq ; rw [h]
@[simp] theorem State.irqSync_rf_shadow (s : State)  : (s.irqSync ).rf.shadow = s.rf.shadow := by
  obtain ⟨m, x, h⟩ := s.irqSync_eq ; rw [h]
@[simp] theorem State.irqSync_rf_pend (s : State)  : (s.irqSync ).rf.pend = s.rf.pend := by
  obtain ⟨m, x, h⟩ := s.irqSync_eq ; rw [h]
@[simp] theorem State.irqSync_rf_active (s : State)  : (s.irqSync ).rf.active = s.rf.active := by
  obtain ⟨m, x, h⟩ := s.irqSync_eq ; rw [h]
@[simp] theorem State.irqSync_rf_force (s : State)  : (s.irqSync ).rf.force = s.rf.force := by
  obtain ⟨m, x, h⟩ := s.irqSync_eq ; rw [h]
@[simp] theorem State.irqSync_rf_prev (s : State)  : (s.irqSync ).rf.prev = s.rf.prev := by
  obtain ⟨m, x, h⟩ := s.irqSync_eq ; rw [h]
@[simp] theorem State.irqSync_rf_snap (s : State)  : (s.irqSync ).rf.snap = s.rf.snap := by
  obtain ⟨m, x, h⟩ := s.irqSync_eq ; rw [h]
@[simp] theorem State.irqSync_rf_bank (s : State)  : (s.irqSync ).rf.bank = s.rf.bank := by
  obtain ⟨m, x, h⟩ := s.irqSync_eq ; rw [h]
@[simp] theorem State.irqSync_rf_hostReply (s : State)  : (s.irqSync ).rf.hostReply = s.rf.hostReply := by
  obtain ⟨m, x, h⟩ := s.irqSync_eq ; rw [h]
@[simp] theorem State.irqSync_rf_gafferReply (s : State)  : (s.irqSync ).rf.gafferReply = s.rf.gafferReply := by
  obtain ⟨m, x, h⟩ := s.irqSync_eq ; rw [h]

/-- An operation that changes live registers and the message table only, followed by another. -/
theorem live_eq_trans {s t u : State} (h : ∃ m x, t = { s with rf := { s.rf with live := m }, msix := x })
    (h' : ∃ m x, u = { t with rf := { t.rf with live := m }, msix := x }) :
    ∃ m x, u = { s with rf := { s.rf with live := m }, msix := x } := by
  obtain ⟨m, x, rfl⟩ := h; obtain ⟨m', x', rfl⟩ := h'; exact ⟨m', x', rfl⟩

theorem State.wr_eq (s : State) (a : Nat) (v : Word) : ∃ m x, s.wr a v = { s with rf := { s.rf with live := m }, msix := x } :=
  ⟨_, s.msix, rfl⟩

theorem State.put_eq (s : State) (a : Nat) (f : Fld) (v : Nat) :
    ∃ m x, s.put a f v = { s with rf := { s.rf with live := m }, msix := x } := s.wr_eq a _

theorem State.add_eq (s : State) (a : Nat) (f : Fld) (v : Nat) :
    ∃ m x, s.add a f v = { s with rf := { s.rf with live := m }, msix := x } := s.put_eq a f _

theorem State.raise_eq (s : State) (p b : Nat) : ∃ m x, s.raise p b = { s with rf := { s.rf with live := m }, msix := x } := by
  unfold State.raise
  refine live_eq_trans ?_ (State.irqSync_eq _)
  refine live_eq_trans ?_ (State.put_eq _ _ _ _)
  split
  · exact State.put_eq _ _ _ _
  · exact ⟨_, _, rfl⟩

theorem State.raiseIf_eq (s : State) (c : Bool) (p b : Nat) :
    ∃ m x, s.raiseIf c p b = { s with rf := { s.rf with live := m }, msix := x } := by
  unfold State.raiseIf; split
  · exact s.raise_eq p b
  · exact ⟨_, _, rfl⟩

theorem State.setFault_eq (s : State) (p : Nat) (b : Bool) :
    ∃ m x, s.setFault p b = { s with rf := { s.rf with live := m }, msix := x } :=
  live_eq_trans (State.put_eq _ _ _ _) (State.raiseIf_eq _ _ _ _)

theorem raises_eq {α : Type} (p b : Nat) (l : List α) (s : State) :
    ∃ m x, l.foldl (fun (t : State) _ => t.raise p b) s = { s with rf := { s.rf with live := m }, msix := x } := by
  induction l generalizing s with
  | nil => exact ⟨_, _, rfl⟩
  | cons k l ih => exact live_eq_trans (s.raise_eq p b) (ih _)

theorem State.guardActs_eq (s : State) (p : Nat) (l : List GAct) :
    ∃ m x, s.guardActs p l = { s with rf := { s.rf with live := m }, msix := x } := by
  unfold State.guardActs
  split
  · exact ⟨_, _, rfl⟩
  · exact live_eq_trans (live_eq_trans (State.wr_eq _ _ _) (State.add_eq _ _ _ _)) (raises_eq p 31 l _)

theorem State.guard1_eq (s : State) (p k c : Nat) (b : Option Nat) :
    ∃ m x, s.guard1 p k c b = { s with rf := { s.rf with live := m }, msix := x } := s.guardActs_eq p _

theorem State.inc_eq (s : State) (a : Nat) : ∃ m x, s.inc a = { s with rf := { s.rf with live := m }, msix := x } := by
  unfold State.inc; exact s.add_eq a _ 1

theorem State.injTake_eq (s : State) (p b : Nat) : ∃ m x, s.injTake p b = { s with rf := { s.rf with live := m }, msix := x } := by
  unfold State.injTake
  refine live_eq_trans ?_ (State.raise_eq _ _ _)
  refine live_eq_trans ?_ (State.wr_eq _ _ _)
  refine live_eq_trans ?_ (State.inc_eq _ _)
  exact State.put_eq _ _ _ _


/-! `raise` -/

@[simp] theorem State.raise_commit (s : State) (p b : Nat) : (s.raise p b).commit = s.commit := by
  obtain ⟨m, x, h⟩ := s.raise_eq p b; rw [h]
@[simp] theorem State.raise_power (s : State) (p b : Nat) : (s.raise p b).power = s.power := by
  obtain ⟨m, x, h⟩ := s.raise_eq p b; rw [h]
@[simp] theorem State.raise_gaffer (s : State) (p b : Nat) : (s.raise p b).gaffer = s.gaffer := by
  obtain ⟨m, x, h⟩ := s.raise_eq p b; rw [h]
@[simp] theorem State.raise_keepLog (s : State) (p b : Nat) : (s.raise p b).keepLog = s.keepLog := by
  obtain ⟨m, x, h⟩ := s.raise_eq p b; rw [h]
@[simp] theorem State.raise_dbg (s : State) (p b : Nat) : (s.raise p b).dbg = s.dbg := by
  obtain ⟨m, x, h⟩ := s.raise_eq p b; rw [h]
@[simp] theorem State.raise_lease (s : State) (p b : Nat) : (s.raise p b).lease = s.lease := by
  obtain ⟨m, x, h⟩ := s.raise_eq p b; rw [h]
@[simp] theorem State.raise_ingest (s : State) (p b : Nat) : (s.raise p b).ingest = s.ingest := by
  obtain ⟨m, x, h⟩ := s.raise_eq p b; rw [h]
@[simp] theorem State.raise_sched (s : State) (p b : Nat) : (s.raise p b).sched = s.sched := by
  obtain ⟨m, x, h⟩ := s.raise_eq p b; rw [h]
@[simp] theorem State.raise_marver (s : State) (p b : Nat) : (s.raise p b).marver = s.marver := by
  obtain ⟨m, x, h⟩ := s.raise_eq p b; rw [h]
@[simp] theorem State.raise_solver (s : State) (p b : Nat) : (s.raise p b).solver = s.solver := by
  obtain ⟨m, x, h⟩ := s.raise_eq p b; rw [h]
@[simp] theorem State.raise_loop (s : State) (p b : Nat) : (s.raise p b).loop = s.loop := by
  obtain ⟨m, x, h⟩ := s.raise_eq p b; rw [h]
@[simp] theorem State.raise_time (s : State) (p b : Nat) : (s.raise p b).time = s.time := by
  obtain ⟨m, x, h⟩ := s.raise_eq p b; rw [h]
@[simp] theorem State.raise_net (s : State) (p b : Nat) : (s.raise p b).net = s.net := by
  obtain ⟨m, x, h⟩ := s.raise_eq p b; rw [h]
@[simp] theorem State.raise_scan (s : State) (p b : Nat) : (s.raise p b).scan = s.scan := by
  obtain ⟨m, x, h⟩ := s.raise_eq p b; rw [h]
@[simp] theorem State.raise_tuiper (s : State) (p b : Nat) : (s.raise p b).tuiper = s.tuiper := by
  obtain ⟨m, x, h⟩ := s.raise_eq p b; rw [h]
@[simp] theorem State.raise_fixture (s : State) (p b : Nat) : (s.raise p b).fixture = s.fixture := by
  obtain ⟨m, x, h⟩ := s.raise_eq p b; rw [h]
@[simp] theorem State.raise_lehr (s : State) (p b : Nat) : (s.raise p b).lehr = s.lehr := by
  obtain ⟨m, x, h⟩ := s.raise_eq p b; rw [h]
@[simp] theorem State.raise_cal (s : State) (p b : Nat) : (s.raise p b).cal = s.cal := by
  obtain ⟨m, x, h⟩ := s.raise_eq p b; rw [h]
@[simp] theorem State.raise_twin (s : State) (p b : Nat) : (s.raise p b).twin = s.twin := by
  obtain ⟨m, x, h⟩ := s.raise_eq p b; rw [h]
@[simp] theorem State.raise_mem (s : State) (p b : Nat) : (s.raise p b).mem = s.mem := by
  obtain ⟨m, x, h⟩ := s.raise_eq p b; rw [h]
@[simp] theorem State.raise_free (s : State) (p b : Nat) : (s.raise p b).free = s.free := by
  obtain ⟨m, x, h⟩ := s.raise_eq p b; rw [h]
@[simp] theorem State.raise_pending (s : State) (p b : Nat) : (s.raise p b).pending = s.pending := by
  obtain ⟨m, x, h⟩ := s.raise_eq p b; rw [h]
@[simp] theorem State.raise_rf_shadow (s : State) (p b : Nat) : (s.raise p b).rf.shadow = s.rf.shadow := by
  obtain ⟨m, x, h⟩ := s.raise_eq p b; rw [h]
@[simp] theorem State.raise_rf_pend (s : State) (p b : Nat) : (s.raise p b).rf.pend = s.rf.pend := by
  obtain ⟨m, x, h⟩ := s.raise_eq p b; rw [h]
@[simp] theorem State.raise_rf_active (s : State) (p b : Nat) : (s.raise p b).rf.active = s.rf.active := by
  obtain ⟨m, x, h⟩ := s.raise_eq p b; rw [h]
@[simp] theorem State.raise_rf_force (s : State) (p b : Nat) : (s.raise p b).rf.force = s.rf.force := by
  obtain ⟨m, x, h⟩ := s.raise_eq p b; rw [h]
@[simp] theorem State.raise_rf_prev (s : State) (p b : Nat) : (s.raise p b).rf.prev = s.rf.prev := by
  obtain ⟨m, x, h⟩ := s.raise_eq p b; rw [h]
@[simp] theorem State.raise_rf_snap (s : State) (p b : Nat) : (s.raise p b).rf.snap = s.rf.snap := by
  obtain ⟨m, x, h⟩ := s.raise_eq p b; rw [h]
@[simp] theorem State.raise_rf_bank (s : State) (p b : Nat) : (s.raise p b).rf.bank = s.rf.bank := by
  obtain ⟨m, x, h⟩ := s.raise_eq p b; rw [h]
@[simp] theorem State.raise_rf_hostReply (s : State) (p b : Nat) : (s.raise p b).rf.hostReply = s.rf.hostReply := by
  obtain ⟨m, x, h⟩ := s.raise_eq p b; rw [h]
@[simp] theorem State.raise_rf_gafferReply (s : State) (p b : Nat) : (s.raise p b).rf.gafferReply = s.rf.gafferReply := by
  obtain ⟨m, x, h⟩ := s.raise_eq p b; rw [h]

/-! `raiseIf` -/

@[simp] theorem State.raiseIf_commit (s : State) (c : Bool) (p b : Nat) : (s.raiseIf c p b).commit = s.commit := by
  obtain ⟨m, x, h⟩ := s.raiseIf_eq c p b; rw [h]
@[simp] theorem State.raiseIf_power (s : State) (c : Bool) (p b : Nat) : (s.raiseIf c p b).power = s.power := by
  obtain ⟨m, x, h⟩ := s.raiseIf_eq c p b; rw [h]
@[simp] theorem State.raiseIf_gaffer (s : State) (c : Bool) (p b : Nat) : (s.raiseIf c p b).gaffer = s.gaffer := by
  obtain ⟨m, x, h⟩ := s.raiseIf_eq c p b; rw [h]
@[simp] theorem State.raiseIf_keepLog (s : State) (c : Bool) (p b : Nat) : (s.raiseIf c p b).keepLog = s.keepLog := by
  obtain ⟨m, x, h⟩ := s.raiseIf_eq c p b; rw [h]
@[simp] theorem State.raiseIf_dbg (s : State) (c : Bool) (p b : Nat) : (s.raiseIf c p b).dbg = s.dbg := by
  obtain ⟨m, x, h⟩ := s.raiseIf_eq c p b; rw [h]
@[simp] theorem State.raiseIf_lease (s : State) (c : Bool) (p b : Nat) : (s.raiseIf c p b).lease = s.lease := by
  obtain ⟨m, x, h⟩ := s.raiseIf_eq c p b; rw [h]
@[simp] theorem State.raiseIf_ingest (s : State) (c : Bool) (p b : Nat) : (s.raiseIf c p b).ingest = s.ingest := by
  obtain ⟨m, x, h⟩ := s.raiseIf_eq c p b; rw [h]
@[simp] theorem State.raiseIf_sched (s : State) (c : Bool) (p b : Nat) : (s.raiseIf c p b).sched = s.sched := by
  obtain ⟨m, x, h⟩ := s.raiseIf_eq c p b; rw [h]
@[simp] theorem State.raiseIf_marver (s : State) (c : Bool) (p b : Nat) : (s.raiseIf c p b).marver = s.marver := by
  obtain ⟨m, x, h⟩ := s.raiseIf_eq c p b; rw [h]
@[simp] theorem State.raiseIf_solver (s : State) (c : Bool) (p b : Nat) : (s.raiseIf c p b).solver = s.solver := by
  obtain ⟨m, x, h⟩ := s.raiseIf_eq c p b; rw [h]
@[simp] theorem State.raiseIf_loop (s : State) (c : Bool) (p b : Nat) : (s.raiseIf c p b).loop = s.loop := by
  obtain ⟨m, x, h⟩ := s.raiseIf_eq c p b; rw [h]
@[simp] theorem State.raiseIf_time (s : State) (c : Bool) (p b : Nat) : (s.raiseIf c p b).time = s.time := by
  obtain ⟨m, x, h⟩ := s.raiseIf_eq c p b; rw [h]
@[simp] theorem State.raiseIf_net (s : State) (c : Bool) (p b : Nat) : (s.raiseIf c p b).net = s.net := by
  obtain ⟨m, x, h⟩ := s.raiseIf_eq c p b; rw [h]
@[simp] theorem State.raiseIf_scan (s : State) (c : Bool) (p b : Nat) : (s.raiseIf c p b).scan = s.scan := by
  obtain ⟨m, x, h⟩ := s.raiseIf_eq c p b; rw [h]
@[simp] theorem State.raiseIf_tuiper (s : State) (c : Bool) (p b : Nat) : (s.raiseIf c p b).tuiper = s.tuiper := by
  obtain ⟨m, x, h⟩ := s.raiseIf_eq c p b; rw [h]
@[simp] theorem State.raiseIf_fixture (s : State) (c : Bool) (p b : Nat) : (s.raiseIf c p b).fixture = s.fixture := by
  obtain ⟨m, x, h⟩ := s.raiseIf_eq c p b; rw [h]
@[simp] theorem State.raiseIf_lehr (s : State) (c : Bool) (p b : Nat) : (s.raiseIf c p b).lehr = s.lehr := by
  obtain ⟨m, x, h⟩ := s.raiseIf_eq c p b; rw [h]
@[simp] theorem State.raiseIf_cal (s : State) (c : Bool) (p b : Nat) : (s.raiseIf c p b).cal = s.cal := by
  obtain ⟨m, x, h⟩ := s.raiseIf_eq c p b; rw [h]
@[simp] theorem State.raiseIf_twin (s : State) (c : Bool) (p b : Nat) : (s.raiseIf c p b).twin = s.twin := by
  obtain ⟨m, x, h⟩ := s.raiseIf_eq c p b; rw [h]
@[simp] theorem State.raiseIf_mem (s : State) (c : Bool) (p b : Nat) : (s.raiseIf c p b).mem = s.mem := by
  obtain ⟨m, x, h⟩ := s.raiseIf_eq c p b; rw [h]
@[simp] theorem State.raiseIf_free (s : State) (c : Bool) (p b : Nat) : (s.raiseIf c p b).free = s.free := by
  obtain ⟨m, x, h⟩ := s.raiseIf_eq c p b; rw [h]
@[simp] theorem State.raiseIf_pending (s : State) (c : Bool) (p b : Nat) : (s.raiseIf c p b).pending = s.pending := by
  obtain ⟨m, x, h⟩ := s.raiseIf_eq c p b; rw [h]
@[simp] theorem State.raiseIf_rf_shadow (s : State) (c : Bool) (p b : Nat) : (s.raiseIf c p b).rf.shadow = s.rf.shadow := by
  obtain ⟨m, x, h⟩ := s.raiseIf_eq c p b; rw [h]
@[simp] theorem State.raiseIf_rf_pend (s : State) (c : Bool) (p b : Nat) : (s.raiseIf c p b).rf.pend = s.rf.pend := by
  obtain ⟨m, x, h⟩ := s.raiseIf_eq c p b; rw [h]
@[simp] theorem State.raiseIf_rf_active (s : State) (c : Bool) (p b : Nat) : (s.raiseIf c p b).rf.active = s.rf.active := by
  obtain ⟨m, x, h⟩ := s.raiseIf_eq c p b; rw [h]
@[simp] theorem State.raiseIf_rf_force (s : State) (c : Bool) (p b : Nat) : (s.raiseIf c p b).rf.force = s.rf.force := by
  obtain ⟨m, x, h⟩ := s.raiseIf_eq c p b; rw [h]
@[simp] theorem State.raiseIf_rf_prev (s : State) (c : Bool) (p b : Nat) : (s.raiseIf c p b).rf.prev = s.rf.prev := by
  obtain ⟨m, x, h⟩ := s.raiseIf_eq c p b; rw [h]
@[simp] theorem State.raiseIf_rf_snap (s : State) (c : Bool) (p b : Nat) : (s.raiseIf c p b).rf.snap = s.rf.snap := by
  obtain ⟨m, x, h⟩ := s.raiseIf_eq c p b; rw [h]
@[simp] theorem State.raiseIf_rf_bank (s : State) (c : Bool) (p b : Nat) : (s.raiseIf c p b).rf.bank = s.rf.bank := by
  obtain ⟨m, x, h⟩ := s.raiseIf_eq c p b; rw [h]
@[simp] theorem State.raiseIf_rf_hostReply (s : State) (c : Bool) (p b : Nat) : (s.raiseIf c p b).rf.hostReply = s.rf.hostReply := by
  obtain ⟨m, x, h⟩ := s.raiseIf_eq c p b; rw [h]
@[simp] theorem State.raiseIf_rf_gafferReply (s : State) (c : Bool) (p b : Nat) : (s.raiseIf c p b).rf.gafferReply = s.rf.gafferReply := by
  obtain ⟨m, x, h⟩ := s.raiseIf_eq c p b; rw [h]

/-! `setFault` -/

@[simp] theorem State.setFault_commit (s : State) (p : Nat) (b : Bool) : (s.setFault p b).commit = s.commit := by
  obtain ⟨m, x, h⟩ := s.setFault_eq p b; rw [h]
@[simp] theorem State.setFault_power (s : State) (p : Nat) (b : Bool) : (s.setFault p b).power = s.power := by
  obtain ⟨m, x, h⟩ := s.setFault_eq p b; rw [h]
@[simp] theorem State.setFault_gaffer (s : State) (p : Nat) (b : Bool) : (s.setFault p b).gaffer = s.gaffer := by
  obtain ⟨m, x, h⟩ := s.setFault_eq p b; rw [h]
@[simp] theorem State.setFault_keepLog (s : State) (p : Nat) (b : Bool) : (s.setFault p b).keepLog = s.keepLog := by
  obtain ⟨m, x, h⟩ := s.setFault_eq p b; rw [h]
@[simp] theorem State.setFault_dbg (s : State) (p : Nat) (b : Bool) : (s.setFault p b).dbg = s.dbg := by
  obtain ⟨m, x, h⟩ := s.setFault_eq p b; rw [h]
@[simp] theorem State.setFault_lease (s : State) (p : Nat) (b : Bool) : (s.setFault p b).lease = s.lease := by
  obtain ⟨m, x, h⟩ := s.setFault_eq p b; rw [h]
@[simp] theorem State.setFault_ingest (s : State) (p : Nat) (b : Bool) : (s.setFault p b).ingest = s.ingest := by
  obtain ⟨m, x, h⟩ := s.setFault_eq p b; rw [h]
@[simp] theorem State.setFault_sched (s : State) (p : Nat) (b : Bool) : (s.setFault p b).sched = s.sched := by
  obtain ⟨m, x, h⟩ := s.setFault_eq p b; rw [h]
@[simp] theorem State.setFault_marver (s : State) (p : Nat) (b : Bool) : (s.setFault p b).marver = s.marver := by
  obtain ⟨m, x, h⟩ := s.setFault_eq p b; rw [h]
@[simp] theorem State.setFault_solver (s : State) (p : Nat) (b : Bool) : (s.setFault p b).solver = s.solver := by
  obtain ⟨m, x, h⟩ := s.setFault_eq p b; rw [h]
@[simp] theorem State.setFault_loop (s : State) (p : Nat) (b : Bool) : (s.setFault p b).loop = s.loop := by
  obtain ⟨m, x, h⟩ := s.setFault_eq p b; rw [h]
@[simp] theorem State.setFault_time (s : State) (p : Nat) (b : Bool) : (s.setFault p b).time = s.time := by
  obtain ⟨m, x, h⟩ := s.setFault_eq p b; rw [h]
@[simp] theorem State.setFault_net (s : State) (p : Nat) (b : Bool) : (s.setFault p b).net = s.net := by
  obtain ⟨m, x, h⟩ := s.setFault_eq p b; rw [h]
@[simp] theorem State.setFault_scan (s : State) (p : Nat) (b : Bool) : (s.setFault p b).scan = s.scan := by
  obtain ⟨m, x, h⟩ := s.setFault_eq p b; rw [h]
@[simp] theorem State.setFault_tuiper (s : State) (p : Nat) (b : Bool) : (s.setFault p b).tuiper = s.tuiper := by
  obtain ⟨m, x, h⟩ := s.setFault_eq p b; rw [h]
@[simp] theorem State.setFault_fixture (s : State) (p : Nat) (b : Bool) : (s.setFault p b).fixture = s.fixture := by
  obtain ⟨m, x, h⟩ := s.setFault_eq p b; rw [h]
@[simp] theorem State.setFault_lehr (s : State) (p : Nat) (b : Bool) : (s.setFault p b).lehr = s.lehr := by
  obtain ⟨m, x, h⟩ := s.setFault_eq p b; rw [h]
@[simp] theorem State.setFault_cal (s : State) (p : Nat) (b : Bool) : (s.setFault p b).cal = s.cal := by
  obtain ⟨m, x, h⟩ := s.setFault_eq p b; rw [h]
@[simp] theorem State.setFault_twin (s : State) (p : Nat) (b : Bool) : (s.setFault p b).twin = s.twin := by
  obtain ⟨m, x, h⟩ := s.setFault_eq p b; rw [h]
@[simp] theorem State.setFault_mem (s : State) (p : Nat) (b : Bool) : (s.setFault p b).mem = s.mem := by
  obtain ⟨m, x, h⟩ := s.setFault_eq p b; rw [h]
@[simp] theorem State.setFault_free (s : State) (p : Nat) (b : Bool) : (s.setFault p b).free = s.free := by
  obtain ⟨m, x, h⟩ := s.setFault_eq p b; rw [h]
@[simp] theorem State.setFault_pending (s : State) (p : Nat) (b : Bool) : (s.setFault p b).pending = s.pending := by
  obtain ⟨m, x, h⟩ := s.setFault_eq p b; rw [h]
@[simp] theorem State.setFault_rf_shadow (s : State) (p : Nat) (b : Bool) : (s.setFault p b).rf.shadow = s.rf.shadow := by
  obtain ⟨m, x, h⟩ := s.setFault_eq p b; rw [h]
@[simp] theorem State.setFault_rf_pend (s : State) (p : Nat) (b : Bool) : (s.setFault p b).rf.pend = s.rf.pend := by
  obtain ⟨m, x, h⟩ := s.setFault_eq p b; rw [h]
@[simp] theorem State.setFault_rf_active (s : State) (p : Nat) (b : Bool) : (s.setFault p b).rf.active = s.rf.active := by
  obtain ⟨m, x, h⟩ := s.setFault_eq p b; rw [h]
@[simp] theorem State.setFault_rf_force (s : State) (p : Nat) (b : Bool) : (s.setFault p b).rf.force = s.rf.force := by
  obtain ⟨m, x, h⟩ := s.setFault_eq p b; rw [h]
@[simp] theorem State.setFault_rf_prev (s : State) (p : Nat) (b : Bool) : (s.setFault p b).rf.prev = s.rf.prev := by
  obtain ⟨m, x, h⟩ := s.setFault_eq p b; rw [h]
@[simp] theorem State.setFault_rf_snap (s : State) (p : Nat) (b : Bool) : (s.setFault p b).rf.snap = s.rf.snap := by
  obtain ⟨m, x, h⟩ := s.setFault_eq p b; rw [h]
@[simp] theorem State.setFault_rf_bank (s : State) (p : Nat) (b : Bool) : (s.setFault p b).rf.bank = s.rf.bank := by
  obtain ⟨m, x, h⟩ := s.setFault_eq p b; rw [h]
@[simp] theorem State.setFault_rf_hostReply (s : State) (p : Nat) (b : Bool) : (s.setFault p b).rf.hostReply = s.rf.hostReply := by
  obtain ⟨m, x, h⟩ := s.setFault_eq p b; rw [h]
@[simp] theorem State.setFault_rf_gafferReply (s : State) (p : Nat) (b : Bool) : (s.setFault p b).rf.gafferReply = s.rf.gafferReply := by
  obtain ⟨m, x, h⟩ := s.setFault_eq p b; rw [h]

/-! `guardActs` -/

@[simp] theorem State.guardActs_commit (s : State) (p : Nat) (l : List GAct) : (s.guardActs p l).commit = s.commit := by
  obtain ⟨m, x, h⟩ := s.guardActs_eq p l; rw [h]
@[simp] theorem State.guardActs_power (s : State) (p : Nat) (l : List GAct) : (s.guardActs p l).power = s.power := by
  obtain ⟨m, x, h⟩ := s.guardActs_eq p l; rw [h]
@[simp] theorem State.guardActs_gaffer (s : State) (p : Nat) (l : List GAct) : (s.guardActs p l).gaffer = s.gaffer := by
  obtain ⟨m, x, h⟩ := s.guardActs_eq p l; rw [h]
@[simp] theorem State.guardActs_keepLog (s : State) (p : Nat) (l : List GAct) : (s.guardActs p l).keepLog = s.keepLog := by
  obtain ⟨m, x, h⟩ := s.guardActs_eq p l; rw [h]
@[simp] theorem State.guardActs_dbg (s : State) (p : Nat) (l : List GAct) : (s.guardActs p l).dbg = s.dbg := by
  obtain ⟨m, x, h⟩ := s.guardActs_eq p l; rw [h]
@[simp] theorem State.guardActs_lease (s : State) (p : Nat) (l : List GAct) : (s.guardActs p l).lease = s.lease := by
  obtain ⟨m, x, h⟩ := s.guardActs_eq p l; rw [h]
@[simp] theorem State.guardActs_ingest (s : State) (p : Nat) (l : List GAct) : (s.guardActs p l).ingest = s.ingest := by
  obtain ⟨m, x, h⟩ := s.guardActs_eq p l; rw [h]
@[simp] theorem State.guardActs_sched (s : State) (p : Nat) (l : List GAct) : (s.guardActs p l).sched = s.sched := by
  obtain ⟨m, x, h⟩ := s.guardActs_eq p l; rw [h]
@[simp] theorem State.guardActs_marver (s : State) (p : Nat) (l : List GAct) : (s.guardActs p l).marver = s.marver := by
  obtain ⟨m, x, h⟩ := s.guardActs_eq p l; rw [h]
@[simp] theorem State.guardActs_solver (s : State) (p : Nat) (l : List GAct) : (s.guardActs p l).solver = s.solver := by
  obtain ⟨m, x, h⟩ := s.guardActs_eq p l; rw [h]
@[simp] theorem State.guardActs_loop (s : State) (p : Nat) (l : List GAct) : (s.guardActs p l).loop = s.loop := by
  obtain ⟨m, x, h⟩ := s.guardActs_eq p l; rw [h]
@[simp] theorem State.guardActs_time (s : State) (p : Nat) (l : List GAct) : (s.guardActs p l).time = s.time := by
  obtain ⟨m, x, h⟩ := s.guardActs_eq p l; rw [h]
@[simp] theorem State.guardActs_net (s : State) (p : Nat) (l : List GAct) : (s.guardActs p l).net = s.net := by
  obtain ⟨m, x, h⟩ := s.guardActs_eq p l; rw [h]
@[simp] theorem State.guardActs_scan (s : State) (p : Nat) (l : List GAct) : (s.guardActs p l).scan = s.scan := by
  obtain ⟨m, x, h⟩ := s.guardActs_eq p l; rw [h]
@[simp] theorem State.guardActs_tuiper (s : State) (p : Nat) (l : List GAct) : (s.guardActs p l).tuiper = s.tuiper := by
  obtain ⟨m, x, h⟩ := s.guardActs_eq p l; rw [h]
@[simp] theorem State.guardActs_fixture (s : State) (p : Nat) (l : List GAct) : (s.guardActs p l).fixture = s.fixture := by
  obtain ⟨m, x, h⟩ := s.guardActs_eq p l; rw [h]
@[simp] theorem State.guardActs_lehr (s : State) (p : Nat) (l : List GAct) : (s.guardActs p l).lehr = s.lehr := by
  obtain ⟨m, x, h⟩ := s.guardActs_eq p l; rw [h]
@[simp] theorem State.guardActs_cal (s : State) (p : Nat) (l : List GAct) : (s.guardActs p l).cal = s.cal := by
  obtain ⟨m, x, h⟩ := s.guardActs_eq p l; rw [h]
@[simp] theorem State.guardActs_twin (s : State) (p : Nat) (l : List GAct) : (s.guardActs p l).twin = s.twin := by
  obtain ⟨m, x, h⟩ := s.guardActs_eq p l; rw [h]
@[simp] theorem State.guardActs_mem (s : State) (p : Nat) (l : List GAct) : (s.guardActs p l).mem = s.mem := by
  obtain ⟨m, x, h⟩ := s.guardActs_eq p l; rw [h]
@[simp] theorem State.guardActs_free (s : State) (p : Nat) (l : List GAct) : (s.guardActs p l).free = s.free := by
  obtain ⟨m, x, h⟩ := s.guardActs_eq p l; rw [h]
@[simp] theorem State.guardActs_pending (s : State) (p : Nat) (l : List GAct) : (s.guardActs p l).pending = s.pending := by
  obtain ⟨m, x, h⟩ := s.guardActs_eq p l; rw [h]
@[simp] theorem State.guardActs_rf_shadow (s : State) (p : Nat) (l : List GAct) : (s.guardActs p l).rf.shadow = s.rf.shadow := by
  obtain ⟨m, x, h⟩ := s.guardActs_eq p l; rw [h]
@[simp] theorem State.guardActs_rf_pend (s : State) (p : Nat) (l : List GAct) : (s.guardActs p l).rf.pend = s.rf.pend := by
  obtain ⟨m, x, h⟩ := s.guardActs_eq p l; rw [h]
@[simp] theorem State.guardActs_rf_active (s : State) (p : Nat) (l : List GAct) : (s.guardActs p l).rf.active = s.rf.active := by
  obtain ⟨m, x, h⟩ := s.guardActs_eq p l; rw [h]
@[simp] theorem State.guardActs_rf_force (s : State) (p : Nat) (l : List GAct) : (s.guardActs p l).rf.force = s.rf.force := by
  obtain ⟨m, x, h⟩ := s.guardActs_eq p l; rw [h]
@[simp] theorem State.guardActs_rf_prev (s : State) (p : Nat) (l : List GAct) : (s.guardActs p l).rf.prev = s.rf.prev := by
  obtain ⟨m, x, h⟩ := s.guardActs_eq p l; rw [h]
@[simp] theorem State.guardActs_rf_snap (s : State) (p : Nat) (l : List GAct) : (s.guardActs p l).rf.snap = s.rf.snap := by
  obtain ⟨m, x, h⟩ := s.guardActs_eq p l; rw [h]
@[simp] theorem State.guardActs_rf_bank (s : State) (p : Nat) (l : List GAct) : (s.guardActs p l).rf.bank = s.rf.bank := by
  obtain ⟨m, x, h⟩ := s.guardActs_eq p l; rw [h]
@[simp] theorem State.guardActs_rf_hostReply (s : State) (p : Nat) (l : List GAct) : (s.guardActs p l).rf.hostReply = s.rf.hostReply := by
  obtain ⟨m, x, h⟩ := s.guardActs_eq p l; rw [h]
@[simp] theorem State.guardActs_rf_gafferReply (s : State) (p : Nat) (l : List GAct) : (s.guardActs p l).rf.gafferReply = s.rf.gafferReply := by
  obtain ⟨m, x, h⟩ := s.guardActs_eq p l; rw [h]

/-! `guard1` -/

@[simp] theorem State.guard1_commit (s : State) (p k c : Nat) (b : Option Nat) : (s.guard1 p k c b).commit = s.commit := by
  obtain ⟨m, x, h⟩ := s.guard1_eq p k c b; rw [h]
@[simp] theorem State.guard1_power (s : State) (p k c : Nat) (b : Option Nat) : (s.guard1 p k c b).power = s.power := by
  obtain ⟨m, x, h⟩ := s.guard1_eq p k c b; rw [h]
@[simp] theorem State.guard1_gaffer (s : State) (p k c : Nat) (b : Option Nat) : (s.guard1 p k c b).gaffer = s.gaffer := by
  obtain ⟨m, x, h⟩ := s.guard1_eq p k c b; rw [h]
@[simp] theorem State.guard1_keepLog (s : State) (p k c : Nat) (b : Option Nat) : (s.guard1 p k c b).keepLog = s.keepLog := by
  obtain ⟨m, x, h⟩ := s.guard1_eq p k c b; rw [h]
@[simp] theorem State.guard1_dbg (s : State) (p k c : Nat) (b : Option Nat) : (s.guard1 p k c b).dbg = s.dbg := by
  obtain ⟨m, x, h⟩ := s.guard1_eq p k c b; rw [h]
@[simp] theorem State.guard1_lease (s : State) (p k c : Nat) (b : Option Nat) : (s.guard1 p k c b).lease = s.lease := by
  obtain ⟨m, x, h⟩ := s.guard1_eq p k c b; rw [h]
@[simp] theorem State.guard1_ingest (s : State) (p k c : Nat) (b : Option Nat) : (s.guard1 p k c b).ingest = s.ingest := by
  obtain ⟨m, x, h⟩ := s.guard1_eq p k c b; rw [h]
@[simp] theorem State.guard1_sched (s : State) (p k c : Nat) (b : Option Nat) : (s.guard1 p k c b).sched = s.sched := by
  obtain ⟨m, x, h⟩ := s.guard1_eq p k c b; rw [h]
@[simp] theorem State.guard1_marver (s : State) (p k c : Nat) (b : Option Nat) : (s.guard1 p k c b).marver = s.marver := by
  obtain ⟨m, x, h⟩ := s.guard1_eq p k c b; rw [h]
@[simp] theorem State.guard1_solver (s : State) (p k c : Nat) (b : Option Nat) : (s.guard1 p k c b).solver = s.solver := by
  obtain ⟨m, x, h⟩ := s.guard1_eq p k c b; rw [h]
@[simp] theorem State.guard1_loop (s : State) (p k c : Nat) (b : Option Nat) : (s.guard1 p k c b).loop = s.loop := by
  obtain ⟨m, x, h⟩ := s.guard1_eq p k c b; rw [h]
@[simp] theorem State.guard1_time (s : State) (p k c : Nat) (b : Option Nat) : (s.guard1 p k c b).time = s.time := by
  obtain ⟨m, x, h⟩ := s.guard1_eq p k c b; rw [h]
@[simp] theorem State.guard1_net (s : State) (p k c : Nat) (b : Option Nat) : (s.guard1 p k c b).net = s.net := by
  obtain ⟨m, x, h⟩ := s.guard1_eq p k c b; rw [h]
@[simp] theorem State.guard1_scan (s : State) (p k c : Nat) (b : Option Nat) : (s.guard1 p k c b).scan = s.scan := by
  obtain ⟨m, x, h⟩ := s.guard1_eq p k c b; rw [h]
@[simp] theorem State.guard1_tuiper (s : State) (p k c : Nat) (b : Option Nat) : (s.guard1 p k c b).tuiper = s.tuiper := by
  obtain ⟨m, x, h⟩ := s.guard1_eq p k c b; rw [h]
@[simp] theorem State.guard1_fixture (s : State) (p k c : Nat) (b : Option Nat) : (s.guard1 p k c b).fixture = s.fixture := by
  obtain ⟨m, x, h⟩ := s.guard1_eq p k c b; rw [h]
@[simp] theorem State.guard1_lehr (s : State) (p k c : Nat) (b : Option Nat) : (s.guard1 p k c b).lehr = s.lehr := by
  obtain ⟨m, x, h⟩ := s.guard1_eq p k c b; rw [h]
@[simp] theorem State.guard1_cal (s : State) (p k c : Nat) (b : Option Nat) : (s.guard1 p k c b).cal = s.cal := by
  obtain ⟨m, x, h⟩ := s.guard1_eq p k c b; rw [h]
@[simp] theorem State.guard1_twin (s : State) (p k c : Nat) (b : Option Nat) : (s.guard1 p k c b).twin = s.twin := by
  obtain ⟨m, x, h⟩ := s.guard1_eq p k c b; rw [h]
@[simp] theorem State.guard1_mem (s : State) (p k c : Nat) (b : Option Nat) : (s.guard1 p k c b).mem = s.mem := by
  obtain ⟨m, x, h⟩ := s.guard1_eq p k c b; rw [h]
@[simp] theorem State.guard1_free (s : State) (p k c : Nat) (b : Option Nat) : (s.guard1 p k c b).free = s.free := by
  obtain ⟨m, x, h⟩ := s.guard1_eq p k c b; rw [h]
@[simp] theorem State.guard1_pending (s : State) (p k c : Nat) (b : Option Nat) : (s.guard1 p k c b).pending = s.pending := by
  obtain ⟨m, x, h⟩ := s.guard1_eq p k c b; rw [h]
@[simp] theorem State.guard1_rf_shadow (s : State) (p k c : Nat) (b : Option Nat) : (s.guard1 p k c b).rf.shadow = s.rf.shadow := by
  obtain ⟨m, x, h⟩ := s.guard1_eq p k c b; rw [h]
@[simp] theorem State.guard1_rf_pend (s : State) (p k c : Nat) (b : Option Nat) : (s.guard1 p k c b).rf.pend = s.rf.pend := by
  obtain ⟨m, x, h⟩ := s.guard1_eq p k c b; rw [h]
@[simp] theorem State.guard1_rf_active (s : State) (p k c : Nat) (b : Option Nat) : (s.guard1 p k c b).rf.active = s.rf.active := by
  obtain ⟨m, x, h⟩ := s.guard1_eq p k c b; rw [h]
@[simp] theorem State.guard1_rf_force (s : State) (p k c : Nat) (b : Option Nat) : (s.guard1 p k c b).rf.force = s.rf.force := by
  obtain ⟨m, x, h⟩ := s.guard1_eq p k c b; rw [h]
@[simp] theorem State.guard1_rf_prev (s : State) (p k c : Nat) (b : Option Nat) : (s.guard1 p k c b).rf.prev = s.rf.prev := by
  obtain ⟨m, x, h⟩ := s.guard1_eq p k c b; rw [h]
@[simp] theorem State.guard1_rf_snap (s : State) (p k c : Nat) (b : Option Nat) : (s.guard1 p k c b).rf.snap = s.rf.snap := by
  obtain ⟨m, x, h⟩ := s.guard1_eq p k c b; rw [h]
@[simp] theorem State.guard1_rf_bank (s : State) (p k c : Nat) (b : Option Nat) : (s.guard1 p k c b).rf.bank = s.rf.bank := by
  obtain ⟨m, x, h⟩ := s.guard1_eq p k c b; rw [h]
@[simp] theorem State.guard1_rf_hostReply (s : State) (p k c : Nat) (b : Option Nat) : (s.guard1 p k c b).rf.hostReply = s.rf.hostReply := by
  obtain ⟨m, x, h⟩ := s.guard1_eq p k c b; rw [h]
@[simp] theorem State.guard1_rf_gafferReply (s : State) (p k c : Nat) (b : Option Nat) : (s.guard1 p k c b).rf.gafferReply = s.rf.gafferReply := by
  obtain ⟨m, x, h⟩ := s.guard1_eq p k c b; rw [h]

/-! `injTake` -/

@[simp] theorem State.injTake_commit (s : State) (p b : Nat) : (s.injTake p b).commit = s.commit := by
  obtain ⟨m, x, h⟩ := s.injTake_eq p b; rw [h]
@[simp] theorem State.injTake_power (s : State) (p b : Nat) : (s.injTake p b).power = s.power := by
  obtain ⟨m, x, h⟩ := s.injTake_eq p b; rw [h]
@[simp] theorem State.injTake_gaffer (s : State) (p b : Nat) : (s.injTake p b).gaffer = s.gaffer := by
  obtain ⟨m, x, h⟩ := s.injTake_eq p b; rw [h]
@[simp] theorem State.injTake_keepLog (s : State) (p b : Nat) : (s.injTake p b).keepLog = s.keepLog := by
  obtain ⟨m, x, h⟩ := s.injTake_eq p b; rw [h]
@[simp] theorem State.injTake_dbg (s : State) (p b : Nat) : (s.injTake p b).dbg = s.dbg := by
  obtain ⟨m, x, h⟩ := s.injTake_eq p b; rw [h]
@[simp] theorem State.injTake_lease (s : State) (p b : Nat) : (s.injTake p b).lease = s.lease := by
  obtain ⟨m, x, h⟩ := s.injTake_eq p b; rw [h]
@[simp] theorem State.injTake_ingest (s : State) (p b : Nat) : (s.injTake p b).ingest = s.ingest := by
  obtain ⟨m, x, h⟩ := s.injTake_eq p b; rw [h]
@[simp] theorem State.injTake_sched (s : State) (p b : Nat) : (s.injTake p b).sched = s.sched := by
  obtain ⟨m, x, h⟩ := s.injTake_eq p b; rw [h]
@[simp] theorem State.injTake_marver (s : State) (p b : Nat) : (s.injTake p b).marver = s.marver := by
  obtain ⟨m, x, h⟩ := s.injTake_eq p b; rw [h]
@[simp] theorem State.injTake_solver (s : State) (p b : Nat) : (s.injTake p b).solver = s.solver := by
  obtain ⟨m, x, h⟩ := s.injTake_eq p b; rw [h]
@[simp] theorem State.injTake_loop (s : State) (p b : Nat) : (s.injTake p b).loop = s.loop := by
  obtain ⟨m, x, h⟩ := s.injTake_eq p b; rw [h]
@[simp] theorem State.injTake_time (s : State) (p b : Nat) : (s.injTake p b).time = s.time := by
  obtain ⟨m, x, h⟩ := s.injTake_eq p b; rw [h]
@[simp] theorem State.injTake_net (s : State) (p b : Nat) : (s.injTake p b).net = s.net := by
  obtain ⟨m, x, h⟩ := s.injTake_eq p b; rw [h]
@[simp] theorem State.injTake_scan (s : State) (p b : Nat) : (s.injTake p b).scan = s.scan := by
  obtain ⟨m, x, h⟩ := s.injTake_eq p b; rw [h]
@[simp] theorem State.injTake_tuiper (s : State) (p b : Nat) : (s.injTake p b).tuiper = s.tuiper := by
  obtain ⟨m, x, h⟩ := s.injTake_eq p b; rw [h]
@[simp] theorem State.injTake_fixture (s : State) (p b : Nat) : (s.injTake p b).fixture = s.fixture := by
  obtain ⟨m, x, h⟩ := s.injTake_eq p b; rw [h]
@[simp] theorem State.injTake_lehr (s : State) (p b : Nat) : (s.injTake p b).lehr = s.lehr := by
  obtain ⟨m, x, h⟩ := s.injTake_eq p b; rw [h]
@[simp] theorem State.injTake_cal (s : State) (p b : Nat) : (s.injTake p b).cal = s.cal := by
  obtain ⟨m, x, h⟩ := s.injTake_eq p b; rw [h]
@[simp] theorem State.injTake_twin (s : State) (p b : Nat) : (s.injTake p b).twin = s.twin := by
  obtain ⟨m, x, h⟩ := s.injTake_eq p b; rw [h]
@[simp] theorem State.injTake_mem (s : State) (p b : Nat) : (s.injTake p b).mem = s.mem := by
  obtain ⟨m, x, h⟩ := s.injTake_eq p b; rw [h]
@[simp] theorem State.injTake_free (s : State) (p b : Nat) : (s.injTake p b).free = s.free := by
  obtain ⟨m, x, h⟩ := s.injTake_eq p b; rw [h]
@[simp] theorem State.injTake_pending (s : State) (p b : Nat) : (s.injTake p b).pending = s.pending := by
  obtain ⟨m, x, h⟩ := s.injTake_eq p b; rw [h]
@[simp] theorem State.injTake_rf_shadow (s : State) (p b : Nat) : (s.injTake p b).rf.shadow = s.rf.shadow := by
  obtain ⟨m, x, h⟩ := s.injTake_eq p b; rw [h]
@[simp] theorem State.injTake_rf_pend (s : State) (p b : Nat) : (s.injTake p b).rf.pend = s.rf.pend := by
  obtain ⟨m, x, h⟩ := s.injTake_eq p b; rw [h]
@[simp] theorem State.injTake_rf_active (s : State) (p b : Nat) : (s.injTake p b).rf.active = s.rf.active := by
  obtain ⟨m, x, h⟩ := s.injTake_eq p b; rw [h]
@[simp] theorem State.injTake_rf_force (s : State) (p b : Nat) : (s.injTake p b).rf.force = s.rf.force := by
  obtain ⟨m, x, h⟩ := s.injTake_eq p b; rw [h]
@[simp] theorem State.injTake_rf_prev (s : State) (p b : Nat) : (s.injTake p b).rf.prev = s.rf.prev := by
  obtain ⟨m, x, h⟩ := s.injTake_eq p b; rw [h]
@[simp] theorem State.injTake_rf_snap (s : State) (p b : Nat) : (s.injTake p b).rf.snap = s.rf.snap := by
  obtain ⟨m, x, h⟩ := s.injTake_eq p b; rw [h]
@[simp] theorem State.injTake_rf_bank (s : State) (p b : Nat) : (s.injTake p b).rf.bank = s.rf.bank := by
  obtain ⟨m, x, h⟩ := s.injTake_eq p b; rw [h]
@[simp] theorem State.injTake_rf_hostReply (s : State) (p b : Nat) : (s.injTake p b).rf.hostReply = s.rf.hostReply := by
  obtain ⟨m, x, h⟩ := s.injTake_eq p b; rw [h]
@[simp] theorem State.injTake_rf_gafferReply (s : State) (p b : Nat) : (s.injTake p b).rf.gafferReply = s.rf.gafferReply := by
  obtain ⟨m, x, h⟩ := s.injTake_eq p b; rw [h]

/-! ### What the interrupt logic leaves (R58, R59) -/

/-- The pages with an interrupt pending are read from EVT_STAT and EVT_EN alone. -/
theorem pendPages_set (s : State) (a : Nat) (v : Word) (ha : a % 0x1000 ≠ 0x010) (he : a % 0x1000 ≠ 0x014) :
    (s.wr a v).pendPages = s.pendPages := by
  have hirq : ∀ p, (s.wr a v).irqPending p = s.irqPending p := by
    intro p
    unfold State.irqPending
    rw [State.rd_wr_ne _ _ (by unfold H.EVT_STAT; omega), State.rd_wr_ne _ _ (by unfold H.EVT_EN; omega)]
  unfold State.pendPages
  simp only [hirq]
  have hdel : ∀ (m : AMap Word) (k : Nat), k % 0x1000 ≠ 0x010 →
      (amDel m k).filterMap (fun x => if x.1 % 0x1000 = 0x010 ∧ s.irqPending (x.1 / 0x1000) then some (x.1 / 0x1000) else none) =
      m.filterMap (fun x => if x.1 % 0x1000 = 0x010 ∧ s.irqPending (x.1 / 0x1000) then some (x.1 / 0x1000) else none) := by
    intro m k hk
    induction m with
    | nil => rfl
    | cons x m ih =>
      obtain ⟨j, w⟩ := x
      by_cases h : k = j
      · subst h; simp [amDel, ih, hk]
      · simp [amDel, h, List.filterMap_cons, ih]
  have hins : ∀ (m : AMap Word) (k : Nat) (w : Word), k % 0x1000 ≠ 0x010 →
      (amIns m k w).filterMap (fun x => if x.1 % 0x1000 = 0x010 ∧ s.irqPending (x.1 / 0x1000) then some (x.1 / 0x1000) else none) =
      m.filterMap (fun x => if x.1 % 0x1000 = 0x010 ∧ s.irqPending (x.1 / 0x1000) then some (x.1 / 0x1000) else none) := by
    intro m k w hk
    induction m with
    | nil => simp [amIns, hk]
    | cons x m ih =>
      obtain ⟨j, u⟩ := x
      by_cases h : k < j
      · simp [amIns, h, hk]
      · simp [amIns, h, List.filterMap_cons, ih]
  show List.filterMap _ (amSet resetOf s.rf.live a v) = _
  unfold amSet
  split
  · exact hdel _ _ ha
  · rw [hins _ _ _ ha, hdel _ _ ha]

end Sys2Proof.Machine
end

