-- ==== Sys2Proof/Laws/Settle.lean ====
section
/-!
SUPPORT. What a settled state satisfies: the interrupt logic agrees with the events (R58, R59), no pending free has lost its lease
(R85), and which parts of the state settling never changes.
-/
namespace Sys2Proof.Machine

/-! ### The interrupt logic -/

theorem intPend_mod (k : Nat) (h : k < 16) : A.SYS_INT_PEND k % 0x1000 = 0xC0 + 4 * k := by unfold A.SYS_INT_PEND; omega

/-- Writing the INT_PEND words of a list leaves the pages pending, and every other register. -/
theorem intPends_spec (g : Nat → Word) (l : List Nat) (s : State) (h : ∀ k ∈ l, k < 16) :
    (l.foldl (fun t k => t.wr (A.SYS_INT_PEND k) (g k)) s).pendPages = s.pendPages ∧
      ∀ a, (l.foldl (fun t k => t.wr (A.SYS_INT_PEND k) (g k)) s).rd a =
        if ∃ k ∈ l, a = A.SYS_INT_PEND k then g ((a - 0xC0) / 4) else s.rd a := by
  induction l generalizing s with
  | nil => simp
  | cons k l ih =>
    have hk : k < 16 := h k (by simp)
    obtain ⟨h1, h2⟩ := ih (s.wr (A.SYS_INT_PEND k) (g k)) (fun x hx => h x (by simp [hx]))
    have hm := intPend_mod k hk
    refine ⟨by rw [List.foldl_cons, h1, pendPages_set _ _ _ (by omega) (by omega)], fun a => ?_⟩
    rw [List.foldl_cons, h2 a]
    by_cases hl : ∃ k' ∈ l, a = A.SYS_INT_PEND k'
    · have hl' : ∃ k' ∈ k :: l, a = A.SYS_INT_PEND k' := by obtain ⟨x, hx, e⟩ := hl; exact ⟨x, by simp [hx], e⟩
      rw [if_pos hl, if_pos hl']
    · rw [if_neg hl, State.rd_wr]
      by_cases e : a = A.SYS_INT_PEND k
      · have : ∃ k' ∈ k :: l, a = A.SYS_INT_PEND k' := ⟨k, by simp, e⟩
        rw [if_pos e, if_pos this, e]
        unfold A.SYS_INT_PEND
        congr 1; omega
      · have : ¬ ∃ k' ∈ k :: l, a = A.SYS_INT_PEND k' := by
          rintro ⟨x, hx, he⟩
          rcases List.mem_cons.1 hx with rfl | hx
          · exact e he
          · exact hl ⟨x, hx, he⟩
        rw [if_neg e, if_neg this]

/-- What the interrupt logic leaves: the pages pending are those before, INT_PEND shows them, every other register stands, and each
vector's level is the OR of its enabled pages. -/
theorem State.irqSync_spec (s : State) :
    s.irqSync.pendPages = s.pendPages ∧
    (∀ a, s.irqSync.rd a = if ∃ k ∈ List.range 16, a = A.SYS_INT_PEND k then intPendWord s.pendPages ((a - 0xC0) / 4) else s.rd a) ∧
    (∀ v, v < 64 → s.irqSync.msix.level.getLsbD v = s.vecLevel v s.pendPages) := by
  obtain ⟨x, hx, hl⟩ := vecSteps_eq (fun s v => s.vecLevel v s.pendPages) (List.range 64) s (by simp)
  have e : s.irqSync = (List.range 16).foldl (fun t k => t.wr (A.SYS_INT_PEND k) (intPendWord s.pendPages k)) { s with msix := x } := by
    unfold State.irqSync
    simp only at hx ⊢
    have : (List.range 64).foldl (fun t v => t.vecStep v (s.vecLevel v s.pendPages)) s = { s with msix := x } := hx
    rw [this]
  obtain ⟨h1, h2⟩ := intPends_spec (intPendWord s.pendPages) (List.range 16) { s with msix := x } (by simp)
  obtain ⟨m, hm⟩ := foldl_wr_eq A.SYS_INT_PEND (intPendWord s.pendPages) (List.range 16) { s with msix := x }
  refine ⟨by rw [e, h1]; rfl, fun a => by rw [e, h2]; rfl, fun v hv => ?_⟩
  rw [e, hm]
  show x.level.getLsbD v = _
  rw [hl v hv]; simp [hv]

theorem State.irqSync_rd (s : State) (a : Nat) (h : ∀ k, k < 16 → a ≠ A.SYS_INT_PEND k) : s.irqSync.rd a = s.rd a := by
  rw [s.irqSync_spec.2.1, if_neg]
  rintro ⟨k, hk, e⟩
  exact h k (by simpa using hk) e

/-- After the interrupt logic, INT_PEND and the vectors' levels agree with the enabled events. -/
theorem State.irqSync_irqOk (s : State) : s.irqSync.irqOk := by
  obtain ⟨h1, h2, h3⟩ := s.irqSync_spec
  refine ⟨fun k hk => ?_, fun v hv => ?_⟩
  · rw [h2, if_pos ⟨k, by simpa using hk, rfl⟩, h1]
    unfold A.SYS_INT_PEND; congr 1; omega
  · rw [h1, h3 v hv]
    unfold State.vecLevel State.get
    congr 1
    funext p
    rw [State.irqSync_rd _ _ (by intro k hk; unfold A.SYS_VEC_SEL A.SYS_INT_PEND; omega)]

/-! ### Pending frees -/

/-- Two states whose sets, frames, holds and boundary count agree: all that a lease depends on (R83). -/
structure SameLeases (s t : State) : Prop where
  shadow : t.rf.shadow = s.rf.shadow
  pend : t.rf.pend = s.rf.pend
  active : t.rf.active = s.rf.active
  frames : t.lease.frames = s.lease.frames
  holds : t.lease.holds = s.lease.holds
  bnds : t.time.bnds = s.time.bnds

theorem SameLeases.refl (s : State) : SameLeases s s := ⟨rfl, rfl, rfl, rfl, rfl, rfl⟩

theorem SameLeases.trans {s t u : State} (h : SameLeases s t) (h' : SameLeases t u) : SameLeases s u :=
  ⟨h'.shadow.trans h.shadow, h'.pend.trans h.pend, h'.active.trans h.active, h'.frames.trans h.frames, h'.holds.trans h.holds,
    h'.bnds.trans h.bnds⟩

/-- Whether a buffer is leased depends on the sets, the frames, the holds and whether a boundary has passed, alone. -/
theorem leased_congr {s t : State} (b : BufDef) (h : SameLeases s t) : t.leased b = s.leased b := by
  unfold State.leased State.setRefs State.frameBufs
  rw [h.shadow, h.pend, h.active, h.frames, h.holds, h.bnds]

/-- What ending one free leaves. -/
theorem State.endFree_spec (s : State) (id : Nat) :
    SameLeases s (s.endFree id) ∧ (s.endFree id).lease.bufs = s.lease.bufs.filter fun x => x.id != id := by
  unfold State.endFree
  simp only
  split
  · obtain ⟨m, x, e⟩ := State.raise_eq _ P.LEASE 0
    rw [e]; exact ⟨⟨rfl, rfl, rfl, rfl, rfl, rfl⟩, rfl⟩
  · obtain ⟨m, x, e⟩ := live_eq_trans (State.add_eq _ A.LEASE_FREE_LOST ⟨15, 0⟩ 1) (State.raise_eq _ P.LEASE 2)
    rw [e]; exact ⟨⟨rfl, rfl, rfl, rfl, rfl, rfl⟩, rfl⟩

/-- The sweep of pending frees leaves the sets, frames and holds, defines no buffer, and leaves no buffer whose FREE is pending
without its lease (R85). -/
theorem State.leaseSweep_spec (s : State) :
    SameLeases s s.leaseSweep ∧
    (∀ b ∈ s.leaseSweep.lease.bufs, b ∈ s.lease.bufs ∧ (b.freePending = true → s.leased b = true)) := by
  have key : ∀ (l : List BufDef) (t : State), SameLeases s t → (∀ b ∈ t.lease.bufs, b ∈ s.lease.bufs) →
      (∀ b ∈ t.lease.bufs, b.freePending = true → b ∉ l → s.leased b = true) →
      let u := l.foldl (fun (t : State) b => if t.lease.bufs.contains b && !t.leased b then t.endFree b.id else t) t
      SameLeases s u ∧ (∀ b ∈ u.lease.bufs, b ∈ s.lease.bufs ∧ (b.freePending = true → s.leased b = true)) := by
    intro l
    induction l with
    | nil => intro t h1 h6 h7; exact ⟨h1, fun b hb => ⟨h6 b hb, fun hf => h7 b hb hf (by simp)⟩⟩
    | cons x l ih =>
      intro t h1 h6 h7
      have hle : ∀ b, t.leased b = s.leased b := fun b => leased_congr b h1
      rw [List.foldl_cons]
      split
      · obtain ⟨e1, e6⟩ := t.endFree_spec x.id
        refine ih _ (h1.trans e1) ?_ ?_
        · intro b hb; rw [e6] at hb; exact h6 b (List.mem_filter.1 hb).1
        · intro b hb hf hn
          rw [e6] at hb
          obtain ⟨hb1, hb2⟩ := List.mem_filter.1 hb
          refine h7 b hb1 hf ?_
          intro hm
          rcases List.mem_cons.1 hm with rfl | hm
          · simp at hb2
          · exact hn hm
      · rename_i hc
        refine ih t h1 h6 ?_
        intro b hb hf hn
        by_cases e : b = x
        · subst e
          have hcont : t.lease.bufs.contains b = true := by simpa using hb
          rw [hcont, hle] at hc
          simpa using hc
        · exact h7 b hb hf (by simp [e, hn])
  exact key _ { s with lease := { s.lease with ended := [] } } ⟨rfl, rfl, rfl, rfl, rfl, rfl⟩ (fun _ h => h)
    (fun b hb hf hn => absurd (List.mem_filter.2 ⟨hb, hf⟩) hn)

/-- Operations that change neither the sets, the leases nor the buffers keep the frees in order. -/
theorem freesOk_congr {s t : State} (h : SameLeases s t) (hb : t.lease.bufs = s.lease.bufs) (hs : s.freesOk) : t.freesOk := by
  intro b hm hf
  rw [leased_congr b h]
  exact hs b (hb ▸ hm) hf

/-- After the sweep, no buffer whose FREE is pending has lost its lease. -/
theorem State.leaseSweep_freesOk (s : State) : s.leaseSweep.freesOk := by
  obtain ⟨h1, h6⟩ := s.leaseSweep_spec
  intro b hb hf
  rw [leased_congr b h1]
  exact (h6 b hb).2 hf

/-! ### The rest of settling -/

/-- A fold whose every step keeps a relation to the start. -/
theorem foldl_keeps {α : Type} (R : State → State → Prop) (hr : ∀ s, R s s) (ht : ∀ {s t u}, R s t → R t u → R s u)
    (f : State → α → State) (hf : ∀ s x, R s (f s x)) (l : List α) (s : State) : R s (l.foldl f s) := by
  induction l generalizing s with
  | nil => exact hr s
  | cons x l ih => exact ht (hf s x) (ih _)

/-- Live registers and the message table may differ; nothing else does. -/
def LiveOnly (s t : State) : Prop := ∃ m x, t = { s with rf := { s.rf with live := m }, msix := x }

theorem LiveOnly.refl (s : State) : LiveOnly s s := ⟨_, _, rfl⟩

theorem LiveOnly.trans {s t u : State} (h : LiveOnly s t) (h' : LiveOnly t u) : LiveOnly s u := live_eq_trans h h'

/-- HOST_FREE is shown in live registers and events alone. -/
theorem State.hostFreeSync_live (s : State) : LiveOnly s s.hostFreeSync := by
  unfold State.hostFreeSync
  refine foldl_keeps LiveOnly LiveOnly.refl LiveOnly.trans _ (fun t f => ?_) _ _
  refine foldl_keeps LiveOnly LiveOnly.refl LiveOnly.trans _ (fun t n => ?_) _ _
  simp only
  split
  · exact LiveOnly.refl t
  · exact LiveOnly.trans (State.put_eq _ _ _ _) (State.raiseIf_eq _ _ _ _)

/-- Showing a sensor as under calibration changes live registers alone. -/
theorem calShow_live (n : Option Nat) (v : Nat) (s : State) : LiveOnly s (calShow n v s) := by
  unfold calShow; split
  · exact State.put_eq _ _ _ _
  · exact LiveOnly.refl s

/-- A sensor under calibration is shown in a live register and held in the calibration's own state; nothing else differs. -/
theorem calHold_eq (s : State) : ∃ m x c, calHold s = { s with rf := { s.rf with live := m }, msix := x, cal := c } := by
  unfold calHold
  split
  · exact ⟨_, _, _, rfl⟩
  · obtain ⟨m, x, e⟩ := (calShow_live s.cal.held 0 s).trans (calShow_live s.calHeld 1 _)
    exact ⟨m, x, { s.cal with held := s.calHeld }, by rw [e]⟩

/-- Releasing layers changes Marver's working state alone. -/
theorem marverRelease_eq (s : State) : ∃ m, marverRelease s = { s with sched := m } := by
  unfold marverRelease
  split
  · exact ⟨_, rfl⟩
  · refine foldl_keeps (fun s t => ∃ m, t = { s with sched := m }) (fun _ => ⟨_, rfl⟩) ?_ _ (fun t i => ?_) _ _
    · rintro s t u ⟨m, rfl⟩ ⟨m', rfl⟩; exact ⟨m', rfl⟩
    · simp only
      split
      · exact ⟨_, rfl⟩
      · exact ⟨_, rfl⟩

end Sys2Proof.Machine
end

