-- ==== Sys2Proof/Laws/Access.lean ====
section
/-!
SUPPORT. What an access to a register that its page serves answers.
-/
namespace Sys2Proof.Machine

/-- A write that is served at once takes its register's effect (R30, R56). -/
theorem regWrite_reaches {s : State} {r : Req} {p : Nat} (h : s.reaches r p) (o : Nat) (ho : 0x80 ≤ o) (w : Word) :
    running (regWrite r p o w) s = (writeReg r (p * 0x1000 + o) w (s.arrive r p)).reply r .done := by
  obtain ⟨h1, h2, h3, h4, h5⟩ := h
  have h1 : s.power.mode = .run := h1
  have hb : (blkOf p).isNone = false := by cases hh : blkOf p <;> simp_all
  unfold running
  rw [if_pos h1]
  unfold regWrite reqAccess access
  simp only [hb, Bool.false_eq_true, if_false]
  rw [if_neg (Nat.not_lt.mpr ho)]
  unfold State.arrive State.tlp at h3 h4 h5 ⊢
  cases r <;> simp only [h3, h4, h5, Bool.false_eq_true, if_false] <;> rfl

/-- A read that is served at once answers its register's value. -/
theorem regRead_reaches {s : State} {r : Req} {p : Nat} (h : s.reaches r p) (o : Nat) (ho : 0x80 ≤ o) :
    running (regRead r p o) s =
      ((readReg r (p * 0x1000 + o) (s.arrive r p)).2).reply r (.data (readReg r (p * 0x1000 + o) (s.arrive r p)).1) := by
  obtain ⟨h1, h2, h3, h4, h5⟩ := h
  have h1 : s.power.mode = .run := h1
  have hb : (blkOf p).isNone = false := by cases hh : blkOf p <;> simp_all
  unfold running
  rw [if_pos h1]
  unfold regRead reqAccess access
  simp only [hb, Bool.false_eq_true, if_false]
  rw [if_neg (Nat.not_lt.mpr ho)]
  unfold State.arrive State.tlp at h3 h4 h5 ⊢
  cases r <;> simp only [h3, h4, h5, Bool.false_eq_true, if_false] <;> rfl

/-- A write of the page shell takes its register's effect whatever the crossing does (R31). -/
theorem regWrite_shell {s : State} {r : Req} {p : Nat} (h : s.runs) (hb : blkOf p ≠ none) (o : Nat) (ho : o < 0x80) (w : Word) :
    running (regWrite r p o w) s = (writeReg r (p * 0x1000 + o) w (s.tlp r)).reply r .done := by
  have h1 : s.power.mode = .run := h
  have hb : (blkOf p).isNone = false := by cases hh : blkOf p <;> simp_all
  unfold running
  rw [if_pos h1]
  unfold regWrite reqAccess access
  simp only [hb, Bool.false_eq_true, if_false]
  rw [if_pos ho]
  rfl

/-- A write of a register of the page shell that has a writable field. -/
theorem writeReg_shell {r : Req} {p o : Nat} {w : Word} {s : State} {d : RegDef} (ho : o < 0x80) (hb : blkOf p ≠ none)
    (hd : findIn headerTable o = some d) (hro : d.readOnly = false) (hp : d.pair ≠ .lo) :
    writeReg r (p * 0x1000 + o) w s = shellWrite r p o w s := by
  have h1 : (p * 0x1000 + o) / 0x1000 = p := by omega
  have h2 : (p * 0x1000 + o) % 0x1000 = o := by omega
  have hf : findReg (p * 0x1000 + o) = some d := by
    unfold findReg
    rw [h1, h2]
    cases h : blkOf p with
    | none => exact absurd h hb
    | some b => simp only [ho, if_true, hd]
  unfold writeReg
  simp only [hf, hro, hp, h1, h2, ho, if_true, if_false, Bool.false_eq_true]

/-- A write of a register of the page shell that can be written takes its effect at once. -/
theorem regWrite_header {s : State} {r : Req} {p o : Nat} (h : s.runs) (hb : blkOf p ≠ none)
    (ho : o ∈ [0x00C, 0x010, 0x014, 0x018, 0x01C, 0x028, 0x030]) (w : Word) :
    running (regWrite r p o w) s = (shellWrite r p o w (s.tlp r)).reply r .done := by
  have hlt : o < 0x80 := by
    simp only [List.mem_cons, List.not_mem_nil, or_false] at ho
    omega
  have hf : ∃ d, findIn headerTable o = some d ∧ d.readOnly = false ∧ d.pair ≠ .lo := by
    simp only [List.mem_cons, List.not_mem_nil, or_false] at ho
    rcases ho with rfl | rfl | rfl | rfl | rfl | rfl | rfl <;> exact ⟨_, rfl, by decide, by decide⟩
  obtain ⟨d, h1, h2, h3⟩ := hf
  rw [regWrite_shell h hb o hlt, writeReg_shell hlt hb h1 h2 h3]

/-- A write of a register that acts takes its action. -/
theorem writeReg_acts {r : Req} {a : Nat} {w : Word} {s t : State} {d : RegDef} (ho : ¬ a % 0x1000 < 0x80)
    (hd : findReg a = some d) (hro : d.readOnly = false) (hp : d.pair ≠ .lo) (hr : d.isRws = false) (ht : actWrite r a w s = some t) :
    writeReg r a w s = t := by
  unfold writeReg
  simp only [hd, hro, hp, ho, hr, ht, if_false, Bool.false_eq_true, Option.getD_some]

/-- A command that acts while the device runs answers the state it leads to, settled. -/
theorem gated_of {s : State} {f : State → State} {u : State} (h : running f s = u) : gated f s = .next (finish s u) := by
  unfold gated; rw [h]

/-- Such a command, on a device that runs. -/
theorem gated_runs {s : State} (h : s.runs) (f : State → State) : gated f s = .next (finish s (f s)) := by
  have h1 : s.power.mode = .run := h
  unfold gated running; rw [if_pos h1]

/-- Noting a write in SHADOW_DIRTY changes live registers alone. -/
theorem dirtyMark_eq (p : Nat) (s : State) : ∃ m x, dirtyMark p s = { s with rf := { s.rf with live := m }, msix := x } := by
  unfold dirtyMark
  exact live_eq_trans (State.put_eq s _ _ _) (State.add_eq _ _ _ _)

/-- Noting a trigger's write changes the triggers to arm alone. -/
theorem trigMark_eq (a : Nat) (s : State) : ∃ l, trigMark a s = { s with time := { s.time with trigW := l } } := by
  unfold trigMark; split
  · exact ⟨_, rfl⟩
  · exact ⟨s.time.trigW, rfl⟩

/-- A register that is not shadowed, of a page's own registers, acts when its page serves the write. -/
theorem regWrite_acts {s : State} {r : Req} {p : Nat} (h : s.reaches r p) (o : Nat) (ho : 0x80 ≤ o) (ho' : o < 0x1000) (w : Word)
    {d : RegDef} {t : State} (hd : findReg (p * 0x1000 + o) = some d) (hro : d.readOnly = false) (hp : d.pair ≠ .lo)
    (hr : d.isRws = false) (ht : actWrite r (p * 0x1000 + o) w (s.arrive r p) = some t) :
    running (regWrite r p o w) s = t.reply r .done := by
  rw [regWrite_reaches h o ho, writeReg_acts (by omega) hd hro hp hr ht]

end Sys2Proof.Machine
end

