-- ==== Sys2Proof/Laws/Registers.lean ====
section
/-!
SUPPORT. Registers, completions and reads, as the command laws use them.
-/
namespace Sys2Proof.Machine

/-- A write whose value is read from the state. -/
theorem running_regWrite_value {r : Req} {p o : Nat} (g : State → Word) (s : State) : running (fun t => regWrite r p o (g t) t) s = running (regWrite r p o (g s)) s := by
  unfold running; split <;> rfl

/-- A bit of a word. -/
theorem bitOf_eq_getLsbD (w : Word) (k : Nat) : bitOf w k = w.getLsbD k := by
  unfold bitOf
  rw [BitVec.getLsbD, Nat.testBit_eq_decide_div_mod_eq]; rfl

/-- A fold of operations that change live registers and the message table alone does so too. -/
theorem live_eq_foldl {α : Type} (f : State → α → State) (hf : ∀ t x, ∃ m y, f t x = { t with rf := { t.rf with live := m }, msix := y }) (l : List α)
    (s : State) : ∃ m y, l.foldl f s = { s with rf := { s.rf with live := m }, msix := y } := by
  induction l generalizing s with
  | nil => exact ⟨_, _, rfl⟩
  | cons a l ih => exact live_eq_trans (hf s a) (ih _)

/-- A field read after it is put. -/
theorem State.get_put_same (s : State) (a : Nat) (f : Fld) (v : Nat) : (s.put a f v).get a f = fget (fput (s.rd a) f v) f := by
  unfold State.put State.get; rw [State.rd_wr_same]

/-- The top bit after it is put. -/
theorem fget_fput_top (w : Word) (v : Nat) : fget (fput w ⟨31, 31⟩ v) ⟨31, 31⟩ = v % 2 := by
  unfold fget fput
  have := w.isLt
  simp only [BitVec.toNat_ofNat, fget]
  omega

/-- Reads depend on the live registers alone. -/
theorem State.rd_congr {s t : State} (h : s.rf.live = t.rf.live) (a : Nat) : s.rd a = t.rd a := by unfold State.rd; rw [h]

/-- Field reads depend on the live registers alone. -/
theorem State.get_congr {s t : State} (h : s.rf.live = t.rf.live) (a : Nat) (f : Fld) : s.get a f = t.get a f := by unfold State.get; rw [State.rd_congr h]

/-- A completion leaves every register. -/
theorem State.rd_reply_all (s : State) (r : Req) (c : Completion) (a : Nat) : (s.reply r c).rd a = s.rd a := by cases r <;> rfl

/-- What a completion leaves. -/
theorem State.reply_spec (s : State) (r : Req) (c : Completion) : (s.reply r c).rf.pend = s.rf.pend ∧ (s.reply r c).rf.shadow = s.rf.shadow ∧
    (s.reply r c).rf.active = s.rf.active ∧ (s.reply r c).commit = s.commit ∧ (s.reply r c).mem = s.mem ∧ (s.reply r c).lease = s.lease ∧
    (∀ a, (s.reply r c).rd a = s.rd a) ∧ (∀ a f, (s.reply r c).get a f = s.get a f) := by
  cases r <;> exact ⟨rfl, rfl, rfl, rfl, rfl, rfl, fun _ => rfl, fun _ _ => rfl⟩

/-- Raising an event leaves every register but the events and INT_PEND. -/
theorem State.rd_raise (s : State) (p b : Nat) {a : Nat} (h1 : a ≠ H.EVT_STAT p) (h2 : a ≠ H.EVT_MERGED p) (h3 : ∀ k, k < 16 → a ≠ A.SYS_INT_PEND k) :
    (s.raise p b).rd a = s.rd a := by
  unfold State.raise
  rw [State.irqSync_rd _ _ h3]
  rw [State.rd_put_ne _ _ _ h1]
  split
  · exact State.rd_put_ne _ _ _ h2
  · rfl

/-- What every operation of a fold keeps, the fold keeps. -/
theorem foldl_invariant {α β : Type} (P : β → Prop) (f : β → α → β) (hf : ∀ b a, P b → P (f b a)) (l : List α) (b : β) (h : P b) : P (l.foldl f b) := by
  induction l generalizing b with
  | nil => exact h
  | cons a l ih => exact ih _ (hf b a h)

/-- Writing a pair changes live registers alone. -/
theorem State.wr64_eq_live (s : State) (a v : Nat) : ∃ m, s.wr64 a v = { s with rf := { s.rf with live := m } } := ⟨_, rfl⟩

/-- A read of a register that gives up what it holds. -/
theorem readReg_take {r : Req} {a : Nat} {t : State} {d : RegDef} {x : Word × State} (hd : findReg a = some d) (hp : d.pair ≠ .hi)
    (hv : t.viewOf r (a / 0x1000) ≠ 2) (ht : takeReg r a t = some x) : readReg r a t = x := by
  unfold readReg
  rw [hd]
  dsimp only
  rw [if_neg hp, if_neg hv, ht]

/-- A read that takes what it returns. -/
theorem regRead_take {s : State} {r : Req} {p : Nat} (h : s.reaches r p) (o : Nat) (ho : 0x80 ≤ o) (ho' : o < 0x1000) {d : RegDef} {x : Word × State}
    (hd : findReg (p * 0x1000 + o) = some d) (hp : d.pair ≠ .hi) (hv : (s.arrive r p).viewOf r p ≠ 2)
    (ht : takeReg r (p * 0x1000 + o) (s.arrive r p) = some x) : running (regRead r p o) s = x.2.reply r (.data x.1) := by
  rw [regRead_reaches h o ho, readReg_take hd hp (by rw [show (p * 0x1000 + o) / 0x1000 = p by omega]; exact hv) ht]

/-- Counting in a pair changes live registers alone. -/
theorem State.add64_eq (s : State) (a n : Nat) : ∃ m, s.add64 a n = { s with rf := { s.rf with live := m } } := State.wr64_eq_live s a _

/-- A detector into which no injection is armed answers its own condition. -/
theorem State.detect_unarmed {s : State} {p n : Nat} {c : Bool} (h : s.injArmed p n = false) : s.detect p n c = (c, s) := by
  unfold State.detect; rw [h]; cases c <;> rfl

/-- The page of an address. -/
theorem page_of {p o : Nat} (h : o < 0x1000) : (p * 0x1000 + o) / 0x1000 = p := by omega

/-- The offset of an address in its page. -/
theorem offset_of {p o : Nat} (h : o < 0x1000) : (p * 0x1000 + o) % 0x1000 = o := by omega

/-- The register at an offset of a page, by its block's table. -/
theorem findReg_block {p o : Nat} {b : Blk} (hb : blkOf p = some b) (ho : 0x80 ≤ o) (ho' : o < 0x1000) (h : b ≠ .scan) (hp : p ≠ 0xB0) :
    findReg (p * 0x1000 + o) = findIn b.table o := by
  unfold findReg
  rw [show (p * 0x1000 + o) / 0x1000 = p by omega, show (p * 0x1000 + o) % 0x1000 = o by omega, hb]
  dsimp only
  rw [if_neg (by omega), if_neg hp, if_neg (fun hx => h hx.2)]
  cases findIn b.table o <;> rfl

/-- On a device that runs, a command acts. -/
theorem running_runs {s : State} (h : s.runs) (f : State → State) : running f s = f s := by
  have h1 : s.power.mode = .run := h
  unfold running; rw [if_pos h1]

/-- Raising an event on a condition leaves every register but the events and INT_PEND. -/
theorem State.rd_raiseIf (s : State) (c : Bool) (p b : Nat) {a : Nat} (h1 : a ≠ H.EVT_STAT p) (h2 : a ≠ H.EVT_MERGED p)
    (h3 : ∀ k, k < 16 → a ≠ A.SYS_INT_PEND k) : (s.raiseIf c p b).rd a = s.rd a := by
  unfold State.raiseIf; split
  · exact State.rd_raise s p b h1 h2 h3
  · rfl

/-- Equal states settle to equal answers. -/
theorem finish_congr {s t u : State} (h : t = u) : (Host.Outcome.next (finish s t) : Answer) = .next (finish s u) := by rw [h]

/-- A register of a queue's page. -/
theorem findReg_queue (q : Nat) (hq : q < 16) (o : Nat) (ho : 0x80 ≤ o) (ho' : o < 0x1000) : findReg (P.Q q * 0x1000 + o) = findIn qTable o :=
  findReg_block ((by decide : ∀ k, k < 16 → blkOf (P.Q k) = some .q) q hq) ho ho' (by decide) (by unfold P.Q; omega)

end Sys2Proof.Machine
end

