-- ==== Sys2Proof/Laws/Boundary.lean ====
section
/-!
SUPPORT. The boundary event, and the timeouts that a boundary finds reached (R23, R349).
-/
namespace Sys2Proof.Machine

/-- Reporting a page's fault leaves every register but its status and events. -/
theorem State.rd_setFault (s : State) (p : Nat) (b : Bool) {a : Nat} (h0 : a ≠ H.PAGE_STAT p) (h1 : a ≠ H.EVT_STAT p)
    (h2 : a ≠ H.EVT_MERGED p) (h3 : ∀ k, k < 16 → a ≠ A.SYS_INT_PEND k) : (s.setFault p b).rd a = s.rd a := by
  unfold State.setFault
  exact (State.rd_raiseIf _ _ _ _ h1 h2 h3).trans (State.rd_put_ne _ _ _ h0)

/-- What an operation on live registers alone leaves that keeps TIME_BND_FRAME. -/
def KeepsBndFrame (s t : State) : Prop :=
  (∃ m x, t = { s with rf := { s.rf with live := m }, msix := x }) ∧ t.rd A.TIME_BND_FRAME = s.rd A.TIME_BND_FRAME

theorem KeepsBndFrame.trans {s t u : State} (h : KeepsBndFrame s t) (h' : KeepsBndFrame t u) : KeepsBndFrame s u :=
  ⟨live_eq_trans h.1 h'.1, h'.2.trans h.2⟩

theorem KeepsBndFrame.put (s : State) {a : Nat} (f : Fld) (v : Nat) (h : A.TIME_BND_FRAME ≠ a) : KeepsBndFrame s (s.put a f v) :=
  ⟨State.put_eq _ _ _ _, State.rd_put_ne _ _ _ h⟩

theorem KeepsBndFrame.wr (s : State) {a : Nat} (v : Word) (h : A.TIME_BND_FRAME ≠ a) : KeepsBndFrame s (s.wr a v) :=
  ⟨State.wr_eq _ _ _, State.rd_wr_ne _ _ h⟩

theorem KeepsBndFrame.raiseIf (s : State) (c : Bool) (b : Nat) : KeepsBndFrame s (s.raiseIf c P.SYNC b) :=
  ⟨State.raiseIf_eq _ _ _ _, State.rd_raiseIf _ _ _ _ (by decide) (by decide) (by decide)⟩

theorem KeepsBndFrame.wr64 (s : State) {a : Nat} (v : Nat) (h : A.TIME_BND_FRAME ≠ a) (h' : A.TIME_BND_FRAME ≠ a + 4) : KeepsBndFrame s (s.wr64 a v) :=
  (KeepsBndFrame.wr s _ h).trans (KeepsBndFrame.wr _ _ h')

/-- Reporting the source of boundaries. -/
theorem srcSync_keeps (s : State) : KeepsBndFrame s (srcSync s) := by
  unfold srcSync
  generalize (match s.actF A.SYNC_CTRL F.SYNC_CTRL_SRC with
    | 0 => true
    | 1 => s.get A.TIME_STAT F.TIME_STAT_STATE == 2
    | _ => s.get A.SYNC_GL_STAT F.SYNC_GL_STAT_TIMED_OUT == 0) = ok
  exact ((KeepsBndFrame.put s _ _ (by decide)).trans (KeepsBndFrame.put _ _ _ (by decide))).trans
    ((KeepsBndFrame.raiseIf _ _ _).trans ⟨State.setFault_eq _ _ _, State.rd_setFault _ _ _ (by decide) (by decide) (by decide) (by decide)⟩)

/-- The reported period, phase error and, without genlock, alignment. -/
theorem KeepsBndFrame.phase (s : State) (v w : Word) (k : Nat) :
    KeepsBndFrame s (if ((s.wr A.SYNC_PERIOD_NOW v).wr A.SYNC_PHASE_ERR w).bndSrc = 2 then (s.wr A.SYNC_PERIOD_NOW v).wr A.SYNC_PHASE_ERR w
      else ((s.wr A.SYNC_PERIOD_NOW v).wr A.SYNC_PHASE_ERR w).wr64 A.SYNC_ALIGN_K_LO k) := by
  have h := (KeepsBndFrame.wr s v (a := A.SYNC_PERIOD_NOW) (by decide)).trans (KeepsBndFrame.wr _ w (a := A.SYNC_PHASE_ERR) (by decide))
  split
  · exact h
  · exact h.trans (KeepsBndFrame.wr64 _ _ (a := A.SYNC_ALIGN_K_LO) (by decide) (by decide))

/-- The reports of a boundary change live registers alone, and TIME_BND_FRAME shows its number (R349). -/
theorem boundaryReport_spec (k : Int) (err : Rat) (pulling : Bool) (s : State) :
    (∃ m x, boundaryReport k err pulling s = { s with rf := { s.rf with live := m }, msix := x }) ∧
      (boundaryReport k err pulling s).rd A.TIME_BND_FRAME = w32 s.time.frame := by
  unfold boundaryReport
  simp only
  generalize hs1 : (s.wr64 A.TIME_BND_SEC_LO (secOf s.time.boundary)).wr A.TIME_BND_NS (w32 (nsOf s.time.boundary)) = s1
  have g1 : ∃ m x, s1 = { s with rf := { s.rf with live := m }, msix := x } := by
    obtain ⟨m, e⟩ := State.wr64_eq_live s A.TIME_BND_SEC_LO (secOf s.time.boundary)
    rw [← hs1, e]
    exact live_eq_trans ⟨m, s.msix, rfl⟩ (State.wr_eq _ _ _)
  have hf : s1.time.frame = s.time.frame := by obtain ⟨m, x, e⟩ := g1; rw [e]
  rw [hf]
  have g2 := live_eq_trans g1 (State.wr_eq s1 A.TIME_BND_FRAME (w32 s.time.frame))
  have f2 : (s1.wr A.TIME_BND_FRAME (w32 s.time.frame)).rd A.TIME_BND_FRAME = w32 s.time.frame := State.rd_wr_same _ _ _
  generalize s1.wr A.TIME_BND_FRAME (w32 s.time.frame) = s2 at *
  suffices h : ∀ t, KeepsBndFrame s2 t → (∃ m x, t = { s with rf := { s.rf with live := m }, msix := x }) ∧ t.rd A.TIME_BND_FRAME = w32 s.time.frame by
    apply h
    refine KeepsBndFrame.trans (KeepsBndFrame.trans (KeepsBndFrame.trans (KeepsBndFrame.trans ?_
      (KeepsBndFrame.put _ _ _ (by decide))) (KeepsBndFrame.raiseIf _ _ _)) (KeepsBndFrame.put _ _ _ (by decide))) (srcSync_keeps _)
    exact KeepsBndFrame.phase s2 _ _ _
  exact fun t ht => ⟨live_eq_trans g2 ht.1, ht.2.trans f2⟩

/-- What the boundary event leaves: its frame number, one boundary more, the boundary before, and its report (R349). -/
theorem markBoundary_spec (n : Nat) (s : State) : let a := markBoundary n s
    a.frameNum = n ∧ a.time.bnds = s.time.bnds + 1 ∧ a.time.prevBoundary = s.time.boundary ∧ a.rd A.TIME_BND_FRAME = w32 n := by
  unfold markBoundary
  simp only
  obtain ⟨⟨m, x, e⟩, f⟩ := boundaryReport_spec s.nextBoundary.2.1 s.nextBoundary.2.2.1 s.nextBoundary.2.2.2 (boundaryMark s.nextBoundary.1 n s)
  have h : (boundaryMark s.nextBoundary.1 n s).time.frame = n ∧ (boundaryMark s.nextBoundary.1 n s).time.bnds = s.time.bnds + 1 ∧
      (boundaryMark s.nextBoundary.1 n s).time.prevBoundary = s.time.boundary := by
    generalize s.nextBoundary.1 = q
    unfold boundaryMark
    simp only
    refine ⟨trivial, ?_, ?_⟩ <;> split <;> rfl
  rw [e] at f
  rw [e]
  exact ⟨h.1, h.2.1, h.2.2, by rw [h.1] at f; exact f⟩

/-- Waiting for a time moves nothing but the time, by whole ticks. -/
theorem reach_form (due : Nat) (s : State) : ∃ k, reach due s = { s with time := { s.time with
    t := s.time.t + k * s.time.incr, ticks := s.time.ticks + k } } := by
  unfold reach
  split
  · exact ⟨0, by rw [Nat.zero_mul]; rfl⟩
  · exact ⟨_, rfl⟩

/-! Waiting leaves every part of the state but the time. -/

@[simp] theorem reach_rf (due : Nat) (s : State) : (reach due s).rf = s.rf := by obtain ⟨k, e⟩ := reach_form due s; rw [e]
@[simp] theorem reach_commit (due : Nat) (s : State) : (reach due s).commit = s.commit := by obtain ⟨k, e⟩ := reach_form due s; rw [e]
@[simp] theorem reach_msix (due : Nat) (s : State) : (reach due s).msix = s.msix := by obtain ⟨k, e⟩ := reach_form due s; rw [e]
@[simp] theorem reach_power (due : Nat) (s : State) : (reach due s).power = s.power := by obtain ⟨k, e⟩ := reach_form due s; rw [e]
@[simp] theorem reach_gaffer (due : Nat) (s : State) : (reach due s).gaffer = s.gaffer := by obtain ⟨k, e⟩ := reach_form due s; rw [e]
@[simp] theorem reach_keepLog (due : Nat) (s : State) : (reach due s).keepLog = s.keepLog := by obtain ⟨k, e⟩ := reach_form due s; rw [e]
@[simp] theorem reach_dbg (due : Nat) (s : State) : (reach due s).dbg = s.dbg := by obtain ⟨k, e⟩ := reach_form due s; rw [e]
@[simp] theorem reach_lease (due : Nat) (s : State) : (reach due s).lease = s.lease := by obtain ⟨k, e⟩ := reach_form due s; rw [e]
@[simp] theorem reach_ingest (due : Nat) (s : State) : (reach due s).ingest = s.ingest := by obtain ⟨k, e⟩ := reach_form due s; rw [e]
@[simp] theorem reach_sched (due : Nat) (s : State) : (reach due s).sched = s.sched := by obtain ⟨k, e⟩ := reach_form due s; rw [e]
@[simp] theorem reach_marver (due : Nat) (s : State) : (reach due s).marver = s.marver := by obtain ⟨k, e⟩ := reach_form due s; rw [e]
@[simp] theorem reach_solver (due : Nat) (s : State) : (reach due s).solver = s.solver := by obtain ⟨k, e⟩ := reach_form due s; rw [e]
@[simp] theorem reach_loop (due : Nat) (s : State) : (reach due s).loop = s.loop := by obtain ⟨k, e⟩ := reach_form due s; rw [e]
@[simp] theorem reach_net (due : Nat) (s : State) : (reach due s).net = s.net := by obtain ⟨k, e⟩ := reach_form due s; rw [e]
@[simp] theorem reach_scan (due : Nat) (s : State) : (reach due s).scan = s.scan := by obtain ⟨k, e⟩ := reach_form due s; rw [e]
@[simp] theorem reach_tuiper (due : Nat) (s : State) : (reach due s).tuiper = s.tuiper := by obtain ⟨k, e⟩ := reach_form due s; rw [e]
@[simp] theorem reach_fixture (due : Nat) (s : State) : (reach due s).fixture = s.fixture := by obtain ⟨k, e⟩ := reach_form due s; rw [e]
@[simp] theorem reach_lehr (due : Nat) (s : State) : (reach due s).lehr = s.lehr := by obtain ⟨k, e⟩ := reach_form due s; rw [e]
@[simp] theorem reach_cal (due : Nat) (s : State) : (reach due s).cal = s.cal := by obtain ⟨k, e⟩ := reach_form due s; rw [e]
@[simp] theorem reach_twin (due : Nat) (s : State) : (reach due s).twin = s.twin := by obtain ⟨k, e⟩ := reach_form due s; rw [e]
@[simp] theorem reach_mem (due : Nat) (s : State) : (reach due s).mem = s.mem := by obtain ⟨k, e⟩ := reach_form due s; rw [e]
@[simp] theorem reach_free (due : Nat) (s : State) : (reach due s).free = s.free := by obtain ⟨k, e⟩ := reach_form due s; rw [e]
@[simp] theorem reach_pending (due : Nat) (s : State) : (reach due s).pending = s.pending := by obtain ⟨k, e⟩ := reach_form due s; rw [e]

/-- Waiting leaves what the active set says. -/
@[simp] theorem reach_actF (due : Nat) (s : State) (a : Nat) (f : Fld) : (reach due s).actF a f = s.actF a f := by
  unfold State.actF State.act; rw [reach_rf]

/-- A time that comes no later than the next boundary is reached. -/
theorem reach_met {due : Nat} {s : State} (hi : 0 < s.time.incr) (h : ¬ s.nextBoundary.1 < (due : Rat)) : due ≤ (reach due s).nowNs := by
  unfold reach
  split
  · rename_i c
    have c := c.resolve_right h
    exact (Nat.le_div_iff_mul_le (by decide)).mpr c
  · show due ≤ (s.time.t + _ * s.time.incr) / 2 ^ 32
    refine (Nat.le_div_iff_mul_le (by decide)).mpr ?_
    have := Nat.lt_div_mul_add (a := due * 2 ^ 32 - s.time.t + s.time.incr - 1) hi
    omega

/-- What judging a flow's timeout leaves of what the judgement reads, and the timeouts it keeps. -/
structure KeepsJudged (s t : State) : Prop where
  rf : t.rf = s.rf
  now : t.nowNs = s.nowNs
  lastUnit : ∀ f, (t.flow f).lastUnit = (s.flow f).lastUnit
  timedOut : ∀ f, (s.flow f).timedOut = true → (t.flow f).timedOut = true

theorem KeepsJudged.refl (s : State) : KeepsJudged s s := ⟨rfl, rfl, fun _ => rfl, fun _ h => h⟩

theorem KeepsJudged.trans {s t u : State} (h : KeepsJudged s t) (h' : KeepsJudged t u) : KeepsJudged s u :=
  ⟨h'.rf.trans h.rf, h'.now.trans h.now, fun f => (h'.lastUnit f).trans (h.lastUnit f), fun f x => h'.timedOut f (h.timedOut f x)⟩

/-- A flow's timeout marks that flow, and is due to be reported (R23). -/
theorem flowTimeout_spec (g : Nat) (s : State) : KeepsJudged s (flowTimeout g s) ∧ ((flowTimeout g s).flow g).timedOut = true := by
  unfold flowTimeout
  split
  · exact ⟨KeepsJudged.refl s, ‹_›⟩
  · refine ⟨⟨rfl, rfl, fun f => ?_, fun f hf => ?_⟩, ?_⟩ <;> simp only [State.flow, State.setFlow, State.streamDue, amGet_set]
    · split <;> simp_all
    · split
      · rfl
      · exact hf
    · rfl

/-- At boundary N, a flow that is in service, of no sACN type and without a valid unit for its timeout, is timed out (R23, R156). -/
theorem flowsElapsed_spec {f : Nat} {s : State} (hl : f ∈ s.flowsLive) (h2 : s.flowType f ≠ 2) (he : s.flowElapsed f = true) :
    ((flowsElapsed s).flow f).timedOut = true := by
  unfold flowsElapsed
  generalize s.flowsLive = l at hl ⊢
  suffices h : ∀ t, KeepsJudged s t → (f ∈ l ∨ (t.flow f).timedOut = true) →
      ((l.foldl (fun (t : State) f => if t.flowType f != 2 && t.flowElapsed f then flowTimeout f t else t) t).flow f).timedOut = true from
    h s (KeepsJudged.refl s) (.inl hl)
  clear hl
  induction l with
  | nil => exact fun t _ h => h.elim (fun h => absurd h List.not_mem_nil) id
  | cons g l ih =>
    intro t ht h
    rw [List.foldl_cons]
    have hg : KeepsJudged t (if t.flowType g != 2 && t.flowElapsed g then flowTimeout g t else t) := by
      split
      · exact (flowTimeout_spec g t).1
      · exact KeepsJudged.refl t
    refine ih _ (ht.trans hg) (h.elim (fun h => (List.mem_cons.mp h).elim (fun e => .inr ?_) .inl) fun h => .inr (hg.timedOut f h))
    subst e
    have c : (t.flowType f != 2 && t.flowElapsed f) = true := by
      have a : t.flowType f = s.flowType f := by unfold State.flowType State.actF State.act; rw [ht.rf]
      have b : t.flowElapsed f = s.flowElapsed f := by
        unfold State.flowElapsed State.actF State.act; rw [ht.rf, ht.now, ht.lastUnit]
      rw [a, b, he]
      simp [h2]
    rw [if_pos c]
    exact (flowTimeout_spec f t).2

end Sys2Proof.Machine
end

