-- ==== Sys2Proof/Laws/Commands.lean ====
section
/-!
SUPPORT. What single commands do where their conditions hold: one law per operation.
-/
namespace Sys2Proof.Machine

/-- A console datagram that its flow hears is accepted. -/
theorem conAccept_hears {s : State} {f typ : Nat} {ws : List Word} {bytes : Nat} (h : s.hears f typ ws bytes) :
    consoleAccept f typ ws bytes s = (some (consoleBody ws bytes), s.heard f ws) := by
  obtain ⟨h1, h2, h0, h3, h4, h5, h6, h7, h8, h9⟩ := h
  have hr : flowRefused f s = none := by unfold flowRefused; rw [h0]; rfl
  unfold consoleAccept
  dsimp only
  rw [if_neg (by rw [h1, h2]; decide), if_neg (by rw [h3, h4, h5]; simp; omega), hr]
  dsimp only
  rw [if_neg (show ¬ bytes < 16 + fget (wordAt ws 3) ⟨31, 16⟩ by omega)]
  rw [if_neg (by intro ⟨a, b⟩; have := h8 a; omega)]
  have hl : (match (s.flow f).conLast with
          | none => true
          | some (q, c) => c != wordAt ws 2 || later (wordAt ws 1).toNat q.toNat) = true := by
    cases hc : (s.flow f).conLast with
    | none => rfl
    | some x =>
      obtain ⟨q, c⟩ := x
      dsimp only
      by_cases e : c = wordAt ws 2
      · rw [h9 q c hc e, Bool.or_true]
      · simp [e]
  refine (if_neg (fun hx => ?_)).trans rfl
  exact Bool.noConfusion ((congrArg not hl).symm.trans hx)

/-- A pass of Marver ends. -/
theorem passEndOp_some {s : State} {p : Pass} (h1 : s.marver.pass = some p) : passEndOp s = (
      let t := workEnded s.nowNs (engineRead (s.layer (p.layers.headD 0)).base (passWork p (unionCells (p.layers.map s.layer))) s)
      let u := t.add64 A.MARVER_OPS_LO (p.layers.foldl (fun n i => n + (t.layer i).cells) 0)
      let v : State := { u with marver := { u.marver with
        pass := none, applied := u.marver.applied ++ p.layers.map fun i => (i, u.marver.passes - 1) } }
      (marverFinish (marverRelease v))) := by
  unfold passEndOp passEnds
  rw [h1]

/-- The solver's frame is done. -/
theorem solverDone_busy {a : State} {ns : Nat} (h1 : a.solver.busy = true) : solverDone ns a = (let t := solverFin 1 (solveTo 16777216 a)
       let u := (t.wr A.SOLVER_STAT (w32 (t.solver.k * 2 ^ 24))).wr A.SOLVER_FRONTIER (w32 16777216)
       (solverFault (u.wr A.SOLVER_DONE_US (w32 (min 65535 (ns / 1000))))).raise P.SOLVER 0) := by
  unfold solverDone
  exact if_neg (by rw [h1]; decide)

/-- A frame of Marver that has begun does not begin again. -/
theorem marverBegin_begun {s : State} (hb : s.marver.begun = true) : marverBegin s = s := by unfold marverBegin; rw [if_pos hb]

/-- Marver's base writer is done. -/
theorem baseWriterDoneOp_spec {s : State} (h2 : s.marver.busy = true) (h3 : s.marver.baseDone = false) : baseWriterDoneOp s =
      (let t := workEnded s.nowNs (baseWrite none s)
      marverFinish { t with marver := { t.marver with baseDone := true } }) := by
  unfold baseWriterDoneOp baseWriterEnds
  exact if_pos (by rw [h2, h3]; rfl)

/-- A pass of Marver starts. -/
theorem passStartOp_spec {s : State} (h2 : s.marver.busy = true) (h3 : s.marver.pass = none) (h4 : s.unapplied.takeWhile s.layerReady ≠ []) :
   passStartOp s = { s with
         marver := { s.marver with pass := some ⟨s.unapplied.takeWhile s.layerReady, s.nowNs⟩, passes := s.marver.passes + 1 } } := by
  have e : (s.unapplied.takeWhile s.layerReady).isEmpty = false := by
    cases hl : s.unapplied.takeWhile s.layerReady with
    | nil => exact absurd hl h4
    | cons x l => rfl
  unfold passStartOp
  exact if_pos (by rw [h2, h3, e]; rfl)

/-- An engine frame that has started goes on, or waits for its HEAD. -/
theorem engineStartOp_go {s t : State} {e : Nat} {f : EngFrame} (h : engineStart e (roleChange s) = some t) (hf : ((headSend t).engine e).cur = some f) :
    engineFrameStartOp e s = if f.wait then headFollow (headSend t) else engineGo e (headSend t) := by
  unfold engineFrameStartOp
  dsimp only
  rw [h]; dsimp only; rw [hf]

/-- An engine frame of the device's frame starts. -/
theorem engineStart_device {s : State} {e : Nat} (he : e < 8) (ho : s.offline (P.SCAN e) = false) (h1 : (s.engine e).set = [])
    (h2 : (ownRate s.act e && engOn s.act e) = false) (h3 : 2 ≤ s.time.bnds) (h4 : engOn s.prv e = true) (h5 : ownRate s.prv e = false)
    (h6 : ∀ f, (s.engine e).cur = some f → f.num ≠ (s.frameNum + 2 ^ 32 - 1) % 2 ^ 32) :
    engineStart e s = some (deviceFrame e ((s.frameNum + 2 ^ 32 - 1) % 2 ^ 32) (engineLatch e s)) := by
  generalize hn : (s.frameNum + 2 ^ 32 - 1) % 2 ^ 32 = num at *
  unfold engineStart
  rw [if_neg (by rw [ho]; simp; omega)]
  dsimp only
  rw [hn, h1, if_neg (by
    intro hx
    rcases hx with hx | hx
    · simp at hx
    · rw [hx.1, hx.2] at h2; simp at h2)]
  refine if_neg ?_
  intro hx
  rcases hx with hx | hx | hx | hx
  · omega
  · cases hc : (s.engine e).cur with
    | none => rw [hc] at hx; simp at hx
    | some f => rw [hc] at hx; have := h6 f hc; simp [this] at hx
  · rw [h4] at hx; simp at hx
  · rw [h5] at hx; simp at hx

/-- An engine frame at the engine's own rate starts. -/
theorem engineStart_live {s : State} {e : Nat} (he : e < 8) (ho : s.offline (P.SCAN e) = false) (h1 : (s.engine e).cur.isSome = true) (h2 : (s.engine e).set ≠ [])
    (h3 : engOn (amGet resetOf (s.engine e).set) e = true) (h4 : ownRate (amGet resetOf (s.engine e).set) e = true)
    (h5 : engOn (amGet resetOf ((engineLatch e s).engine e).set) e = true) (h6 : ownRate (amGet resetOf ((engineLatch e s).engine e).set) e = true) :
    engineStart e s = some (ownFrame e (engineLatch e s)) := by
  have hs : (s.engine e).set.isEmpty = false := by cases h : (s.engine e).set <;> simp_all
  unfold engineStart
  rw [if_neg (by rw [ho]; simp; omega)]
  dsimp only
  rw [h1, hs, h3, h4]
  simp only [Bool.not_false, if_true, true_or, h5, h6, Bool.and_self]

/-- The first engine frame at the engine's own rate starts. -/
theorem engineStart_new {s : State} {e : Nat} (he : e < 8) (ho : s.offline (P.SCAN e) = false) (h1 : (s.engine e).cur = none)
    (h3 : ownRate s.act e = true) (h4 : engOn s.act e = true) {a : State} (ha : a = takeBase e ((ownFix e (engineLatch e s)).ownNext e).2 (ownFix e (engineLatch e s)))
    (h5 : engOn (amGet resetOf (a.engine e).set) e = true) (h6 : ownRate (amGet resetOf (a.engine e).set) e = true) :
    engineStart e s = some (ownFrame e a) := by
  unfold engineStart
  rw [if_neg (by rw [ho]; simp; omega)]
  dsimp only
  subst ha
  rw [h1, h3, h4]
  simp only [if_true, h5, h6, Bool.and_self, Option.isSome_none, Bool.false_and, Bool.false_eq_true, if_false]
  exact if_pos (Or.inr ⟨trivial, trivial⟩)

/-- A walk that waits goes on. -/
theorem walkResumeOp_some {s : State} {e j c : Nat} {f : EngFrame} (h1 : (s.engine e).cur = some f) (h2 : (s.walk e j).waiting = some c) :
    walkResumeOp e j s = carriageCheck e (walkRun e j (if f.src == some s.solving.frame && s.solver.busy then solverPass (max c (s.walkLead e j c)) s else s)) := by
  unfold walkResumeOp; rw [h1]; dsimp only; rw [h2]

/-- A good message from a fixture is taken. -/
theorem upTake_good {l : Nat} {s : State} (h1 : (takeRx l s).tuiperOn = true) (h2 : (takeRx l s).injArmed P.TUIPER 4 = false)
   (h3 : (takeRx l s).injArmed P.TUIPER 31 = false) : upTake l true s = (true, takeRx l s) := by
  unfold upTake
  dsimp only
  rw [if_neg (by rw [h1]; decide), State.detect_unarmed h2]
  dsimp only
  rw [Bool.not_true, State.detect_unarmed h3]
  rfl

/-- The slotCmd_fields of TX_CMD. -/
theorem txCmd_fields {v : Word} {ty : Nat} (h : ty = 7 ∨ ty = 8) : fget (fput v F.TUIPER_TX_CMD_TYPE ty) F.TUIPER_TX_CMD_TYPE = ty ∧
   fget (fput v F.TUIPER_TX_CMD_TYPE ty) F.TUIPER_TX_CMD_WORDS = fget v F.TUIPER_TX_CMD_WORDS := by
  have := v.isLt
  unfold fput fget F.TUIPER_TX_CMD_TYPE F.TUIPER_TX_CMD_WORDS
  simp only [BitVec.toNat_ofNat]
  omega

/-- TX_CMD accepts a request. -/
theorem txCmd_accepted {a : State} {v : Word} {ty : Nat} (h : ty = 7 ∨ ty = 8) (hi : a.injArmed P.TUIPER 31 = false) (h1 : 1 ≤ fget v F.TUIPER_TX_CMD_WORDS) (h2 : fget v F.TUIPER_TX_CMD_WORDS ≤ 256) (h3 : a.get A.TUIPER_TX_STAT F.TUIPER_TX_STAT_BUSY = 0)
    (h4 : a.tuiperOn = true) : txCmd (fput v F.TUIPER_TX_CMD_TYPE ty) a = (
        let w := fput v F.TUIPER_TX_CMD_TYPE ty
        let body := (List.range (fget w F.TUIPER_TX_CMD_WORDS)).map fun i => a.rd (A.TUIPER_TX_DATA i)
        { a.put A.TUIPER_TX_STAT F.TUIPER_TX_STAT_BUSY 1 with
          tuiper := { a.tuiper with req := some (ty, fget w F.TUIPER_TX_CMD_LINK, body) } }) := by
  obtain ⟨e1, e2⟩ := txCmd_fields (v := v) h
  unfold txCmd
  dsimp only
  rw [State.detect_unarmed hi, e1, e2, h3, h4]
  have : ((ty != 7 && ty != 8) || fget v F.TUIPER_TX_CMD_WORDS == 0 || decide (256 < fget v F.TUIPER_TX_CMD_WORDS) || 0 == 1 || !true) = false := by
    rcases h with rfl | rfl <;> simp <;> omega
  rw [this]
  rfl

/-- A frame of a good length reaches an enabled port. -/
theorem portReceiveOp_frame {p : Nat} {f : RxFrame} {s : State} (hp : p < 71) (ho : s.portOn p = true) (hk : f.kind = .frame) (ha : f.asmErr = false ∨ 64 ≤ p) {t : State}
   (ht : t = (s.add64 (A.PORT_RX_FRAMES_LO p) 1).add64 (A.PORT_RX_BYTES_LO p) (f.data.length + 4)) (h1 : 14 ≤ f.data.length)
   (h2 : f.data.length + 4 ≤ t.actF (A.PORT_MAC_CTRL p) F.PORT_MAC_CTRL_MAX_FRAME) (h3 : t.injArmed (P.PORT p) 1 = false) : portReceiveOp p f s =
     if f.fcsErr || f.alignErr || lenError f.data then badFrame p f.data false f.fcsErr f.alignErr (lenError f.data) t
          else if !t.passesFilter p f.data then t.add64 (A.PORT_RX_FILTERED_LO p) 1
          else
            let q := t.detect (P.PORT p) 3 (rxCapacity p < (t.port p).rxBytes + f.data.length)
            if q.1 then (q.2.add64 (A.PORT_RX_OVF_LO p) 1).raise (P.PORT p) 3
            else deliver p f.data q.2 := by
  unfold portReceiveOp
  rw [if_neg (by rw [ho]; simp; omega), hk]
  dsimp only
  rw [if_neg (by rcases ha with h | h; (rw [h]; simp); simp; omega), if_neg (by omega), ← ht]
  have e : f.data.take (t.actF (A.PORT_MAC_CTRL p) F.PORT_MAC_CTRL_MAX_FRAME) = f.data := List.take_of_length_le (by omega)
  rw [e, decide_eq_false (show ¬ t.actF (A.PORT_MAC_CTRL p) F.PORT_MAC_CTRL_MAX_FRAME < f.data.length + 4 by omega)]
  simp only [Bool.false_eq_true, if_false, State.detect_unarmed h3]

/-- A link comes up. -/
theorem linkUpOp_spec {p rate adv : Nat} {s : State} (h1 : p < 71) (h2 : s.linkUp p = false) (h3 : s.rateOk p rate = true) (h4 : s.portOut p = false) :
   linkUpOp p rate adv s = (let t := s.setPort p { s.port p with partner := adv }
    if 64 ≤ p then linkIsUp p rate t
    else if t.inReneg p then
      match (t.port p).target with
      | some g =>
        if rate = g then
          let up := rate == t.get (A.PORT_RATE_STAT p) F.PORT_RATE_STAT_RATE_MAX
          let s := if up then t.inc (A.PORT_STEP_UP p) else t.inc (A.PORT_STEP_DOWN p)
          let s := rateState p rate (s.setPort p { s.port p with target := none })
          (linkIsUp p rate s).raise (P.PORT p) 8
        else renegFail p t
      | none =>
        let s := t.put (A.PORT_RATE_STAT p) F.PORT_RATE_STAT_RATE_MAX (t.rateMax p rate)
        (linkIsUp p rate (rateState p rate s)).raise (P.PORT p) 8
    else
      let s := t.put (A.PORT_RATE_STAT p) F.PORT_RATE_STAT_RATE_MAX (t.rateMax p rate)
      linkIsUp p rate (rateState p rate s)) := by
      unfold linkUpOp
      exact if_neg (by rw [h2, h3, h4]; simp; omega)

/-- A packet ends at an INPUT port. -/
theorem dmxInputOp_spec {n : Nat} {p : DmxPacket} {s : State} (h1 : s.dmxOn n 1 = true) (h2 : s.injArmed P.DMX 18 = false) : dmxInputOp n p s =
    if p.framingError || p.shortBreak then (s.inc (A.DMX_ERR n)).raise P.DMX 18
    else if p.startCode ≠ 0 then s.inc (A.DMX_ALT_SC n)
    else
      let slots := (p.slots.take 512).map (·.toNat)
      let s := s.inc (A.DMX_PKTS n)
      let s := (s.put (A.DMX_STAT n) F.DMX_STAT_VALID 1).put (A.DMX_STAT n) F.DMX_STAT_LAST_SLOTS slots.length
      let s := dmxRecord n s
      let was := (s.dmxPort n).timedOut
      let s := s.setDmx n { s.dmxPort n with slots := slots, lastUnit := s.nowNs, newUnit := true, polK := none }
      if was then ((dmxResume n s).put (A.DMX_STAT n) F.DMX_STAT_FADING 0).raise P.DMX 16 else s := by
  unfold dmxInputOp
  rw [if_neg (by rw [h1]; decide), h2]
  simp only [Bool.and_false, Bool.or_false, Bool.false_eq_true, if_false]

/-- An edge of a pin into whose page no injection is armed passes. -/
theorem pinRemoved_unarmed {p c : Nat} {f : Option Nat} {s : State} (h : s.injArmed p 31 = false) : pinRemoved p c f s = (false, s) := by
  unfold pinRemoved; exact if_neg (by rw [h]; decide)

/-- A PTP domain into which no injection is armed goes on. -/
theorem domInject_unarmed {d : Nat} {s : State} (h : s.injArmed P.PTP (1 + d) = false) : domInject d s = s := by
  unfold domInject; rw [State.detect_unarmed h]; exact if_neg (by simp)

/-- The genlock flywheel takes an edge that has not come. -/
theorem genlockFlywheelOp_spec {s : State} {e : Nat} (h1 : s.glLocked = true) (he : s.time.gl.edge = some e) (hd : s.glDue.getD 0 ≤ s.nowNs) :
   genlockFlywheelOp s =
   (let g := s.time.gl
    let t := ((s.inc A.SYNC_GL_MISS).raise P.SYNC 6).setGl { g with edge := some (e + s.pAvg), misses := g.misses + 1, fly := true, row := 0 }
    if 4 ≤ g.misses + 1 then t.put A.SYNC_GL_STAT F.SYNC_GL_STAT_LOCKED 0 else t) := by
  obtain ⟨m, x, k⟩ := live_eq_trans (State.inc_eq s A.SYNC_GL_MISS) (State.raise_eq _ P.SYNC 6)
  have : ((s.inc A.SYNC_GL_MISS).raise P.SYNC 6).pAvg = s.pAvg := by rw [k]; rfl
  unfold genlockFlywheelOp
  rw [he]; dsimp only
  rw [if_neg (by rw [h1]; simp; exact hd), this]

/-- An LTC frame is complete. -/
theorem ltcFrameOp_spec {s : State} {f : LtcFrame} (h1 : s.actF A.SYNC_LTC_CFG F.SYNC_LTC_CFG_EN ≠ 0) (h2 : s.injArmed P.SYNC 31 = false) :
   ltcFrameOp f s = if f.reversed then s.inc A.SYNC_LTC_REVERSE
       else match ltcRate f.bitRate f.dropFlag with
       | none => s.inc A.SYNC_LTC_ERR
       | some rate =>
         if f.bitError ∨ !bcdOk f.tc (tcFps rate) then s.inc A.SYNC_LTC_ERR
         else
           let s := (s.put A.SYNC_LTC_STAT F.SYNC_LTC_STAT_DF f.dropFlag.toNat).put A.SYNC_LTC_STAT F.SYNC_LTC_STAT_RATE rate
           if rate ≠ s.actF A.SCHED_TC_CTRL ⟨29, 28⟩ then s.inc A.SYNC_LTC_RATE_ERR
           else
             let tc := if s.actF A.SYNC_LTC_CFG F.SYNC_LTC_CFG_ADVANCE = 1 then tcNext f.tc rate else f.tc
             ltcUnit tc 0 (s.wr A.SYNC_LTC_USER f.user) := by
  unfold ltcFrameOp
  rw [if_neg h1, pinRemoved_unarmed h2]
  dsimp only
  refine (if_neg (by simp)).trans ?_
  cases f.reversed
  · cases ltcRate f.bitRate f.dropFlag
    · rfl
    · rfl
  · rfl

/-- An Announce that a domain hears. -/
theorem ptpAnnounceOp_spec {d : Nat} {m : PtpAnnounce} {s u : State} (hu : u = takeRx m.port s) (h1 : u.ptpHears d m.port m.domain m.ether = true)
   {t : State} (ht : t = u.inc (A.PTP_ANN_RX d)) (h5 : t.injArmed P.PTP (1 + d) = false) : ptpAnnounceOp d m s =
    if t.domState d = 4 then domTake d 1 t
    else match (t.dom d).parent with
    | none => govSync (chooseParent d m t)
    | some p => if (p.source = m.source ∧ p.port = m.port) ∨ better m p then govSync (chooseParent d m t) else t := by
  unfold ptpAnnounceOp
  rw [← hu]
  dsimp only
  rw [if_neg (by rw [h1]; decide), ← ht, domInject_unarmed h5]
  all_goals (cases (t.dom d).parent <;> rfl)

/-- A Delay_Resp of the parent completes its exchange. -/
theorem ptpDelayRespOp_spec {s u : State} {d : Nat} {m : PtpDelayResp} {q : Nat} {t3 t1 t2 : Int} (hu : u = takeRx m.port s)
   (h0 : u.ptpHears d m.port m.domain m.ether = true) (h3 : u.fromParent d m.port m.source = true)
   (h1 : (u.dom d).dreq = some (q, some t3)) (h2 : (u.dom d).last = some (t1, t2)) (h4 : q = m.seqId) : ptpDelayRespOp d m s =
    (let x := { u.dom d with dreqInt := logNs m.interval }
    let mpd := roundEven (((t2 - t1 + (u.ptpTime m.rxSec m.rxNs - t3) - m.corr : Int) : Rat) / 2)
    if mpd < 0 then u.setDom d { x with dreq := none }
      else
        let ds := mpd :: x.delays.take 7
        let s := u.setDom d { x with dreq := none, delays := ds }
        let mean := roundEven (((ds.foldl (· + ·) 0 : Int) : Rat) / ((ds.length * 65536 : Nat)))
        s.wr (A.PTP_MPD d) (w32 (min mean.toNat (2 ^ 32 - 1)))) := by
  unfold ptpDelayRespOp
  rw [← hu]
  dsimp only
  rw [if_neg (by rw [h0, h3]; decide), h1, h2]
  dsimp only
  rw [if_pos h4]

/-- A punty message that the device takes part in is taken. -/
theorem puntyTake_good {pl type need : Nat} {ws : List Word} {n : Nat} {s t : State} (ht : t = takeRx (68 + pl) s) (h : t.puntyGood pl type need ws n) :
   puntyTake pl type need ws n s = (true, t) := by
  obtain ⟨h1, h2, h3, h4, h5, h6, h7, h8, h9, h10, h11, h12⟩ := h
  unfold puntyTake
  rw [← ht]
  dsimp only
  rw [if_neg (by rw [h1, h4]; simp; omega), h6, h7, h8]
  rw [show (1 != 1 || t.actF A.TWIN_CTRL F.TWIN_CTRL_PAIR_ID != t.actF A.TWIN_CTRL F.TWIN_CTRL_PAIR_ID || 1 != 1) = false by simp, State.detect_unarmed h5]
  dsimp only
  rw [if_neg (by decide), h9, decide_eq_true h10, decide_eq_true h11]
  simp [h12]

/-- A HEAD that is taken. -/
theorem headOp_spec {pl : Nat} {ws : List Word} {s t : State} (ht : t = takeRx (68 + pl) s) (h : t.puntyGood pl 2 808 ws 0) (h1 : t.isPartner = true)
   (h0 : t.headOld ws = false) (h2 : t.injArmed P.TWIN 6 = false) :
  headOp pl ws s = (
      let b := puntyBody ws
      let bnd : Int := ((b 5 * 2 ^ 32 + b 6) * 10 ^ 9 + b 7 : Nat)
      let tol := t.actF A.TWIN_FAIL F.TWIN_FAIL_BND_TOL_NS
      if (bnd - (t.time.boundary : Nat)).natAbs ≤ tol ∧ tol < (bnd - (t.time.prevBoundary : Nat)).natAbs then
        { t with twin := { t.twin with nextHead := t.twin.nextHead.or (some ws) } }
      else if t.time.bnds < 2 ∨ t.headDue < s.rxAt (68 + pl) then t
      else headJudge ws t) := by
  unfold headOp
  rw [puntyTake_good ht h]
  dsimp only
  rw [if_neg (by rw [h1, h0]; decide), State.detect_unarmed h2]
  dsimp only
  rw [if_neg (by decide)]

/-- A calibration command. -/
theorem calCmd_spec {s : State} {v : Word} {op l : Nat} (h1 : fget v F.CAL_CMD_OP = op) (h2 : fget v F.CAL_CMD_LANE = l) (hi : s.injArmed P.CAL 31 = false) :
   calCmd v s = if (s.get A.CAL_STAT F.CAL_STAT_BUSY == 1 || op == 0 || decide (3 < op)
    || (op == 3 && (decide (69 < l) || !s.offline (P.LANE l)))) then (s.put A.CAL_STAT F.CAL_STAT_RESULT 5).guard1 P.CAL 31 0x7C (some 0)
    else { s.put A.CAL_STAT F.CAL_STAT_BUSY 1 with cal := { s.cal with op := op, lane := l, startAt := s.nowNs } } := by
  unfold calCmd
  rw [h1, h2]
  dsimp only
  rw [State.detect_unarmed hi]

/-- A fixture takes an ENUM or SET request. -/
theorem fixRequest_good {type op need src : Nat} {ws : List Word} {s : State} {y : Fixture} (h1 : msgOk ws need = true) (h2 : tuiperType ws = type) (h3 : bodyF ws 0 31 28 = op)
   (hy : s.fixture.assigned = true ∧ msgLink ws ≠ s.fixture.link ∧ y = s.fixture ∨
     (s.fixture.assigned = true → msgLink ws = s.fixture.link) ∧ ∃ z, s.fixture.judge ws = (true, z) ∧ y = z.heardFrom ws src) :
   fixRequest type op need ws src s = (true, { s with fixture := y }) := by
  unfold fixRequest
  rw [if_neg (by simp [h1, h2, h3])]
  rcases hy with ⟨a, b, c⟩ | ⟨a, z, b, c⟩
  · subst c; dsimp only; rw [if_pos ⟨a, b⟩]
  · dsimp only; rw [if_neg (fun z => z.2 (a z.1)), b, c]; rfl

end Sys2Proof.Machine
end

