-- ==== Sys2Proof/Laws/Epochs.lean ====
section
/-!
SUPPORT. Seals, reverts, epochs and snapshots (R33 to R43).
-/
namespace Sys2Proof.Machine

/-- Clearing SHADOW_DIRTY changes live registers and the message table alone. -/
theorem dirtyClear_eq (s : State) : ∃ m x, dirtyClear s = { s with rf := { s.rf with live := m }, msix := x } :=
  live_eq_foldl _ (fun t _ => t.wr_eq _ _) _ _

/-- The seal on some pages, up to live registers and the message table. -/
theorem pagesSeal_form (ps : List Nat) (s : State) : ∃ m x, pagesSeal ps s = { s with
    rf := { s.rf with live := m, pend := mapPick (fun p => ps.contains p) s.rf.shadow s.rf.pend }, msix := x
    time := if ps.contains P.TRIG = true then { s.time with trigP := s.time.trigW, trigW := [] } else s.time } := by
  obtain ⟨m, x, e⟩ := live_eq_foldl (fun (t : State) p => (t.wr (H.SHADOW_DIRTY p) 0).put (H.PAGE_STAT p) ⟨27, 27⟩ 1)
    (fun t _ => live_eq_trans (t.wr_eq _ _) (State.put_eq _ _ _ _)) ps s
  unfold pagesSeal
  rw [e]
  dsimp only
  split
  · exact ⟨m, x, rfl⟩
  · exact ⟨m, x, rfl⟩

/-- The pages a seal reaches at once: no write of the same requester waits at their crossings. -/
abbrev State.sealedAtOnce (s : State) (r : Req) : List Nat := allPages.filter fun p => !s.writeWaits r p

/-- What a seal does. -/
theorem sealEpoch_spec (r : Req) (n : Word) (s : State) : let u := sealEpoch r n s
    u.rf.pend = mapPick (fun p => (s.sealedAtOnce r).contains p) s.rf.shadow s.rf.pend ∧ u.rf.shadow = s.rf.shadow ∧
    u.rf.active = s.rf.active ∧ u.commit.sealing = true ∧
    u.commit.acksLeft = allPages ∧ u.commit.pendEpoch = n.toNat ∧ u.rd A.SYS_COMMIT = n ∧ u.get A.SYS_COMMIT_STAT ⟨31, 31⟩ = 1 ∧
    u.commit.waiting = s.commit.waiting ++ (allPages.filter fun p => s.writeWaits r p).map (fun p => ⟨r, p, sealMark, true, 0⟩) ∧
    u.mem = s.mem ∧ u.lease = s.lease := by
  obtain ⟨m, x, e⟩ := pagesSeal_form (s.sealedAtOnce r) s
  unfold sealEpoch
  simp only
  rw [e]
  generalize (if (s.sealedAtOnce r).contains P.TRIG = true then { s.time with trigP := s.time.trigW, trigW := [] } else s.time) = tm
  generalize ht : ({ s with rf := { s.rf with live := m, pend := mapPick (fun p => (s.sealedAtOnce r).contains p) s.rf.shadow s.rf.pend }
                            msix := x, time := tm } : State) = t
  have f1 : ((t.wr A.SYS_COMMIT n).put A.SYS_COMMIT_STAT ⟨31, 31⟩ 1).rd A.SYS_COMMIT = n :=
    (State.rd_put_ne (t.wr A.SYS_COMMIT n) _ 1 (by decide)).trans (State.rd_wr_same _ _ _)
  have f2 : ((t.wr A.SYS_COMMIT n).put A.SYS_COMMIT_STAT ⟨31, 31⟩ 1).get A.SYS_COMMIT_STAT ⟨31, 31⟩ = 1 :=
    (State.get_put_same (t.wr A.SYS_COMMIT n) A.SYS_COMMIT_STAT ⟨31, 31⟩ 1).trans (fget_fput_top _ _)
  obtain ⟨m', x', e'⟩ := live_eq_trans (State.wr_eq t A.SYS_COMMIT n) (State.put_eq _ A.SYS_COMMIT_STAT ⟨31, 31⟩ 1)
  rw [e'] at f1 f2 ⊢
  subst ht
  refine ⟨rfl, rfl, rfl, trivial, trivial, trivial, ?_, ?_, rfl, rfl, rfl⟩
  · rw [← f1]; rfl
  · rw [← f2]; rfl

/-- What REVERT does. -/
theorem revertOp_spec (s : State) (h : s.commit.sealing = false) : let u := revertOp s
    u.rf.shadow = s.sealedSet ∧ u.rf.pend = s.rf.pend ∧ u.rf.active = s.rf.active ∧
    u.mem = s.mem ∧ u.commit = s.commit := by
  obtain ⟨m, x, e⟩ := dirtyClear_eq s
  unfold revertOp
  rw [if_neg (by rw [h]; decide), e]
  exact ⟨rfl, rfl, rfl, rfl, rfl⟩

/-- What an epoch that applies does before its effects on the blocks. -/
theorem epochApplyOp_form (s : State) (h : s.time.bnds ≠ 0) (hw : s.commit.waitFrame = some s.frameNum) :
    ∃ m x, let t : State := { s with rf := { s.rf with live := m, active := mapPick s.inService s.rf.pend s.rf.active, force := s.rf.pend }
                                     commit := { s.commit with waitFrame := none }, msix := x }
      epochApplyOp s = epochEffects (t.raise P.SYS 0) ∧ t.rd A.SYS_EPOCH_APPLIED = w32 s.commit.pendEpoch ∧
      t.rd A.SYS_EPOCH_FRAME = w32 s.frameNum := by
  unfold epochApplyOp
  rw [if_neg (by rintro (e | e); exact h e; exact e hw)]
  dsimp only
  generalize hs0 : ({ s with
      rf := { s.rf with active := mapPick s.inService s.rf.pend s.rf.active, force := s.rf.pend }
      commit := { s.commit with waitFrame := none } } : State) = s0
  have g1 := live_eq_foldl (fun (t : State) p =>
      if seenAtBoundary p then (t.put (H.PAGE_STAT p) ⟨27, 27⟩ 0).wr (H.EPOCH_SEEN p) (w32 s.commit.pendEpoch) else t.put (H.PAGE_STAT p) ⟨27, 27⟩ 0)
      (by intro t p; split
          · exact live_eq_trans (t.put_eq _ _ _) (State.wr_eq _ _ _)
          · exact t.put_eq _ _ _) (allPages.filter fun p => s.inService p) s0
  generalize (allPages.filter fun p => s.inService p).foldl (fun (t : State) p =>
      if seenAtBoundary p then (t.put (H.PAGE_STAT p) ⟨27, 27⟩ 0).wr (H.EPOCH_SEEN p) (w32 s.commit.pendEpoch) else t.put (H.PAGE_STAT p) ⟨27, 27⟩ 0) s0 = s1 at *
  have g2 := live_eq_trans g1 (live_eq_foldl (fun (t : State) p => (t.put (H.PAGE_STAT p) ⟨25, 25⟩ 1).raise P.SYS 4)
      (fun t p => live_eq_trans (t.put_eq _ _ _) (State.raise_eq _ _ _)) (allPages.filter fun p => !s.inService p) s1)
  generalize (allPages.filter fun p => !s.inService p).foldl (fun (t : State) p => (t.put (H.PAGE_STAT p) ⟨25, 25⟩ 1).raise P.SYS 4) s1 = s2 at *
  generalize (allPages.filter fun p => !s.inService p).length = k
  have hn : s2.frameNum = s.frameNum := by obtain ⟨m, x, e⟩ := g2; rw [e, ← hs0]; rfl
  rw [hn]
  have f1 : ((((s2.wr A.SYS_EPOCH_APPLIED (w32 s.commit.pendEpoch)).wr A.SYS_EPOCH_FRAME (w32 s.frameNum)).put A.SYS_COMMIT_STAT ⟨31, 31⟩ 0).put
      A.SYS_COMMIT_STAT ⟨15, 0⟩ k).rd A.SYS_EPOCH_APPLIED = w32 s.commit.pendEpoch :=
    (State.rd_put_ne _ _ _ (by decide)).trans ((State.rd_put_ne _ _ _ (by decide)).trans ((State.rd_wr_ne _ _ (by decide)).trans (State.rd_wr_same _ _ _)))
  have f2 : ((((s2.wr A.SYS_EPOCH_APPLIED (w32 s.commit.pendEpoch)).wr A.SYS_EPOCH_FRAME (w32 s.frameNum)).put A.SYS_COMMIT_STAT ⟨31, 31⟩ 0).put
      A.SYS_COMMIT_STAT ⟨15, 0⟩ k).rd A.SYS_EPOCH_FRAME = w32 s.frameNum :=
    (State.rd_put_ne _ _ _ (by decide)).trans ((State.rd_put_ne _ _ _ (by decide)).trans (State.rd_wr_same _ _ _))
  have g3 := live_eq_trans g2 (live_eq_trans (live_eq_trans (State.wr_eq _ A.SYS_EPOCH_APPLIED (w32 s.commit.pendEpoch))
    (State.wr_eq _ A.SYS_EPOCH_FRAME (w32 s.frameNum))) (live_eq_trans (State.put_eq _ A.SYS_COMMIT_STAT ⟨31, 31⟩ 0) (State.put_eq _ A.SYS_COMMIT_STAT ⟨15, 0⟩ k)))
  generalize (((s2.wr A.SYS_EPOCH_APPLIED (w32 s.commit.pendEpoch)).wr A.SYS_EPOCH_FRAME (w32 s.frameNum)).put A.SYS_COMMIT_STAT ⟨31, 31⟩ 0).put
      A.SYS_COMMIT_STAT ⟨15, 0⟩ k = s3 at *
  obtain ⟨m, x, e⟩ := g3
  subst hs0
  exact ⟨m, x, by rw [e], (by rw [e] at f1; exact f1), (by rw [e] at f2; exact f2)⟩

/-- Counting throttled time changes live registers and Lehr alone. -/
theorem thrFlush_form (s : State) : ∃ m l, thrFlush s = { s with rf := { s.rf with live := m }, lehr := l } := by
  unfold thrFlush
  split
  · exact ⟨_, s.lehr, rfl⟩
  · rename_i t0 _
    obtain ⟨m, e⟩ := State.wr64_eq_live s A.LEHR_THR_MS_LO (min (s.rd64 A.LEHR_THR_MS_LO + (s.nowNs - t0) / 1000000) (2 ^ 64 - 1))
    have e' : s.add64 A.LEHR_THR_MS_LO ((s.nowNs - t0) / 1000000) = { s with rf := { s.rf with live := m } } := e
    dsimp only
    rw [e']
    exact ⟨m, _, rfl⟩

/-- The traffic of the engines is counted in live registers, from free values. -/
theorem memTraffic_form (s : State) : ∃ m k, memTraffic s = { s with rf := { s.rf with live := m }, free := k } := by
  unfold memTraffic
  split
  · exact ⟨_, _, rfl⟩
  · dsimp only
    generalize hw : (s.fresh (2 ^ 48)).2.fresh (2 ^ 48) = w
    obtain ⟨m, e⟩ := State.wr64_eq_live w.2 A.MEM_RD_BYTES_LO (min (w.2.rd64 A.MEM_RD_BYTES_LO + (s.fresh (2 ^ 48)).1) (2 ^ 64 - 1))
    have e1 : w.2.add64 A.MEM_RD_BYTES_LO (s.fresh (2 ^ 48)).1 = { w.2 with rf := { w.2.rf with live := m } } := e
    rw [e1]
    obtain ⟨m', e'⟩ := State.wr64_eq_live { w.2 with rf := { w.2.rf with live := m } } A.MEM_WR_BYTES_LO
      (min (({ w.2 with rf := { w.2.rf with live := m } } : State).rd64 A.MEM_WR_BYTES_LO + w.1) (2 ^ 64 - 1))
    refine ⟨m', w.2.free, (show State.add64 _ _ _ = _ from e').trans ?_⟩
    rw [← hw]; rfl

/-- What a snapshot captures. -/
theorem snapCapture_form (u : State) : ∃ m x, snapCapture u = { u with
    rf := { u.rf with live := m, snap := snapTake u (allPages.filter fun p => u.inService p) }, msix := x } := by
  unfold snapCapture
  dsimp only
  generalize hs0 : ({ u with rf := { u.rf with snap := snapTake u (allPages.filter fun p => u.inService p) } } : State) = s0
  have g1 := live_eq_foldl (fun (t : State) p => t.put (H.PAGE_STAT p) ⟨26, 26⟩ 1) (fun t p => t.put_eq _ _ _) (allPages.filter fun p => u.inService p) s0
  generalize (allPages.filter fun p => u.inService p).foldl (fun (t : State) p => t.put (H.PAGE_STAT p) ⟨26, 26⟩ 1) s0 = s1 at *
  have g2 := live_eq_trans g1 (live_eq_foldl (fun (t : State) _ => t.raise P.SYS 4) (fun t p => State.raise_eq _ _ _) (allPages.filter fun p => !u.inService p) s1)
  generalize (allPages.filter fun p => !u.inService p).foldl (fun (t : State) _ => t.raise P.SYS 4) s1 = s2 at *
  have g3 := live_eq_trans g2 (State.wr_eq s2 A.SYS_SNAP_STAT (w32 ((s2.get A.SYS_SNAP_STAT F.SYS_SNAP_STAT_SEQ + 1) % 256 * 2 ^ 24 + min 255 (allPages.filter fun p => !u.inService p).length * 2 ^ 16 + s2.frameNum % 65536)))
  generalize s2.wr A.SYS_SNAP_STAT (w32 ((s2.get A.SYS_SNAP_STAT F.SYS_SNAP_STAT_SEQ + 1) % 256 * 2 ^ 24 + min 255 (allPages.filter fun p => !u.inService p).length * 2 ^ 16 + s2.frameNum % 65536)) = s3 at *
  have g4 := live_eq_trans g3 (live_eq_trans (State.put_eq s3 A.SYS_SNAP F.SYS_SNAP_REQ 0) (State.raise_eq _ P.SYS 3))
  obtain ⟨m, x, e⟩ := g4
  subst hs0
  refine ⟨m, x, ?_⟩
  rw [e]

end Sys2Proof.Machine
end

