-- ==== Sys2Proof/Laws/Mailbox.lean ====
section
/-!
SUPPORT. The Gaffer's mailbox: requests, their words, and what each command does (R420, R421).
-/
namespace Sys2Proof.Machine

/-- Four bytes as a number. -/
theorem leNat_four (a b c d : Byte) : leNat [a, b, c, d] = a.toNat + 256 * (b.toNat + 256 * (c.toNat + 256 * d.toNat)) := by
  simp [leNat]

/-- Four bytes packed into a word, most significant first. -/
theorem wordBytes_four (a b c d : Byte) : let w := w32 (leNat [a, b, c, d].reverse)
    [BitVec.ofNat 8 (w.toNat / 2 ^ 24), BitVec.ofNat 8 (w.toNat / 2 ^ 16), BitVec.ofNat 8 (w.toNat / 2 ^ 8), BitVec.ofNat 8 w.toNat] = [a, b, c, d] := by
  intro w
  have ha := a.isLt; have hb := b.isLt; have hc := c.isLt; have hd := d.isLt
  have hw : w.toNat = d.toNat + 256 * (c.toNat + 256 * (b.toNat + 256 * a.toNat)) := by
    show (w32 (leNat [d, c, b, a])).toNat = _
    rw [leNat_four]; unfold w32; simp only [BitVec.toNat_ofNat]; omega
  rw [hw]
  congr 1
  · apply BitVec.eq_of_toNat_eq; simp only [BitVec.toNat_ofNat]; omega
  · congr 1
    · apply BitVec.eq_of_toNat_eq; simp only [BitVec.toNat_ofNat]; omega
    · congr 1
      · apply BitVec.eq_of_toNat_eq; simp only [BitVec.toNat_ofNat]; omega
      · congr 1
        apply BitVec.eq_of_toNat_eq; simp only [BitVec.toNat_ofNat]; omega

/-- Bytes packed into words and unpacked. -/
theorem wordBytes_packWords (n : Nat) (d : List Byte) (h : n = (d.length + 3) / 4) : ∃ z, wordBytes (packWords n d) = d ++ z := by
  induction n generalizing d with
  | zero =>
    have : d = [] := List.length_eq_zero_iff.1 (by omega)
    subst this; exact ⟨[], rfl⟩
  | succ n ih =>
    match d, h with
    | [], h => simp at h
    | [a], h =>
      obtain ⟨z, hz⟩ := ih [] (by simp at h ⊢; omega)
      exact ⟨_, by show wordBytes (w32 (leNat [a, 0, 0, 0].reverse) :: packWords n []) = _
                   unfold wordBytes at *; rw [List.flatMap_cons, wordBytes_four]; rfl⟩
    | [a, b], h =>
      exact ⟨_, by show wordBytes (w32 (leNat [a, b, 0, 0].reverse) :: packWords n []) = _
                   unfold wordBytes at *; rw [List.flatMap_cons, wordBytes_four]; rfl⟩
    | [a, b, c], h =>
      exact ⟨_, by show wordBytes (w32 (leNat [a, b, c, 0].reverse) :: packWords n []) = _
                   unfold wordBytes at *; rw [List.flatMap_cons, wordBytes_four]; rfl⟩
    | a :: b :: c :: e :: l, h =>
      obtain ⟨z, hz⟩ := ih l (by simp at h ⊢; omega)
      refine ⟨z, ?_⟩
      have hp : packWords (n + 1) (a :: b :: c :: e :: l) = w32 (leNat [a, b, c, e].reverse) :: packWords n l := by
        show w32 (leNat ((a :: b :: c :: e :: (l ++ [0, 0, 0])).take 4).reverse) :: _ = _
        simp [List.take]
      rw [hp]
      have : wordBytes (w32 (leNat [a, b, c, e].reverse) :: packWords n l) = [a, b, c, e] ++ wordBytes (packWords n l) := by
        unfold wordBytes; rw [List.flatMap_cons, wordBytes_four]
      rw [this, hz]; rfl

/-- The number of words. -/
theorem packWords_length (n : Nat) (d : List Byte) : (packWords n d).length = n := by
  induction n generalizing d with
  | zero => rfl
  | succ n ih => show (packWords n _).length + 1 = _; rw [ih]

/-- Writing a list of words into MBX_REQ: the words read back, and every other register stands. -/
theorem mbxReq_words (ws : List Word) (k : Nat) (s : State) :
    (∃ m, (ws.zipIdx k).foldl (fun (t : State) (y : Word × Nat) => t.wr (A.GAFFER_MBX_REQ y.2) y.1) s = { s with rf := { s.rf with live := m } }) ∧
    (∀ a, (∀ i, k ≤ i → a ≠ A.GAFFER_MBX_REQ i) →
      ((ws.zipIdx k).foldl (fun (t : State) (y : Word × Nat) => t.wr (A.GAFFER_MBX_REQ y.2) y.1) s).rd a = s.rd a) ∧
    (∀ (i : Nat) (h : i < ws.length),
      ((ws.zipIdx k).foldl (fun (t : State) (y : Word × Nat) => t.wr (A.GAFFER_MBX_REQ y.2) y.1) s).rd (A.GAFFER_MBX_REQ (k + i)) = ws[i]) := by
  induction ws generalizing k s with
  | nil => exact ⟨⟨_, rfl⟩, fun _ _ => rfl, fun i h => absurd h (by simp)⟩
  | cons w ws ih =>
    rw [List.zipIdx_cons, List.foldl_cons]
    obtain ⟨⟨m, h1⟩, h2, h3⟩ := ih (k + 1) (s.wr (A.GAFFER_MBX_REQ k) w)
    refine ⟨⟨m, by rw [h1]; rfl⟩, fun a ha => ?_, fun i hi => ?_⟩
    · rw [h2 a (fun i hi => ha i (by omega))]
      exact State.rd_wr_ne _ _ (ha k (Nat.le_refl k))
    · cases i with
      | zero =>
        rw [h2 _ (fun i hi => by unfold A.GAFFER_MBX_REQ; omega)]
        simp [State.rd_wr_same]
      | succ i =>
        have := h3 i (by simpa using hi)
        rw [show k + (i + 1) = k + 1 + i by omega, this]; rfl

/-- What the host has written is its request. -/
theorem hostRequest_asked (s : State) (cmd tag : Nat) (p : List Byte) (hc : cmd < 256) (hp : p.length ≤ 1020) :
    let ws := w32 (cmd % 256 * 2 ^ 24 + tag % 256 * 2 ^ 16 + p.length) :: packWords ((p.length + 3) / 4) p
    (ws.zipIdx.foldl (fun (t : State) (y : Word × Nat) => t.wr (A.GAFFER_MBX_REQ y.2) y.1) s).hostRequest = ⟨.host, cmd, tag % 256, p⟩ := by
  intro ws
  obtain ⟨-, -, h3⟩ := mbxReq_words ws 0 s
  generalize ws.zipIdx.foldl (fun (t : State) (y : Word × Nat) => t.wr (A.GAFFER_MBX_REQ y.2) y.1) s = t at *
  have h0 : t.rd (A.GAFFER_MBX_REQ 0) = w32 (cmd % 256 * 2 ^ 24 + tag % 256 * 2 ^ 16 + p.length) := h3 0 (by simp [ws])
  have hl : ws.length = (p.length + 3) / 4 + 1 := by simp [ws, packWords_length]
  have hi : ∀ i, i < (p.length + 3) / 4 → t.rd (A.GAFFER_MBX_REQ (i + 1)) = (packWords ((p.length + 3) / 4) p).getD i 0 := by
    intro i h
    have := h3 (i + 1) (by omega)
    rw [Nat.zero_add] at this
    rw [this]
    simp only [ws, List.getElem_cons_succ]
    rw [List.getD_eq_getElem?_getD, List.getElem?_eq_getElem (by rw [packWords_length]; exact h)]; rfl
  have htag : tag % 256 < 256 := Nat.mod_lt _ (by decide)
  have hcm : cmd % 256 = cmd := Nat.mod_eq_of_lt hc
  unfold State.hostRequest
  rw [h0, hcm]
  have e1 : fget (w32 (cmd * 2 ^ 24 + tag % 256 * 2 ^ 16 + p.length)) ⟨31, 24⟩ = cmd := by
    unfold fget w32; simp only [BitVec.toNat_ofNat]; omega
  have e2 : fget (w32 (cmd * 2 ^ 24 + tag % 256 * 2 ^ 16 + p.length)) ⟨23, 16⟩ = tag % 256 := by
    unfold fget w32; simp only [BitVec.toNat_ofNat]; omega
  have e3 : fget (w32 (cmd * 2 ^ 24 + tag % 256 * 2 ^ 16 + p.length)) ⟨15, 0⟩ = p.length := by
    unfold fget w32; simp only [BitVec.toNat_ofNat]; omega
  have e4 : (wordBytes ((List.range 255).map fun i => t.rd (A.GAFFER_MBX_REQ (i + 1)))).take p.length = p := by
    have hn : (p.length + 3) / 4 ≤ 255 := by omega
    have : (List.range 255).map (fun i => t.rd (A.GAFFER_MBX_REQ (i + 1))) =
        packWords ((p.length + 3) / 4) p ++ ((List.range 255).map fun i => t.rd (A.GAFFER_MBX_REQ (i + 1))).drop ((p.length + 3) / 4) := by
      rw [← List.take_append_drop ((p.length + 3) / 4) ((List.range 255).map fun i => t.rd (A.GAFFER_MBX_REQ (i + 1)))]
      congr 1
      · apply List.ext_getElem
        · simp [packWords_length, hn]
        · intro i h1 h2
          simp [packWords_length] at h1 h2
          simp only [List.getElem_take, List.getElem_map, List.getElem_range]
          rw [hi i h2, List.getD_eq_getElem?_getD, List.getElem?_eq_getElem (by rw [packWords_length]; exact h2)]; rfl
      · rw [List.take_append_drop]
    obtain ⟨z, hz⟩ := wordBytes_packWords ((p.length + 3) / 4) p rfl
    rw [this]
    have : ∀ l, wordBytes (packWords ((p.length + 3) / 4) p ++ l) = p ++ (z ++ wordBytes l) := by
      intro l; unfold wordBytes at *; rw [List.flatMap_append, hz, List.append_assoc]
    rw [this]; simp
  simp only [e1, e2, e3, Nat.min_eq_right hp, e4]

/-- What asking leaves. -/
theorem asked_frame (s : State) (src : MbxSrc) (cmd tag : Nat) (p : List Byte) :
    (∃ m n, s.asked src cmd tag p = { s with rf := { s.rf with live := m }, net := n, gaffer := { s.gaffer with mbxQ := [⟨src, cmd, tag % 256, p⟩] } }) ∧
    ∀ a, a ≠ A.GAFFER_MBX_STAT → (∀ i, a ≠ A.GAFFER_MBX_REQ i) → (s.asked src cmd tag p).rd a = s.rd a := by
  unfold State.asked
  cases src with
  | host =>
    dsimp only
    obtain ⟨⟨m, h1⟩, h2, -⟩ := mbxReq_words (w32 (cmd * 2 ^ 24 + tag % 256 * 2 ^ 16 + p.length) :: packWords ((p.length + 3) / 4) p) 0 s
    generalize (w32 (cmd * 2 ^ 24 + tag % 256 * 2 ^ 16 + p.length) :: packWords ((p.length + 3) / 4) p) = ws at *
    generalize List.foldl (fun (t : State) (y : Word × Nat) => t.wr (A.GAFFER_MBX_REQ y.2) y.1) s ws.zipIdx = t at *
    refine ⟨?_, fun a ha hb => ?_⟩
    · rw [h1]; exact ⟨_, _, rfl⟩
    · refine (State.rd_congr (t := t.wr A.GAFFER_MBX_STAT (w32 (2 ^ 31))) rfl a).trans ?_
      rw [State.rd_wr_ne _ _ ha, h2 a (fun i _ => hb i)]
  | mg0 ip port => exact ⟨⟨_, _, rfl⟩, fun _ _ _ => rfl⟩

/-- The request words lie beyond. -/
theorem mbxReq_ne {a : Nat} (h : a < 0x8400) (i : Nat) : a ≠ A.GAFFER_MBX_REQ i := by unfold A.GAFFER_MBX_REQ; omega

/-- A field read while asked. -/
theorem asked_get (s : State) (src : MbxSrc) (cmd tag : Nat) (p : List Byte) {a : Nat} (h : a ≠ A.GAFFER_MBX_STAT) (h' : a < 0x8400) (f : Fld) :
    (s.asked src cmd tag p).get a f = s.get a f := by
  unfold State.get; rw [(asked_frame s src cmd tag p).2 a h (mbxReq_ne h')]

/-- A command at an open mailbox is handled at once. -/
theorem mbxCommand_open {s : State} {src : MbxSrc} {tag : Nat} (h : s.mbxOpen src tag) (cmd : Nat) (hc : cmd < 256) (p : List Byte) (hp : p.length ≤ 1020) :
    mbxCommand src cmd tag p s = mbxServe 2 (mbxHandle ⟨src, cmd, tag % 256, p⟩ (s.asked src cmd tag p)) := by
  obtain ⟨-, hq, hb, hst, hph, hsrc⟩ := h
  have step1 : mbxCommand src cmd tag p s = mbxServe 3 (s.asked src cmd tag p) := by
    have hcm : cmd % 256 = cmd := Nat.mod_eq_of_lt hc
    unfold mbxCommand
    rw [List.take_of_length_le hp]
    cases src with
    | host =>
      obtain ⟨h1, h2⟩ := hsrc
      have hr := hostRequest_asked s cmd tag p hc hp
      obtain ⟨⟨m, g1⟩, g2, -⟩ := mbxReq_words (w32 (cmd % 256 * 2 ^ 24 + tag % 256 * 2 ^ 16 + p.length) :: packWords ((p.length + 3) / 4) p) 0 s
      unfold State.asked
      rw [hcm] at *
      dsimp only at *
      generalize (w32 (cmd * 2 ^ 24 + tag % 256 * 2 ^ 16 + p.length) :: packWords ((p.length + 3) / 4) p) = ws at *
      generalize List.foldl (fun (t : State) (y : Word × Nat) => t.wr (A.GAFFER_MBX_REQ y.2) y.1) s ws.zipIdx = t at *
      have e1 : ¬ s.get A.GAFFER_MBX_STAT F.GAFFER_MBX_STAT_BUSY = 1 := by omega
      have e2 : t.injArmed P.GAFFER 31 = false := by
        rw [← h2]; unfold State.injArmed State.offline
        rw [g2 _ (fun i _ => mbxReq_ne (by decide) i), g2 _ (fun i _ => mbxReq_ne (by decide) i)]
      have e3 : t.get A.GAFFER_MBX_STAT F.GAFFER_MBX_STAT_BUSY = 0 := by
        unfold State.get at *; rw [g2 _ (fun i _ => mbxReq_ne (by decide) i)]; exact h1
      have e4 : t.gaffer.mbxQ = [] := by rw [g1]; exact hq
      rw [if_neg e1, hr]
      unfold mbxSubmit State.detect
      simp only [e2, e3, Bool.false_eq_true, if_false, Nat.reduceBEq]
      congr 1
      show ({ t.wr A.GAFFER_MBX_STAT (w32 (2 ^ 31)) with gaffer := { t.gaffer with mbxQ := t.gaffer.mbxQ ++ _ } } : State) = _
      rw [e4]; rfl
    | mg0 ip port =>
      obtain ⟨h1, h2, h3⟩ := hsrc
      unfold mbxSubmit State.mgPending
      have e1 : ¬ (s.gaffer.mbxQ.any fun q => match q.src with | .host => false | .mg0 _ _ => true) = true := by rw [hq]; simp
      have e2 : (takeRx 70 s).gaffer = s.gaffer := rfl
      have e3 : s.gaffer.mgLast.find? (fun r => r.src == .mg0 ip port && r.tag == tag % 256) = none := by
        rw [List.find?_eq_none]; intro x hx
        have := h3 x hx
        simp only [Bool.and_eq_true, beq_iff_eq, not_and]
        exact this
      simp only [h1, Bool.not_true, Bool.false_eq_true, if_false, h2, Nat.one_ne_zero, e2, e3, hcm, hq, List.nil_append]
      rfl
  rw [step1]
  obtain ⟨⟨m, n, e⟩, h2⟩ := asked_frame s src cmd tag p
  have g1 : (s.asked src cmd tag p).gaffer.mbxQ = [⟨src, cmd, tag % 256, p⟩] := by rw [e]
  have g2 : (s.asked src cmd tag p).gaffer.mbxBusy = false := by rw [e]; exact hb
  have g3 : (s.asked src cmd tag p).stage = s.stage := asked_get _ _ _ _ _ (by decide) (by decide) _
  have g4 : (s.asked src cmd tag p).phase = s.phase := asked_get _ _ _ _ _ (by decide) (by decide) _
  generalize s.asked src cmd tag p = t at *
  show (match t.gaffer.mbxQ with | [] => t | q :: _ => if t.gaffer.mbxBusy || t.stage < 2 || t.phase == 3 then t else mbxServe 2 (mbxHandle q t)) = _
  rw [g1]
  have : ¬ (t.gaffer.mbxBusy || decide (t.stage < 2) || t.phase == 3) = true := by
    rw [g2, g3, g4]; simp; exact ⟨hst, hph⟩
  exact if_neg this

/-- A source that may write passes the check. -/
theorem mbxHandle_may {t : State} {q : MbxReq} (h : t.mayWrite q.src = true) : ((match q.src with | .host => false | .mg0 _ _ => true) && decide (0x10 ≤ q.cmd) &&
    decide (q.cmd ≤ 0x50) && t.get A.GAFFER_MBX_CFG F.GAFFER_MBX_CFG_MG_WRITE == 0) = false := by
  unfold State.mayWrite at h
  cases hs : q.src with
  | host => rfl
  | mg0 a b => rw [hs] at h; simp only [beq_iff_eq] at h; simp [h]

/-- Asking leaves the right to write. -/
theorem asked_mayWrite (s : State) (src : MbxSrc) (cmd tag : Nat) (p : List Byte) : (s.asked src cmd tag p).mayWrite src = s.mayWrite src := by
  unfold State.mayWrite
  cases src with
  | host => rfl
  | mg0 a b => simp only; rw [asked_get _ _ _ _ _ (by decide) (by decide)]

/-- The first word of a payload. -/
theorem word0_be (cmd tag : Nat) (src : MbxSrc) (n : Nat) (h : n < 2 ^ 32) (l : List Byte) : (MbxReq.mk src cmd tag (beBytes 4 n ++ l)).word 0 = n := by
  have : beBytes 4 n ++ l = [BitVec.ofNat 8 (n / 256 / 256 / 256), BitVec.ofNat 8 (n / 256 / 256), BitVec.ofNat 8 (n / 256), BitVec.ofNat 8 n] ++ l := rfl
  unfold MbxReq.word
  simp only [this]
  show leNat [BitVec.ofNat 8 n, BitVec.ofNat 8 (n / 256), BitVec.ofNat 8 (n / 256 / 256), BitVec.ofNat 8 (n / 256 / 256 / 256)] = n
  rw [leNat_four]; simp only [BitVec.toNat_ofNat]; omega

/-- The second word of a payload. -/
theorem word1_be (cmd tag : Nat) (src : MbxSrc) (k n : Nat) (h : n < 2 ^ 32) : (MbxReq.mk src cmd tag (beBytes 4 k ++ beBytes 4 n)).word 1 = n := by
  unfold MbxReq.word
  show leNat [BitVec.ofNat 8 n, BitVec.ofNat 8 (n / 256), BitVec.ofNat 8 (n / 256 / 256), BitVec.ofNat 8 (n / 256 / 256 / 256)] = n
  rw [leNat_four]; simp only [BitVec.toNat_ofNat]; omega

/-- Four bytes. -/
theorem beBytes_four_length (n : Nat) : (beBytes 4 n).length = 4 := rfl

section handle

variable {t : State} {q : MbxReq} (hm : t.mayWrite q.src = true) (hs : t.stage = 2)

include hm

/-- PING. -/
theorem mbxHandle_ping (hc : q.cmd = 1) : mbxHandle q t = mbxDone 0 [] 0 t := by
  have g := mbxHandle_may hm
  unfold mbxHandle; dsimp only; refine (if_neg (fun e => Bool.false_ne_true (g.symm.trans e))).trans ?_; rw [if_pos hc]

/-- INFO. -/
theorem mbxHandle_info (hc : q.cmd = 2) : mbxHandle q t = mbxDone 0 t.infoWords 20 t := by
  have g := mbxHandle_may hm
  unfold mbxHandle; dsimp only; refine (if_neg (fun e => Bool.false_ne_true (g.symm.trans e))).trans ?_; rw [if_neg (by omega), if_pos hc]

include hs

/-- The image commands. -/
theorem mbxHandle_image (h1 : 0x10 ≤ q.cmd) (h2 : q.cmd ≤ 0x13) : mbxHandle q t = imageCmd q t := by
  have g := mbxHandle_may hm
  unfold mbxHandle; dsimp only; refine (if_neg (fun e => Bool.false_ne_true (g.symm.trans e))).trans ?_; rw [if_neg (by omega), if_neg (by omega), if_pos (by simp [h1, h2]),
    if_neg (by simp [hs])]

/-- The other commands. -/
theorem mbxHandle_other (h1 : 0x20 ≤ q.cmd) : mbxHandle q t = (match q.cmd with
  | 0x20 => if t.updateOk then mbxDone 0 [] 0 (t.put A.GAFFER_UPD_STAT F.GAFFER_UPD_STAT_PHASE 1) else mbxDone 2 [] 0 t
  | 0x21 => if t.phase = 4 then mbxDone 0 [] 0 (reversalDue t) else mbxDone 2 [] 0 t
  | 0x22 => if t.phase = 0 ∧ (t.slotOf 1).state = 2 then mbxDone 0 [] 0 (slotState 1 3 t) else mbxDone 2 [] 0 t
  | 0x30 => setSaveCmd q t
  | 0x31 => setReadCmd q t
  | 0x40 =>
    let c := q.word 0
    if q.payload.length < 4 ∨ 7 < c then mbxDone 3 [] 0 t
    else if t.jackBusy c then mbxDone 1 [] 0 t
    else mbxDone 0 [] 0 (jackStart c t)
  | 0x50 => if q.payload.length < 4 ∨ q.word 0 ≠ 0x5A3C then mbxDone 3 [] 0 t else restart causeWarm t
  | _ => mbxDone 3 [] 0 t) := by
  have g := mbxHandle_may hm
  unfold mbxHandle; dsimp only; refine (if_neg (fun e => Bool.false_ne_true (g.symm.trans e))).trans ?_; rw [if_neg (by omega), if_neg (by omega), if_neg (by simp; omega),
    if_neg (by simp [hs])]
  all_goals rfl

end handle

section imageCmds

variable (src : MbxSrc) (tag : Nat) (p : List Byte) {t : State} (h : t.phase = 0)

include h

/-- IMAGE_BEGIN. -/
theorem imageCmd_begin : imageCmd ⟨src, 0x10, tag, p⟩ t = if p.length < 4 ∨ 0x2000000 < (MbxReq.mk src 0x10 tag p).word 0 then mbxDone 3 [] 0 t
    else mbxDone 0 [] 0 (slotState 1 1 { t with gaffer := { t.gaffer with staged := (MbxReq.mk src 0x10 tag p).word 0 } }) := by
  unfold imageCmd; exact if_neg (fun e => e h)

/-- IMAGE_DATA. -/
theorem imageCmd_data : imageCmd ⟨src, 0x11, tag, p⟩ t = if (t.slotOf 1).state ≠ 1 then mbxDone 2 [] 0 t
    else if p.length < 4 ∨ t.gaffer.staged < (MbxReq.mk src 0x11 tag p).word 0 + (p.drop 4).length then mbxDone 3 [] 0 t
    else mbxDone 0 [] 0 (flashWrite (slotAt 1 + (MbxReq.mk src 0x11 tag p).word 0) (p.drop 4) t) := by
  unfold imageCmd; exact if_neg (fun e => e h)

/-- IMAGE_BUF. -/
theorem imageCmd_buf : imageCmd ⟨src, 0x12, tag, p⟩ t = if (t.slotOf 1).state ≠ 1 then mbxDone 2 [] 0 t
    else if p.length < 8 ∨ t.bufSize ((MbxReq.mk src 0x12 tag p).word 0) < (MbxReq.mk src 0x12 tag p).word 1 ∨
      t.gaffer.staged < (MbxReq.mk src 0x12 tag p).word 1 then mbxDone 3 [] 0 t
    else mbxDone 0 [] 0 (flashWrite (slotAt 1) (t.memRead (t.bufBase ((MbxReq.mk src 0x12 tag p).word 0)) ((MbxReq.mk src 0x12 tag p).word 1)) t) := by
  unfold imageCmd; exact if_neg (fun e => e h)

/-- IMAGE_END. -/
theorem imageCmd_end : imageCmd ⟨src, 0x13, tag, p⟩ t = if (t.slotOf 1).state ≠ 1 then mbxDone 2 [] 0 t
    else { t with gaffer := { t.gaffer with mbxBusy := true } } := by
  unfold imageCmd; exact if_neg (fun e => e h)

end imageCmds

end Sys2Proof.Machine
end

