-- ==== Sys2Proof/Laws/Memory.lean ====
section
/-!
SUPPORT. Buffer commands, device memory and the state that FLR clears (R84 to R88, R433).
-/
namespace Sys2Proof.Machine

/-- A map filtered by its keys. -/
theorem amGet_filter_key {α : Type} (d : Nat → α) (f : Nat → Bool) (m : AMap α) (k : Nat) :
    amGet d (m.filter fun x => f x.1) k = if f k then amGet d m k else d k := by
  induction m with
  | nil => simp [amGet]
  | cons x m ih =>
    obtain ⟨j, v⟩ := x
    simp only [List.filter_cons]
    by_cases hj : f j
    · simp only [hj, if_true, amGet]
      by_cases e : k = j
      · subst e; simp [hj]
      · simp only [e, if_false]; exact ih
    · simp only [hj, Bool.false_eq_true, if_false, amGet]
      rw [ih]
      by_cases e : k = j
      · subst e; simp [hj]
      · simp [e]

/-- The per-requester words that FLR keeps. -/
def flrKeeps (k : Nat) : Bool := !(k % 4 == 0 && k / 4 % 0x1000 == 0x00C) && !(k % 2 == 0 && k / 4 % 0x1000 == 1)

/-- What FLR changes. -/
theorem flrOp_form (s : State) : ∃ m x, flrOp s = { s with rf := { s.rf with
    live := m, bank := s.rf.bank.filter fun x => flrKeeps x.1 }, msix := x } := by
  unfold flrOp
  dsimp only
  generalize hs : ({ s with rf := { s.rf with bank := s.rf.bank.filter fun x => !(x.1 % 4 == 0 && x.1 / 4 % 0x1000 == 0x00C) && !(x.1 % 2 == 0 && x.1 / 4 % 0x1000 == 1) } } : State) = t
  have g : ∃ m x, t.wr64 A.HOST_BAR2_BASE_LO 0 = { t with rf := { t.rf with live := m }, msix := x } := ⟨_, t.msix, rfl⟩
  obtain ⟨m, x, e⟩ := live_eq_trans g (live_eq_trans (State.inc_eq _ A.HOST_FLR_CNT) (State.raise_eq _ P.HOST 3))
  rw [e, ← hs]
  exact ⟨m, x, rfl⟩

/-- A write of BUF_CMD. -/
theorem regWrite_buf {s : State} {r : Req} (h : s.obeys r P.LEASE) (k : Nat) (hk : 1 ≤ k) (hk' : k ≤ 4) {t : State}
    (ht : (if k = 1 then bufDefine r (s.arrive r P.LEASE) else if k = 2 then bufFree r (s.arrive r P.LEASE) else
      if k = 3 then bufCancel r (s.arrive r P.LEASE) else bufQuery r (s.arrive r P.LEASE)) = t) : running (regWrite r P.LEASE 0x090 (w32 k)) s = t.reply r .done := by
  refine regWrite_acts h.1 0x090 (by omega) (by omega) _ rfl rfl (by decide) rfl ?_
  show some (bufCmd r (w32 k) (s.arrive r P.LEASE)) = some t
  have e : fget (w32 k) ⟨2, 0⟩ = k := by unfold fget w32; simp only [BitVec.toNat_ofNat]; omega
  have hi : (s.arrive r P.LEASE).injArmed P.LEASE 31 = false := h.2
  unfold bufCmd State.detect
  rw [e]
  simp only [hi, Bool.false_eq_true, if_false]
  rw [if_neg (by simp; omega)]
  congr 1
  rw [← ht]
  rcases (show k = 1 ∨ k = 2 ∨ k = 3 ∨ k = 4 by omega) with rfl | rfl | rfl | rfl <;> rfl

/-- Writing a list of bytes cell by cell. -/
theorem memFold_spec (a : Nat) (d : List Byte) (k : Nat) (s : State) :
    let u := ((List.range' k d.length).zip d).foldl (fun (t : State) x => t.memWB (a + x.1) x.2) s
    (∃ m, u = { s with mem := m }) ∧ (∀ i : Nat, (h : i < d.length) → u.memB (a + (k + i)) = d[i]) ∧
    (∀ x, (x < a + k ∨ a + k + d.length ≤ x) → u.memB x = s.memB x) ∧ (Memory.wf s.mem = true → Memory.wf u.mem = true) := by
  induction d generalizing k s with
  | nil => exact ⟨⟨s.mem, rfl⟩, fun i h => absurd h (by simp), fun _ _ => rfl, fun h => h⟩
  | cons b d ih =>
    simp only [List.length_cons, List.range'_succ, List.zip_cons_cons, List.foldl_cons]
    obtain ⟨⟨m, h1⟩, h2, h3, h4⟩ := ih (k + 1) (s.memWB (a + k) b)
    refine ⟨⟨m, by rw [h1]; rfl⟩, fun i hi => ?_, fun x hx => ?_, fun hw => h4 (State.memWB_wf _ _ _ hw)⟩
    · cases i with
      | zero =>
        rw [h3 _ (by omega)]
        rw [State.memB_memWB]; simp
      | succ i =>
        have := h2 i (by omega)
        rw [show a + (k + (i + 1)) = a + (k + 1 + i) by omega, this]; rfl
    · rw [h3 x (by omega), State.memB_memWB, if_neg (by omega)]

/-- Nothing blocks an access. -/
theorem firstBlocked_none {s : State} {r : Req} {w : Bool} {a n : Nat} : s.firstBlocked r w a n = none ↔ ∀ i, i < n → s.blocked r w ((a + i) / 64 * 64) = false := by
  unfold State.firstBlocked
  simp [List.find?_eq_none]

/-- A write that nothing blocks. -/
theorem memWriteReq_spec {s : State} {r : Req} {a : Nat} {data : List Byte} (h : s.firstBlocked r true a data.length = none) :
    let u := memWriteReq r a data s
    (∃ m l x, u = { s with mem := m, lease := l, rf := { s.rf with live := x } }) ∧ (∀ i : Nat, (h : i < data.length) → u.memB (a + i) = data[i]) ∧
    (∀ x, (x < a ∨ a + data.length ≤ x) → u.memB x = s.memB x) ∧ (Memory.wf s.mem = true → Memory.wf u.mem = true) := by
  have hb := firstBlocked_none.1 h
  have hok : ((List.range data.length).zip data).filter (fun x => !s.blocked r true ((a + x.1) / 64 * 64)) = (List.range data.length).zip data := by
    rw [List.filter_eq_self]
    intro x hx
    have := (List.of_mem_zip hx).1
    rw [hb x.1 (by simpa using this)]; rfl
  obtain ⟨⟨m, h1⟩, h2, h3, h4⟩ := memFold_spec a data 0 s
  unfold memWriteReq
  dsimp only at *
  rw [hok, h]
  rw [← List.range_eq_range'] at h1 h2 h3 h4
  dsimp only
  generalize ((List.range data.length).zip data).foldl (fun (t : State) x => t.memWB (a + x.1) x.2) s = t at *
  generalize List.eraseDups (α := Nat) _ = touched
  have g : ∀ (l : List Nat) (t : State), ∃ z, l.foldl (fun (t : State) id => t.bumpWgen id) t = { t with lease := z } := by
    intro l; induction l with
    | nil => intro t; exact ⟨_, rfl⟩
    | cons x l ih => intro t; obtain ⟨z, e⟩ := ih (t.bumpWgen x); exact ⟨z, by rw [List.foldl_cons, e]; rfl⟩
  obtain ⟨z, e⟩ := g touched t
  rw [e]
  have fin : ∃ x, (if ((List.range data.length).zip data).isEmpty = true then ({ t with lease := z } : State) else State.add64 { t with lease := z } A.MEM_WR_BYTES_LO ((List.range data.length).zip data).length) =
      { t with lease := z, rf := { t.rf with live := x } } := by
    split
    · exact ⟨_, rfl⟩
    · exact State.add64_eq { t with lease := z } _ _
  obtain ⟨x, e'⟩ := fin
  rw [e', h1]
  rw [h1] at h2 h3 h4
  exact ⟨⟨m, z, x, rfl⟩, fun i hi => by have := h2 i hi; rw [Nat.zero_add] at this; exact this, fun x hx => h3 x (by omega), h4⟩

/-- A TLP leaves memory. -/
theorem hostTlp_mem (s : State) : (hostTlp s).mem = s.mem := by
  unfold hostTlp pcieErrorOp
  split
  · simp
  · rfl

/-- A read that nothing blocks and no ECC injection meets. -/
theorem memReadReq_spec {s : State} {r : Req} {a n : Nat} (hn : n ≠ 0) (h : s.firstBlocked r false a n = none) (h0 : s.injArmed P.MEM 0 = false)
    (h1 : s.injArmed P.MEM 1 = false) : memReadReq r a n s = (some (s.memRead a n), s.add64 A.MEM_RD_BYTES_LO n) := by
  unfold memReadReq eccRead
  simp only [h, hn, if_false, State.detect_unarmed h0, State.detect_unarmed h1, Bool.false_eq_true, Bool.false_and]
  congr 2
  apply List.ext_getElem <;> simp

/-- An access whose every byte is blocked. -/
theorem firstBlocked_all {s : State} {r : Req} {w : Bool} {a n : Nat} (hn : n ≠ 0) (h : ∀ i, i < n → s.blocked r w ((a + i) / 64 * 64) = true) :
    s.firstBlocked r w a n = some a := by
  obtain ⟨n, rfl⟩ : ∃ m, n = m + 1 := ⟨n - 1, by omega⟩
  unfold State.firstBlocked
  rw [List.range_succ_eq_map, List.find?_cons_of_pos (by simpa using h 0 (by omega))]
  rfl

end Sys2Proof.Machine
end

