-- ==== Sys2Proof/Laws/Pages.lean ====
section
/-!
SUPPORT. The page shell: withdrawal, return and crossings (R27, R39, R56, R427, R428).
-/
namespace Sys2Proof.Machine

/-- The words below 3. -/
theorem word_lt_three {b : Word} (h : b.toNat < 3) : b = 0 ∨ b = 1 ∨ b = 2 := by
  have : b = BitVec.ofNat 32 b.toNat := by simp
  rw [this]
  rcases Nat.lt_or_ge b.toNat 1 with h1 | h1
  · left; have : b.toNat = 0 := by omega
    rw [this]; rfl
  · rcases Nat.lt_or_ge b.toNat 2 with h2 | h2
    · right; left; have : b.toNat = 1 := by omega
      rw [this]; rfl
    · right; right; have : b.toNat = 2 := by omega
      rw [this]; rfl

/-- A write of PAGE_CTRL with a good VIEW. -/
theorem pageCtrlWrite_spec {s : State} {r : Req} {p : Nat} {w : Word} (hi : s.injArmed p 31 = false) (hv : fget w ⟨1, 0⟩ ≠ 3) :
    pageCtrlWrite r p w s =
    (let s := s.setBank (H.PAGE_CTRL p) 0 r (w &&& 3)
     let s := s.put (H.PAGE_CTRL p) ⟨30, 30⟩ (bitOf w 30).toNat
     let s := if bitOf w 30 then withdrawOp p s else returnOp p s
     if bitOf w 31 then pageRstOp p s else s) := by
  unfold pageCtrlWrite State.judge
  have e1 : H.PAGE_CTRL p / 0x1000 = p := by unfold H.PAGE_CTRL; omega
  have e2 : H.PAGE_CTRL p % 0x1000 = 0x00C := by unfold H.PAGE_CTRL; omega
  have e3 : checksOf s (H.PAGE_CTRL p) w = [.rej false (openCode 0x00C) none] := by
    unfold checksOf
    simp only [e2, if_true, show (0x00C < 0x80) = True by simp]
    have : (fget w ⟨1, 0⟩ == 3) = false := by simp [hv]
    rw [this]
  simp only [e1, e3, hi, Bool.and_false, Bool.false_eq_true, if_false, judgeWord, List.foldl_nil, Chk.apply, Bool.or_self, List.isEmpty_nil, Bool.not_true,
    and_false, State.guardActs, if_true]

/-- The bits of the word that withdraws. -/
theorem withdrawWord_bits {b : Word} (h : b = 0 ∨ b = 1 ∨ b = 2) : (w32 (2 ^ 30) ||| b) &&& 3 = b &&& 3 ∧ bitOf (w32 (2 ^ 30) ||| b) 30 = true ∧ bitOf (w32 (2 ^ 30) ||| b) 31 = false
   ∧ fget (w32 (2 ^ 30) ||| b) ⟨1, 0⟩ ≠ 3 ∧ bitOf b 30 = false ∧ bitOf b 31 = false ∧ fget b ⟨1, 0⟩ ≠ 3 := by
  rcases h with rfl | rfl | rfl <;> decide

/-- The commit machinery is no part of OFFLINE. -/
theorem State.offline_commit (a : State) (c : Commit) (p : Nat) : State.offline { a with commit := c } p = a.offline p := rfl

/-- The commit machinery is no part of a bench. -/
theorem State.bench_commit (a : State) (c : Commit) (p : Nat) : State.bench { a with commit := c } p = a.bench p := rfl

/-- A write that withdraws a page. -/
theorem regWrite_withdraw {s : State} {r : Req} {p : Nat} (h : s.runs) (hb : blkOf p ≠ none) (hi : (s.tlp r).injArmed p 31 = false) (b : Word) (hlt : b.toNat < 3) :
    running (regWrite r p 0x00C (w32 (2 ^ 30) ||| b)) s = (withdrawOp p (((s.tlp r).setBank (H.PAGE_CTRL p) 0 r (b &&& 3)).put (H.PAGE_CTRL p) ⟨30, 30⟩ 1)).reply r .done := by
  obtain ⟨b1, b2, b3, b4, b5, b6, b7⟩ := withdrawWord_bits (word_lt_three hlt)
  rw [regWrite_header h hb (by simp)]
  unfold shellWrite
  rw [pageCtrlWrite_spec hi b4]
  simp only [b1, b2, b3, if_true, Bool.false_eq_true, if_false, Bool.toNat_true]

/-- A write that marks a page for return. -/
theorem regWrite_return {s : State} {r : Req} {p : Nat} (h : s.runs) (hb : blkOf p ≠ none) (hi : (s.tlp r).injArmed p 31 = false) (b : Word) (hlt : b.toNat < 3) :
    running (regWrite r p 0x00C b) s = (returnOp p (((s.tlp r).setBank (H.PAGE_CTRL p) 0 r (b &&& 3)).put (H.PAGE_CTRL p) ⟨30, 30⟩ 0)).reply r .done := by
  obtain ⟨b1, b2, b3, b4, b5, b6, b7⟩ := withdrawWord_bits (word_lt_three hlt)
  rw [regWrite_header h hb (by simp)]
  unfold shellWrite
  rw [pageCtrlWrite_spec hi b7]
  simp only [b5, b6, Bool.false_eq_true, if_false, Bool.toNat_false]

/-- A queue or a DMX unit is withdrawn at once. -/
theorem withdrawOp_unit {a : State} {p : Nat} (ho : a.offline p = false) (hk : blkOf p = some .q ∨ blkOf p = some .dmx) : withdrawOp p a = goOffline p { a with
        commit := { a.commit with returning := a.commit.returning.filter (· != p), returnDue := a.commit.returnDue.filter (· != p) } } := by
  unfold withdrawOp
  simp only [State.offline_commit, ho, Bool.false_eq_true, if_false]
  rcases hk with hk | hk <;> simp only [hk]

/-- An idle bench is withdrawn at once. -/
theorem withdrawOp_bench {a : State} {k : Nat} (ho : a.offline (P.BENCH k) = false) (hk : k < 16) (hj : (a.bench k).job = none) : withdrawOp (P.BENCH k) a = goOffline (P.BENCH k) { a with
        commit := { a.commit with returning := a.commit.returning.filter (· != P.BENCH k), returnDue := a.commit.returnDue.filter (· != P.BENCH k),
                                  withdrawing := P.BENCH k :: a.commit.withdrawing.filter (· != P.BENCH k) } } := by
  have hbk : blkOf (P.BENCH k) = some .bench := (by decide : ∀ k, k < 16 → blkOf (P.BENCH k) = some .bench) k hk
  have hpk : P.BENCH k - 0x40 = k := by unfold P.BENCH; omega
  unfold withdrawOp
  simp only [State.offline_commit, ho, Bool.false_eq_true, if_false, hbk]
  unfold withdrawNow
  simp only [List.contains_cons, beq_self_eq_true, Bool.true_or, Bool.not_true, Bool.false_eq_true, if_false, hbk, hpk]
  simp only [State.bench_commit, hj, Option.isNone_none, if_true]

/-- A page out of service is marked for return. -/
theorem returnOp_spec {a : State} {p : Nat} : let z := a.put (H.ST_CTRL p) ⟨0, 0⟩ 0
   z.offline p = true → z.dbg.slice = none → returnOp p a = { z with
        commit := { z.commit with withdrawing := z.commit.withdrawing.filter (· != p),
                                  returning := p :: z.commit.returning.filter (· != p) } } := by
  intro z ho hs
  unfold returnOp sliceStopOn
  change (let s := a.put (H.ST_CTRL p) ⟨0, 0⟩ 0; _) = _
  have hs' : (a.put (H.ST_CTRL p) ⟨0, 0⟩ 0).dbg.slice = none := hs
  have ho' : (a.put (H.ST_CTRL p) ⟨0, 0⟩ 0).offline p = true := ho
  simp only [hs', State.offline_commit, ho', if_true]
  rfl

/-- A bench that waits to be withdrawn, once idle. -/
theorem withdrawNow_bench {s : State} {k : Nat} (hk : k < 16) (hc : s.commit.withdrawing.contains (P.BENCH k) = true) (hj : (s.bench k).job = none) :
    withdrawNow (P.BENCH k) s = goOffline (P.BENCH k) s := by
  have hbk : blkOf (P.BENCH k) = some .bench := (by decide : ∀ k, k < 16 → blkOf (P.BENCH k) = some .bench) k hk
  have hpk : P.BENCH k - 0x40 = k := by unfold P.BENCH; omega
  unfold withdrawNow
  simp only [hc, Bool.not_true, Bool.false_eq_true, if_false, hbk, hpk, hj, Option.isNone_none, if_true]

/-- An engine that waits to be withdrawn, once its carriage has ended. -/
theorem withdrawNow_engine {s : State} {k : Nat} (hk : k < 8) (hc : s.commit.withdrawing.contains (P.SCAN k) = true) (hj : s.carriageOver k = true) :
    withdrawNow (P.SCAN k) s = engineAbort k (goOffline (P.SCAN k) s) := by
  have hbk : blkOf (P.SCAN k) = some .scan := (by decide : ∀ k, k < 8 → blkOf (P.SCAN k) = some .scan) k hk
  have hpk : P.SCAN k - 0xB0 = k := by unfold P.SCAN; omega
  unfold withdrawNow
  simp only [hc, Bool.not_true, Bool.false_eq_true, if_false, hbk, hpk, hj, if_true]

/-- A page returns that missed no epoch. -/
theorem pageReturnOp_current {s : State} {p : Nat} (hc : s.commit.returnDue.contains p = true)
    (hr : s.commit.stopped.contains p = false) (hl : s.laneWaits p = false) (hm : bitOf (s.rd (H.PAGE_STAT p)) 25 = false) :
    pageReturnOp p s = pageEpoch p (repairsApply p ((({ s with commit := { s.commit with returning := s.commit.returning.filter (· != p), returnDue := s.commit.returnDue.filter (· != p) } } : State).put (H.PAGE_STAT p) ⟨25, 25⟩ 0).put (H.PAGE_STAT p) ⟨29, 29⟩ 0)) := by
  unfold pageReturnOp
  have : ∀ c : Commit, ({ s with commit := c } : State).rd (H.PAGE_STAT p) = s.rd (H.PAGE_STAT p) := fun _ => rfl
  simp only [hc, hr, hl, Bool.not_true, Bool.or_self, Bool.false_eq_true, if_false, this, hm]

/-- A page returns that missed an epoch. -/
theorem pageReturnOp_missed {s : State} {p : Nat} (hc : s.commit.returnDue.contains p = true)
    (hr : s.commit.stopped.contains p = false) (hl : s.laneWaits p = false) (hm : bitOf (s.rd (H.PAGE_STAT p)) 25 = true) :
    let t : State := { s with commit := { s.commit with returning := s.commit.returning.filter (· != p), returnDue := s.commit.returnDue.filter (· != p) } }
        let l : State := { t with rf := { t.rf with active := mapPick (· == p) s.rf.force s.rf.active } }
        let x := if s.epochWaits then l else l.put (H.PAGE_STAT p) ⟨27, 27⟩ 0
        let w := if seenAtBoundary p then x.wr (H.EPOCH_SEEN p) (x.rd A.SYS_EPOCH_APPLIED) else x
    pageReturnOp p s = pageEpoch p (repairsApply p ((w.put (H.PAGE_STAT p) ⟨25, 25⟩ 0).put (H.PAGE_STAT p) ⟨29, 29⟩ 0)) := by
  unfold pageReturnOp
  have : ∀ c : Commit, ({ s with commit := c } : State).rd (H.PAGE_STAT p) = s.rd (H.PAGE_STAT p) := fun _ => rfl
  simp only [hc, hr, hl, Bool.not_true, Bool.or_self, Bool.false_eq_true, if_false, this, hm, if_true]
  rfl

/-- The bits of the word that resets a page. -/
theorem resetWord_bits (w : Word) {b : Word} (h : b = 0 ∨ b = 1 ∨ b = 2) : let v := w32 (2 ^ 31) ||| w &&& w32 (2 ^ 30) ||| b
    v &&& 3 = b &&& 3 ∧ bitOf v 30 = bitOf w 30 ∧ bitOf v 31 = true ∧ fget v ⟨1, 0⟩ ≠ 3 := by
  have hw : w &&& w32 (2 ^ 30) = if w.getLsbD 30 then w32 (2 ^ 30) else 0#32 := by
    have : w32 (2 ^ 30) = BitVec.twoPow 32 30 := by decide
    rw [this, BitVec.and_twoPow]
  intro v
  have hv : v = w32 (2 ^ 31) ||| (if w.getLsbD 30 then w32 (2 ^ 30) else 0#32) ||| b := by rw [← hw]
  rw [hv, bitOf_eq_getLsbD w]
  cases w.getLsbD 30 <;> rcases h with rfl | rfl | rfl <;> decide

/-- An access at a stopped crossing is abandoned. -/
theorem accessAbandonOp_spec {s : State} {r : Req} {p : Nat} {w : Bool} (hb : blkOf p ≠ none) (hs : s.commit.stalled.contains p = false)
    (h28 : bitOf (s.rd (H.PAGE_STAT p)) 28 = false) :
    let t : State := { s with commit := { s.commit with
        stopped := p :: s.commit.stopped.filter (· != p), waiting := s.commit.waiting.filter fun y => y.page != p } }
    let u := freqSync (((t.put (H.PAGE_STAT p) ⟨28, 28⟩ 1).raise p 30).raise P.SYS 7)
    let here := s.commit.waiting.filter fun y => y.page == p
    accessAbandonOp r p w s = sealsPass p here ((here.filter fun y => y.off != sealMark).foldl (fun t y => accessFail y t)
      (if here.isEmpty then accessFail ⟨r, p, 0x80, w, 0⟩ u else u)) := by
  have hb : (blkOf p).isNone = false := by cases hh : blkOf p <;> simp_all
  unfold accessAbandonOp clkstopRaise
  simp only [hb, hs, h28, Bool.false_eq_true, if_false]

/-- A write of a SYS register that acts. -/
theorem regWrite_sys {s t : State} {r : Req} {o : Nat} (h : s.reaches r P.SYS) (ho : o ∈ [0x088, 0x09C, 0x0A0, 0x0B0, 0x100]) (w : Word)
    (ht : sysWrite r o w (s.arrive r P.SYS) = some t) : running (regWrite r P.SYS o w) s = t.reply r .done := by
  simp only [List.mem_cons, List.not_mem_nil, or_false] at ho
  rcases ho with rfl | rfl | rfl | rfl | rfl <;>
    exact regWrite_acts h _ (by omega) (by omega) w rfl rfl (by decide) rfl ht

end Sys2Proof.Machine
end

