-- ==== Sys2Proof/Laws/Reset.lean ====
section
/-!
SUPPORT. Restarts and the clock unit (R8, R61, R409).
-/
namespace Sys2Proof.Machine

/-- A write of FREQ_SEL. -/
theorem regWrite_clk {s : State} {r : Req} (h : s.reaches r P.CLK) (w : Word) : running (regWrite r P.CLK 0x084 w) s = (freqWrite w (s.arrive r P.CLK)).reply r .done :=
  regWrite_acts h 0x084 (by omega) (by omega) w (d := ⟨0x084, 0, 1, .single, [⟨22, 16, .rwi, 0⟩, ⟨3, 0, .rwi, 0⟩]⟩) rfl rfl (by decide) rfl rfl

/-- The checks of FREQ_SEL. -/
theorem checks_clk (s : State) (w : Word) : checksOf s A.CLK_FREQ_SEL w = clkChecks 0x084 w := by
  have h1 : bufFields A.CLK_FREQ_SEL = [] := by decide
  have h2 : A.CLK_FREQ_SEL % 0x1000 = 0x084 := by decide
  have h3 : blkOf (A.CLK_FREQ_SEL / 0x1000) = some .clk := by decide
  unfold checksOf bufChecks
  rw [h1, h2, h3]
  rfl

/-- What a restart writes into a state: the cause, the fused life cycle and keys, the link, and the keeper's loss. -/
def restartChain (cause life : Nat) (keys msv hls : Word) (lost : Bool) (t0 : State) : State :=
  let t := t0.wr A.SYS_RESET_CAUSE (w32 (2 ^ cause))
  let t := t.wr A.LIFE_STATE (w32 (life * 17))
  let t := (t.wr A.LIFE_KEYS keys).wr A.LIFE_MIN_SEC_VER msv
  let t := if cause = causeWarm ∨ cause = causeWatchdog then t.wr A.HOST_LINK_STAT hls else t
  let t := t.put A.KEEP_STAT F.KEEP_STAT_LOST lost.toNat
  t.raiseIf lost P.KEEP 2

/-- What that writes. -/
theorem restartChain_spec (cause life : Nat) (keys msv hls : Word) (lost : Bool) (t0 : State) :
    (∃ m x, restartChain cause life keys msv hls lost t0 = { t0 with rf := { t0.rf with live := m }, msix := x }) ∧
    (restartChain cause life keys msv hls lost t0).rd A.SYS_RESET_CAUSE = w32 (2 ^ cause) ∧
    (restartChain cause life keys msv hls lost t0).rd A.LIFE_STATE = w32 (life * 17) := by
  unfold restartChain
  dsimp only
  have g1 := live_eq_trans (State.wr_eq t0 A.SYS_RESET_CAUSE (w32 (2 ^ cause))) (State.wr_eq _ A.LIFE_STATE (w32 (life * 17)))
  have a1 : ((t0.wr A.SYS_RESET_CAUSE (w32 (2 ^ cause))).wr A.LIFE_STATE (w32 (life * 17))).rd A.SYS_RESET_CAUSE = w32 (2 ^ cause) :=
    (State.rd_wr_ne _ _ (by decide)).trans (State.rd_wr_same _ _ _)
  have b1 : ((t0.wr A.SYS_RESET_CAUSE (w32 (2 ^ cause))).wr A.LIFE_STATE (w32 (life * 17))).rd A.LIFE_STATE = w32 (life * 17) := State.rd_wr_same _ _ _
  generalize (t0.wr A.SYS_RESET_CAUSE (w32 (2 ^ cause))).wr A.LIFE_STATE (w32 (life * 17)) = t1 at *
  have g2 := live_eq_trans g1 (live_eq_trans (State.wr_eq t1 A.LIFE_KEYS keys) (State.wr_eq _ A.LIFE_MIN_SEC_VER msv))
  have a2 : ((t1.wr A.LIFE_KEYS keys).wr A.LIFE_MIN_SEC_VER msv).rd A.SYS_RESET_CAUSE = w32 (2 ^ cause) :=
    (State.rd_wr_ne _ _ (by decide)).trans ((State.rd_wr_ne _ _ (by decide)).trans a1)
  have b2 : ((t1.wr A.LIFE_KEYS keys).wr A.LIFE_MIN_SEC_VER msv).rd A.LIFE_STATE = w32 (life * 17) :=
    (State.rd_wr_ne _ _ (by decide)).trans ((State.rd_wr_ne _ _ (by decide)).trans b1)
  generalize (t1.wr A.LIFE_KEYS keys).wr A.LIFE_MIN_SEC_VER msv = t2 at *
  have q3 : (∃ m x, (if cause = causeWarm ∨ cause = causeWatchdog then t2.wr A.HOST_LINK_STAT hls else t2) = { t2 with rf := { t2.rf with live := m }, msix := x }) ∧
      (if cause = causeWarm ∨ cause = causeWatchdog then t2.wr A.HOST_LINK_STAT hls else t2).rd A.SYS_RESET_CAUSE = w32 (2 ^ cause) ∧
      (if cause = causeWarm ∨ cause = causeWatchdog then t2.wr A.HOST_LINK_STAT hls else t2).rd A.LIFE_STATE = w32 (life * 17) := by
    split
    · exact ⟨State.wr_eq _ _ _, (State.rd_wr_ne _ _ (by decide)).trans a2, (State.rd_wr_ne _ _ (by decide)).trans b2⟩
    · exact ⟨⟨_, _, rfl⟩, a2, b2⟩
  obtain ⟨q, a3, b3⟩ := q3
  have g3 := live_eq_trans g2 q
  generalize (if cause = causeWarm ∨ cause = causeWatchdog then t2.wr A.HOST_LINK_STAT hls else t2) = t3 at *
  exact ⟨live_eq_trans g3 (live_eq_trans (State.put_eq t3 A.KEEP_STAT F.KEEP_STAT_LOST lost.toNat) (State.raiseIf_eq _ lost P.KEEP 2)),
    (State.rd_raiseIf _ _ _ _ (by decide) (by decide) (by decide)).trans ((State.rd_put_ne _ _ _ (by decide)).trans a3),
    (State.rd_raiseIf _ _ _ _ (by decide) (by decide) (by decide)).trans ((State.rd_put_ne _ _ _ (by decide)).trans b3)⟩

/-- The state a restart begins from. -/
def restartBase (cause : Nat) (s : State) : State :=
  { State.reset with
    rf := { State.reset.rf with live := s.rf.live.filter fun x => x.1 / 0x1000 == P.KEEP }
    power := { State.reset.power with thermtrip := s.power.thermtrip, rstLow := s.power.rstLow }
    gaffer := { Gaffer.initial with flash := s.gaffer.flash, slots := s.gaffer.slots }
    keepLog := s.keepLog
    dbg := { State.reset.dbg with
      repairs := (s.dbg.repairs.filter (·.fused)).map (fun (x : Repair) => { x with inForce := true })
      tapChain := s.dbg.tapChain, tapOut := s.dbg.tapOut, boundary := s.dbg.boundary, pinsDriven := s.dbg.pinsDriven }
    fixture := s.fixture
    mem := if (cause == causePor) = true then [] else s.mem
    free := s.free
    pending := s.pending }

/-- A restart, up to live registers, the message table and Krafohel time. -/
theorem restartFrom_form (cause : Nat) (s : State) : ∃ m x k, restartFrom cause s = { restartBase cause s with
      rf := { (restartBase cause s).rf with live := m }, msix := x, time := { (restartBase cause s).time with t := k } } ∧
    (restartFrom cause s).rd A.SYS_RESET_CAUSE = w32 (2 ^ cause) ∧
    (restartFrom cause s).rd A.LIFE_STATE = w32 (s.get A.LIFE_STATE F.LIFE_STATE_NEXT * 17) := by
  have e : ∃ t4 k, t4 = restartChain cause (s.get A.LIFE_STATE F.LIFE_STATE_NEXT) (s.rd A.LIFE_KEYS) (s.rd A.LIFE_MIN_SEC_VER)
      (s.rd A.HOST_LINK_STAT) s.power.keeperLost (restartBase cause s) ∧
      restartFrom cause s = ({ t4 with time := { t4.time with t := k } } : State).irqSync := ⟨_, _, rfl, rfl⟩
  obtain ⟨t4, k, e4, e⟩ := e
  obtain ⟨g, a, b⟩ := restartChain_spec cause (s.get A.LIFE_STATE F.LIFE_STATE_NEXT) (s.rd A.LIFE_KEYS) (s.rd A.LIFE_MIN_SEC_VER)
      (s.rd A.HOST_LINK_STAT) s.power.keeperLost (restartBase cause s)
  rw [← e4] at g a b
  rw [e]
  generalize restartBase cause s = t0 at *
  clear e4 e
  obtain ⟨m, x, e'⟩ := State.irqSync_eq ({ t4 with time := { t4.time with t := k } } : State)
  obtain ⟨m', x', e4⟩ := g
  refine ⟨m, x, k, ?_, (State.irqSync_rd _ _ (by decide)).trans a, (State.irqSync_rd _ _ (by decide)).trans b⟩
  rw [e', e4]

/-- What a restart keeps and sets. -/
theorem restartFrom_spec (cause : Nat) (s : State) : let t := restartFrom cause s
    t.keepLog = s.keepLog ∧ t.gaffer.flash = s.gaffer.flash ∧ t.gaffer.slots = s.gaffer.slots ∧ t.gaffer.mbxQ = [] ∧
    t.fixture = s.fixture ∧ t.mem = (if cause = causePor then [] else s.mem) ∧ t.power.mode = .run ∧ t.lease = State.reset.lease ∧
    t.rf.active = [] ∧ t.rf.shadow = [] ∧ t.rf.pend = [] ∧ t.commit = State.reset.commit ∧
    t.rd A.SYS_RESET_CAUSE = w32 (2 ^ cause) ∧ t.rd A.LIFE_STATE = w32 (s.get A.LIFE_STATE F.LIFE_STATE_NEXT * 17) := by
  obtain ⟨m, x, k, e, a, b⟩ := restartFrom_form cause s
  intro t
  have ht : t = _ := e
  have a' : t.rd A.SYS_RESET_CAUSE = _ := a
  have b' : t.rd A.LIFE_STATE = _ := b
  clear_value t
  have hm : t.mem = (if cause = causePor then [] else s.mem) := by
    rw [ht]; show (if (cause == causePor) = true then [] else s.mem) = _; simp only [beq_iff_eq]
  refine ⟨?_, ?_, ?_, ?_, ?_, hm, ?_, ?_, ?_, ?_, ?_, ?_, a', b'⟩ <;> rw [ht] <;> rfl

/-- What a reset finds half done in the flash and the fuses: it changes the flash, the fuse registers and the count of free values alone. -/
theorem interrupted_form (s : State) : ∃ m d f o k, interruptedFuse (interruptedSave s) = { s with
    rf := { s.rf with live := m }, dbg := d, gaffer := { s.gaffer with flash := f, saving := o }, free := k } := by
  have h1 : ∃ f o k, interruptedSave s = { s with gaffer := { s.gaffer with flash := f, saving := o }, free := k } := by
    unfold interruptedSave
    split
    · exact ⟨s.gaffer.flash, s.gaffer.saving, s.free, rfl⟩
    · exact ⟨_, none, _, rfl⟩
  obtain ⟨f, o, k, e⟩ := h1
  rw [e]
  unfold interruptedFuse
  split
  · exact ⟨s.rf.live, s.dbg, f, o, k, rfl⟩
  · rename_i op _
    simp only
    split
    · exact ⟨s.rf.live, _, f, o, _, rfl⟩
    · cases op
      · exact ⟨_, _, f, o, _, rfl⟩
      · exact ⟨_, _, f, o, _, rfl⟩
      · exact ⟨_, _, f, o, _, rfl⟩

/-- A reset that interrupts neither a save of the settings nor a fuse word restarts the state as it stands. -/
theorem restart_idle {s : State} (cause : Nat) (h : s.gaffer.saving = none) (h' : s.dbg.fuse = none) :
    restart cause s = restartFrom cause s := by
  have e : interruptedSave s = s := by unfold interruptedSave; rw [h]
  unfold restart
  rw [e]
  unfold interruptedFuse
  rw [h']

end Sys2Proof.Machine
end

