-- ==== Sys2Proof/Laws/Sched.lean ====
section
/-!
SUPPORT. Slot commands and jobs that stop (R119, R124).
-/
namespace Sys2Proof.Machine

/-- A job that is stopped has run to a free point. -/
theorem stopJob_some {s : State} {b : Nat} {j : RunJob} {p w : Bool} (h1 : (s.bench b).job = some j) :
   stopJob b p w s = (let n := s.fresh (2 ^ 24); let r := runJob b j (s.slot j.slot).fresh (some n.1) p w n.2; (some (j, r.1), r.2.benchIdle b)) := by
  unfold stopJob; rw [h1]

/-- Counting ticks changes the scheduler alone. -/
@[simp] theorem countTicks_rf (s : State) : (countTicks s).rf = s.rf := rfl

@[simp] theorem countTicks_schedEn (s : State) : (countTicks s).schedEn = s.schedEn := rfl

/-- What the deadline of an open layer does (R123, R124). -/
theorem layerDeadlineOp_open {i : Nat} {s : State} (h : (s.layerSt i).isOpen = true) :
    let ready := s.sched.ready.filter fun k => dLayer (s.slotDesc k) == i && !dVideoClip (s.slotDesc k)
    let aff := s.sched.affinity.filter fun e => dLayer (s.slotDesc e.slot) == i && !dVideoClip (s.slotDesc e.slot)
    let n := ready.length + aff.length
    let t := (List.range 16).foldl (lateOn i) ((s.add A.SCHED_DEFERRED ⟨31, 0⟩ n).raiseN n P.SCHED 2)
    let u := aff.foldl (fun t e => t.setSlot e.slot { t.slot e.slot with st := .ready }) t
    let v : State := { u with sched := { u.sched with
      affinity := u.sched.affinity.filter fun e => !aff.contains e, ready := aff.map (·.slot) ++ u.sched.ready } }
    layerDeadlineOp i s = schedKick (closeLayer true i v) := by
  intro ready aff n t u v
  unfold layerDeadlineOp
  rw [if_neg (by rw [h]; decide)]

/-- A job of the layer on a bench is late. -/
theorem lateOn_some {s : State} {b i : Nat} {j : RunJob} (h1 : (s.bench b).job = some j) (h2 : dLayer j.desc = i) (h3 : dVideoClip j.desc = false) {q : Nat} {v : State}
  (e : stopJob b (!dRepeat j.desc) true s = (some (j, q), v)) :
    let t := ((v.dropCopies b j.slot).inc A.SCHED_LATE_CNT).raise P.SCHED 1
    let x := { t.slot j.slot with status := 2, frameLast := j.frame, fresh := false }
   (dRepeat j.desc = true → lateOn i s b = t.setSlot j.slot { x with st := .spent, resume := none }) ∧
    (dRepeat j.desc = false →
      let u := t.setSlot j.slot { x with st := .ready, resume := some (j.desc, q) }
      lateOn i s b = { u with sched := { u.sched with ready := j.slot :: u.sched.ready } }) := by
  intro t x
  have hh : (dLayer j.desc = i ∧ (!dVideoClip j.desc) = true) := by simp [h2, h3]
  unfold lateOn
  rw [h1]
  dsimp only
  rw [if_pos hh, e]
  constructor <;> intro h4
  · rw [if_pos h4]
  · rw [if_neg (by rw [h4]; decide)]

/-- A write of SLOT_CMD arrives at the scheduler. -/
theorem regWrite_slotCmd {s : State} {r : Req} (h : s.obeys r P.SCHED) (w : Word) :
    running (regWrite r P.SCHED 0x098 w) s = (schedArrive ⟨r, A.SCHED_SLOT_CMD, w.zeroExtend 64⟩ (s.arrive r P.SCHED)).reply r .done :=
  regWrite_acts h.1 0x098 (by omega) (by omega) w rfl rfl (by decide) rfl rfl

/-- The slotCmd_fields of SLOT_CMD. -/
theorem slotCmd_fields (n f k : Nat) (hn : n < 16) (hf : f < 256) (hk : k < 4096) : let w := w32 (n * 2 ^ 28 + f * 65536 + k)
    fget w ⟨11, 0⟩ = k ∧ fget w ⟨23, 16⟩ = f ∧ fget w ⟨31, 28⟩ = n := by
  unfold fget w32
  simp only [BitVec.toNat_ofNat]
  omega

/-- A slot command outside the boundary steps. -/
theorem schedArrive_slotCmd {a : State} {r : Req} (n f k : Nat) (hn : n < 16) (hf : f < 256) (hk : k < 4096) (hh : a.sched.holding = false) (hi : a.injArmed P.SCHED 31 = false) :
    schedArrive ⟨r, A.SCHED_SLOT_CMD, (w32 (n * 2 ^ 28 + f * 65536 + k)).zeroExtend 64⟩ a =
    (match (generalizing := false) n with
  | 1 => cmdArm r k a
  | 2 => cmdCancel r k a
  | 3 => cmdPset r k f a
  | 4 => cmdPclr r k f a
  | 5 => cmdSlotQuery r k a
  | _ => slotResult r 4 k (a.guard1 P.SCHED 31 0x04 (some 3))) := by
  obtain ⟨e1, e2, e3⟩ := slotCmd_fields n f k hn hf hk
  generalize hw : w32 (n * 2 ^ 28 + f * 65536 + k) = w at *
  have : (w.zeroExtend 64).truncate 32 = w := by simp
  unfold schedArrive
  rw [hh]
  unfold schedWrite slotCmd
  simp only [Bool.false_eq_true, if_false, if_true, this, State.detect_unarmed hi, e1, e2, e3]
  all_goals rfl

end Sys2Proof.Machine
end

