-- ==== Sys2Proof/Laws/Shadow.lean ====
section
/-!
SUPPORT. Writes to shadowed registers (R21, R33).
-/
namespace Sys2Proof.Machine

/-- A shadowed register is not read-only. -/
theorem RegDef.readOnly_of_rws {d : RegDef} (hrws : d.isRws = true) : d.readOnly = false := by
    unfold RegDef.readOnly RegDef.isRws at *
    rw [List.any_eq_true] at hrws
    obtain ⟨f, hf, hf'⟩ := hrws
    rw [Bool.eq_false_iff]; intro hall
    rw [List.all_eq_true] at hall
    have := hall f hf
    cases hacc : f.acc <;> simp_all

/-- What noting a trigger's write leaves. -/
theorem trigMark_spec (a : Nat) (s : State) : (trigMark a s).rf = s.rf ∧ (trigMark a s).mem = s.mem ∧ (trigMark a s).lease = s.lease ∧ (trigMark a s).commit = s.commit := by
  unfold trigMark; split <;> exact ⟨rfl, rfl, rfl, rfl⟩

/-- A write to a shadowed register reaches its judge. -/
theorem rwsWrite_reaches {s : State} {r : Req} {p o : Nat} {v : Word} {d : RegDef} (h : s.reaches r p) (ho : 0x80 ≤ o) (ho' : o < 0x1000)
    (hd : findReg (p * 0x1000 + o) = some d) (hrws : d.isRws = true) (hp : d.pair ≠ .lo) :
    running (regWrite r p o v) s = (rwsWrite r d (p * 0x1000 + o) v (s.arrive r p)).reply r .done := by
  rw [regWrite_reaches h o ho]
  unfold writeReg
  have : ¬ (o < 0x80) := by omega
  simp only [hd, RegDef.readOnly_of_rws hrws, hp, offset_of ho', this, hrws, if_true, if_false, Bool.false_eq_true]

/-- A write of a register that neither is shadowed nor acts reaches its judge. -/
theorem plainWrite_reaches {s : State} {r : Req} {p o : Nat} {v : Word} {d : RegDef} (h : s.reaches r p) (ho : 0x80 ≤ o) (ho' : o < 0x1000)
    (hd : findReg (p * 0x1000 + o) = some d) (hro : d.readOnly = false) (hr : d.isRws = false) (hp : d.pair ≠ .lo)
    (ha : actWrite r (p * 0x1000 + o) v (s.arrive r p) = none) :
    running (regWrite r p o v) s = (plainWrite r d (p * 0x1000 + o) v (s.arrive r p)).reply r .done := by
  rw [regWrite_reaches h o ho]
  unfold writeReg
  have : ¬ (o < 0x80) := by omega
  simp only [hd, hro, hp, offset_of ho', this, hr, ha, if_false, Bool.false_eq_true, Option.getD_none]

/-- A write of the shadow set. -/
theorem State.wrShadow_shadow (s : State) (a : Nat) (v : Word) : (s.wrShadow a v).rf.shadow = amSet resetOf s.rf.shadow a v := rfl

/-- A judged word changes live registers alone. -/
theorem State.judge_live (s : State) (a : Nat) (w : Word) :
    ∃ m x, (s.judge a w).2 = { s with rf := { s.rf with live := m }, msix := x } := by
  unfold State.judge
  simp only
  generalize hc : (!(checksOf s a w).isEmpty && s.injArmed (a / 0x1000) 31) = c
  generalize (judgeWord (checksOf s a w) c w).acts = l
  have g1 : ∃ m x, (if c = true then s.injTake (a / 0x1000) 31 else s) = { s with rf := { s.rf with live := m }, msix := x } := by
    split
    · exact State.injTake_eq _ _ _
    · exact ⟨_, _, rfl⟩
  have g2 := live_eq_trans g1 (State.guardActs_eq _ (a / 0x1000) l)
  split
  · exact live_eq_trans g2 (State.wr_eq _ _ _)
  · exact g2

/-- REGISTER_WRITE of any register but a page's EVT_STAT is a plain access. -/
theorem registerWrite_access {r : Req} {p o : Nat} {v met : Word} {s : State} (h : ¬ (o = 0x010 ∧ (blkOf p).isSome = true)) :
    exec (.registerWrite r p o ⟨v, met⟩) s = gated (regWrite r p o v) s := by
  have e : exec (.registerWrite r p o ⟨v, met⟩) s = execRegisterWrite r p o ⟨v, met⟩ s := rfl
  rw [e]; unfold execRegisterWrite; rw [if_neg h]

/-- REGISTER_WRITE of a page's EVT_STAT meets the events of its cycle. -/
theorem registerWrite_evtStat {r : Req} {p : Nat} {v met : Word} {s : State} (h : (blkOf p).isSome = true) :
    exec (.registerWrite r p 0x010 ⟨v, met⟩) s = gated (evtStatWrite r p v met) s := by
  have e : exec (.registerWrite r p 0x010 ⟨v, met⟩) s = execRegisterWrite r p 0x010 ⟨v, met⟩ s := rfl
  rw [e]; unfold execRegisterWrite; rw [if_pos ⟨rfl, h⟩]

/-- A register whose limits follow another's lies above it. -/
theorem follower_gt {a b : Nat} (h : follower a = some b) : a < b := by
  unfold follower at h
  simp only at h
  split at h <;> (try split at h) <;> simp at h <;> omega

/-- What refitting a follower leaves: at most that one register of the shadow set, and live registers. -/
theorem refit_spec (a : Nat) (s : State) :
    (∀ b, follower a ≠ some b → (refit a s).shd b = s.shd b) ∧ (refit a s).rf.pend = s.rf.pend ∧
      (refit a s).rf.active = s.rf.active ∧ (refit a s).mem = s.mem ∧ (refit a s).lease = s.lease ∧ (refit a s).commit = s.commit := by
  unfold refit
  cases h : follower a with
  | none => exact ⟨fun _ _ => rfl, rfl, rfl, rfl, rfl, rfl⟩
  | some b =>
    simp only
    split
    · exact ⟨fun _ _ => rfl, rfl, rfl, rfl, rfl, rfl⟩
    · obtain ⟨m, x, e⟩ := State.guardActs_eq s (b / 0x1000) (judgeWord (checksOf s b (s.shd b)) false (s.shd b)).acts
      rw [e]
      refine ⟨fun c hc => ?_, rfl, rfl, rfl, rfl, rfl⟩
      exact (State.shd_wrShadow _ _ _ _).trans (if_neg (fun hh => hc (by rw [hh])))

/-- What storing a word in the shadow set leaves: the word, its follower in its limits, and every other register of every set, memory,
leases and epochs as they were. -/
theorem shadowStore_spec (p a : Nat) (w : Word) (r : Req) (s : State) :
    let u := (refit a (trigMark a (dirtyMark p (s.wrShadow a w)))).reply r .done
    u.shd a = w ∧ (∀ b, b ≠ a → follower a ≠ some b → u.shd b = s.shd b) ∧ u.rf.pend = s.rf.pend ∧
      u.rf.active = s.rf.active ∧ u.mem = s.mem ∧ u.lease = s.lease ∧ u.commit = s.commit := by
  obtain ⟨m, x, e⟩ := dirtyMark_eq p (s.wrShadow a w)
  obtain ⟨l, e2⟩ := trigMark_eq a (dirtyMark p (s.wrShadow a w))
  have h : ∀ b, (trigMark a (dirtyMark p (s.wrShadow a w))).shd b = if b = a then w else s.shd b := fun b => by
    rw [e2, e]; exact State.shd_wrShadow s a b w
  obtain ⟨k1, k2, k3, k4, k5, k6⟩ := refit_spec a (trigMark a (dirtyMark p (s.wrShadow a w)))
  have n : follower a ≠ some a := fun hh => Nat.lt_irrefl _ (follower_gt hh)
  have d2 : ∀ b, b ≠ a → follower a ≠ some b → (refit a (trigMark a (dirtyMark p (s.wrShadow a w)))).shd b = s.shd b :=
    fun b hb hf => ((k1 b hf).trans (h b)).trans (if_neg hb)
  have d1 := ((k1 a n).trans (h a)).trans (if_pos rfl)
  rw [e2, e] at k2 k3 k4 k5 k6
  cases r <;> exact ⟨d1, d2, by rw [e2, e]; exact k2, by rw [e2, e]; exact k3, by rw [e2, e]; exact k4, by rw [e2, e]; exact k5,
    by rw [e2, e]; exact k6⟩

/-- A write of a shadowed register that is no half of a pair: the word that its checks let pass is stored, or none. -/
theorem regWrite_shadowed {s : State} {r : Req} {p o : Nat} {v : Word} {d : RegDef} (h : s.reaches r p) (ho : 0x80 ≤ o) (ho' : o < 0x1000)
    (hd : findReg (p * 0x1000 + o) = some d) (hrws : d.isRws = true) (hp : d.pair = .single) :
    let x := p * 0x1000 + o
    let j := (s.arrive r p).judge x (d.merge ((s.arrive r p).shd x) v)
    running (regWrite r p o v) s = (match j.1 with
      | some w => refit x (trigMark x (dirtyMark p (j.2.wrShadow x w)))
      | none => j.2).reply r .done := by
  have hp' : d.pair ≠ .lo := by rw [hp]; decide
  have hp2 : d.pair ≠ .hi := by rw [hp]; decide
  intro x j
  rw [rwsWrite_reaches h ho ho' hd hrws hp']
  unfold rwsWrite
  have e : (s.arrive r p).judge (p * 0x1000 + o) (d.merge ((s.arrive r p).shd (p * 0x1000 + o)) v) = j := rfl
  simp only [e, hp2, if_false, page_of ho']
  cases j.1 <;> rfl

end Sys2Proof.Machine
end

