-- ==== Sys2Proof/Laws/Steps.lean ====
section
/-!
SUPPORT. What every command and every step has in common.
-/
namespace Sys2Proof.Machine

/-- Every command answers a settled next state with the queue it was given. -/
theorem exec_settles (c : Instr) (s : State) : ∃ t, exec c s = .next (finish s t) := by
  cases c <;> exact ⟨_, rfl⟩

/-- Settling leaves the queue. -/
@[simp] theorem finish_pending (s t : State) : (finish s t).pending = s.pending := by
  simp only [finish]

end Sys2Proof.Machine
end

