-- ==== Sys2Proof/WellFormed.lean ====
section
/-!
DEFINITION. Which commands are well formed: every operand within the range the manual gives it.
-/
namespace Sys2Proof

open Sys2Proof.Machine (blkOf)

/-- A page and offset of BAR0 (R27), on a word boundary. -/
def wfAddr (page off : Nat) : Bool := decide (page < 0x1000) && decide (off < 0x1000) && off % 4 == 0

/-- An assigned page (R29). -/
def wfPage (page : Nat) : Bool := (blkOf page).isSome

/-- A stream with a timeout. -/
def Stream.wf : Stream → Bool
  | .flow f => decide (f < 256)
  | .dmx n => decide (n < 16)
  | .genlock | .ltc => true

/-- A filtered pin. -/
def Pin.wf : Pin → Bool
  | .cap c => decide (c < 8)
  | .dmx n => decide (n < 16)
  | _ => true

/-- Whether a command is well formed. -/
def Instr.wf : Instr → Bool
  | .registerWrite _ p o v => wfAddr p o && wfPage p && (v.met == 0 || o == 0x010)
  | .registerRead _ p o | .rwsWrite _ p o _ => wfAddr p o && wfPage p
  | .pairLoRead _ p o | .pairLoWrite _ p o _ | .pairHiWrite _ p o _ | .rcCounterRead _ p o => wfAddr p o && wfPage p
  | .unmappedAccess _ p o _ => decide (p < 0x1000) && decide (o < 0x1000) && !wfPage p
  | .refusedAccessWidth _ p o _ => decide (o < 0x1000) && wfPage p
  | .pageRst _ p | .withdraw _ p | .withdrawTakesEffect p | .blockReturn _ p | .pageReturnToService p | .evtInjArm _ p _
  | .accessAbandon _ p _ | .blockClockRestart p | .pageSealAck p | .pageRstDone p | .stAbort _ p => wfPage p
  | .stReq _ p t => wfPage p && decide (t < 256)
  | .row _ p m | .column _ p m | .fuse _ p m => decide (p < 0x1000) && decide (m < 256)
  | .streamTimeout st => st.wf
  | .pinGlitch pin => pin.wf
  | .pllLockLost k | .pllLockRegained k => decide (k < 7)
  | .arm _ k | .slotCancel _ k _ | .pset _ k _ | .pclr _ k _ | .slotQuery _ k | .delayExpire k | .affinityWindowExpire k =>
    decide (k < 4096)
  | .jobComplete b => decide (b < 16)
  | .lsEccError b _ _ => decide (b < 16)
  | .layerDeadline i => decide (i < 16)
  | .portFrameReceive p _ | .pauseHoldEnd p | .xoffPauseRefresh p | .flowMatch p _ | .portFrameSent p | .linkUp p _ _
  | .linkDown p => decide (p < 71)
  | .verifyTimeout p | .renegTimeout p => decide (p < 64)
  | .videoPacket f _ | .hostPost _ f _ | .sacnDataPacket f _ | .sacnSyncPacket f _ | .sacnSourceExpire f _ _ | .levels f _ _
  | .flags f _ _ | .timecode f _ _ | .user f _ _ => decide (f < 256)
  | .resetFix _ x | .telLost x => decide (x < 262144)
  | .engineFrameStart e | .underrunPoint e | .engineLatchPoint e | .directBase _ e _ => decide (e < 8)
  | .scanWalkResume e j | .levelFrameFlush e j | .sendEnd e j => decide (e < 8) && decide (j < 8)
  | .delayReq l _ | .telemetry l _ | .hkFrame l _ => decide (l < 64)
  | .setStateChange i | .setHoldComplete i | .force _ i | .rearm _ i | .setsQuery _ i => decide (i < 4096)
  | .dataLoPop _ q | .dropPkt _ q | .flush _ q => decide (q < 16)
  | .dmxPacketStart n | .dmxInputPacketEnd n _ | .dmxPacketEnd n | .triggerPulse n | .triggerPulseEnd n => decide (n < 16)
  | .ptpAnnounce d _ | .ptpSync d _ | .ptpFollowUp d _ | .ptpDelayResp d _ | .ptpDelayReqSend d | .ptpDomainLost d => decide (d < 2)
  | .captureEdge c _ | .capturePop _ c | .riseHoldExpire c => decide (c < 8)
  | .hello pl _ | .head pl _ | .recMsg pl _ _ | .ack pl _ | .takeMessage pl _ | .takeOk pl _ => decide (pl < 2)
  | .sensorSample x => decide (x.sensor < 24)
  | .restore _ n => decide (n < 24)
  | .calLane _ l | .eyeMeasure l _ _ => decide (l < 70)
  | .jackReloadDone c => decide (c < 8)
  | .freezeClockStop d _ _ => decide (d < 9)
  | .msixVectorUnmask v => decide (v < 64)
  | .bar2Write o d => decide (o + d.length ≤ 2 ^ 28)
  | .bar2Read o n => decide (o + n ≤ 2 ^ 28)
  | .gafferMemoryAccess a n d => decide (a + n ≤ 2 ^ 35) && (match d with | some l => l.length == n | none => true)
  | .vecEoi .. | .commit .. | .revert .. | .snapReq .. | .snapshotCapture | .epochApply | .warmReset .. | .frameBoundary
  | .freqSel .. | .freqGateEnd .. | .refclkAbsent | .mapsBuild .. | .mapBuildEnd | .mapSet .. | .define .. | .free .. | .cancel ..
  | .query .. | .freeDonePop .. | .gset .. | .gclr .. | .schedHeldWritesApply | .consoleFlagsApply | .marverBaseWriterDone
  | .marverPassStart | .marverPassEnd | .solverFrameDone | .loopGainChangeover | .loopReportJudge | .resetAll .. | .resetAllDone
  | .tuiperSyncSend | .txEnum .. | .txSet .. | .txRequestBegun | .faultQPop .. | .transQPop .. | .rdmSend .. | .rdmResponseEnd ..
  | .rdmResponseTimeout | .timeCapture .. | .ptpRevert | .tsqPop .. | .genlockEdge | .genlockFlywheel | .ltcFrame .. | .ltcFlywheel
  | .helloSend | .peerLost | .seekTimeout | .headMiss | .recMiss | .recordApply | .takeover | .take .. | .yieldCmd .. | .rejoin ..
  | .clearFailover .. | .takeback | .clockGlideStep | .ackFail .. | .calSensors .. | .calTimebase .. | .calComplete ..
  | .calResultsApply | .powerOnReset | .rstN .. | .supplyFall | .resetRelease | .bootRomRun | .ready | .ping .. | .info ..
  | .imageBegin .. | .imageData .. | .imageBuf .. | .imageEnd .. | .imageVerifyDone | .update .. | .revertUpdate .. | .confirm ..
  | .setSave .. | .setSaveDone | .setRead .. | .jackReload .. | .reboot .. | .mgDrop | .updateLoadDone | .updateMigrationDone ..
  | .updateHandover | .updateConfirmed | .updateReversed | .watchdogExpire | .keepSecond | .keepSecWrite .. | .tamper | .log0Pop ..
  | .pcieLinkChange .. | .pcieError .. | .flr | .sliceStart | .sliceEnd .. | .sliceBudgetExpire .. | .advance .. | .revoke ..
  | .secBump .. | .fuseDone .. | .debugFreeze .. | .frzN | .freezeOvertemp | .extest .. | .samplePreload .. | .idcode | .dumpSel ..
  | .dumpScan | .tapFreeze | .bypass .. | .fixtureFrameAccept .. | .fixtureApply .. | .fixtureLossDark | .fixtureSync ..
  | .fixtureDelayReqSend | .fixtureTelemetrySend | .discover .. | .fixtureReplySend | .mute .. | .unmute .. | .setWrite ..
  | .setReadParam .. | .keeperLost | .fixtureDelayResp .. | .fixturePowerUp | .rdmRequestEnd | .probationFailure => true

end Sys2Proof
end

