-- ==== Sys2Proof/Tests/Slice0.lean ====
section
/-!
SUPPORT. Tests: an ill-formed command for each check of WellFormed, results that the manual works out, and for each statement with hypotheses
states and operands that meet them.
-/
namespace Sys2Proof.Tests

open Sys2Proof.Machine

/-! ### Helpers -/

/-- Put a field of a register. -/
def pl (a : Nat) (f : Fld) (v : Nat) (s : State) : State := s.put a f v

/-- Put a field of a shadowed register in every set. -/
def pa (a : Nat) (f : Fld) (v : Nat) (s : State) : State := s.wrActive a (fput (s.act a) f v)

/-- Right after reset. -/
def s0 : State := State.reset

/-- Firmware runs (R409). -/
def ready : State := pl A.GAFFER_BOOT_STAT F.GAFFER_BOOT_STAT_STAGE 2 s0

/-- A boundary has passed. -/
def framed : State := { s0 with time := { s0.time with bnds := 3 } }

/-! ### The whole machine -/

theorem witness_empty_queue : s0.pending = [] ∧ s0.runs ∧
    (let t : State := { s0 with power := { s0.power with mode := .held } }; t.pending = [] ∧ ¬ t.runs) := by decide

theorem witness_stopped : (Instr.frameBoundary).ungated = false ∧ ¬ ({ s0 with power := { s0.power with mode := .held } } : State).runs := by decide

/-- A device frozen, with no supply or reset pin active. -/
def frozen : State := { s0 with power := { s0.power with mode := .frozen } }

theorem witness_freeze : frozen.power.mode = .frozen ∧ frozen.power.por = false ∧ frozen.power.rstLow = false ∧
    (Instr.resetRelease) ≠ .rstN true ∧ (Instr.resetRelease) ≠ .powerOnReset ∧ (Instr.resetRelease) ≠ .supplyFall := by decide

/-! ### Pages and registers -/

theorem witness_unassigned : s0.runs ∧ blkOf 0x200 = none ∧ blkOf 0xFFF = none ∧ blkOf 0x1FF = none := by decide

theorem witness_refused : s0.runs ∧ blkOf P.SYS ≠ none ∧ s0.reaches .host P.SYS ∧ s0.reaches .gaffer P.DEBUG ∧
    findReg (P.SYS * 0x1000 + 0x080) = findReg A.SYS_PART_ID ∧ (findReg A.SYS_PART_ID).map (·.readOnly) = some true := by decide

/-- SYNC.PHASE and LTC_TIMEOUT, shadowed registers. -/
def phaseReg : RegDef := ⟨0x088, 0, 1, .single, [⟨31, 0, .rws, 0⟩]⟩
def ltcTimeoutReg : RegDef := ⟨0x104, 0, 1, .single, [⟨17, 16, .rws, 0⟩, ⟨15, 0, .rws, 2500⟩]⟩

theorem witness_shadowed : s0.obeys .host P.SYNC ∧ findReg A.SYNC_PHASE = some phaseReg ∧ phaseReg.isRws = true ∧
    judgeWord (checksOf s0 A.SYNC_PHASE 5) false 5 = ⟨some 5, []⟩ ∧ findReg A.SYNC_LTC_TIMEOUT = some ltcTimeoutReg ∧
    ltcTimeoutReg.isRws = true ∧ (judgeWord (checksOf s0 A.SYNC_LTC_TIMEOUT 0) false 0).val = none := by decide

/-- TRIG.START_SEC of trigger 0, a shadowed pair. -/
def startHiReg : Option RegDef := findReg (A.TRIG_START_SEC_LO 0 + 4)

theorem witness_pair : s0.obeys .host P.TRIG ∧ (findReg (A.TRIG_START_SEC_LO 0)).map (fun d => (d.readOnly, d.pair)) = some (false, .lo) ∧
    startHiReg.map (fun d => (d.isRws, d.pair)) = some (true, .hi) ∧
    (∀ d ∈ startHiReg, let w := d.merge (s0.shd (A.TRIG_START_SEC_LO 0 + 4)) 7
      judgeWord (checksOf s0 (A.TRIG_START_SEC_LO 0 + 4) w) false w = ⟨some w, []⟩) := by decide

theorem witness_read : s0.reaches .host P.SYS ∧ s0.reaches .host (P.PORT 0) ∧ takeReg .host A.SYS_PART_ID s0 = none ∧ s0.viewOf .host P.SYS ≠ 2 ∧
    (findReg A.SYS_PART_ID).map (·.pair) = some .single ∧ (findReg (A.PORT_RX_FRAMES_LO 0)).map (·.pair) = some .lo ∧
    (findReg (A.PORT_RX_FRAMES_LO 0 + 4)).map (·.pair) = some .hi ∧ takeReg .host (A.PORT_RX_FRAMES_LO 0) s0 = none ∧
    A.PORT_RX_FRAMES_LO 0 ≠ A.LEHR_THR_MS_LO := by decide

/-- The mailbox's settings, not shadowed: port 0 is rejected. -/
def mbxCfgReg : Option RegDef := findReg A.GAFFER_MBX_CFG

set_option maxRecDepth 20000 in
theorem witness_write : s0.reaches .host P.GAFFER ∧ mbxCfgReg.map (fun d => (d.readOnly, d.isRws, d.pair)) = some (false, false, .single) ∧
    actWrite .host A.GAFFER_MBX_CFG 0x100 (s0.arrive .host P.GAFFER) = none ∧
    ((s0.arrive .host P.GAFFER).judge A.GAFFER_MBX_CFG (fput 0 F.GAFFER_MBX_CFG_PORT 5)).1 = some (fput 0 F.GAFFER_MBX_CFG_PORT 5) ∧
    ((s0.arrive .host P.GAFFER).judge A.GAFFER_MBX_CFG 0).1 = none ∧ s0.reaches .host P.CLK ∧
    (findReg A.CLK_FREQ_SEL).map (fun d => (d.readOnly, d.isRws, d.pair)) = some (false, false, .single) ∧
    (actWrite .host A.CLK_FREQ_SEL 7 (s0.arrive .host P.CLK)).isSome = true := by decide

/-- The header: bit 1 of EVT_STAT is not cleared, or the page's event 1 has no rule of its own. -/
theorem witness_header_write : s0.runs ∧ blkOf P.SYS ≠ none ∧ blkOf P.MEM = some .mem ∧ blkOf P.SYS ≠ some .mem ∧ blkOf P.SYS ≠ some .bench ∧
    bitOf (1 : Word) 1 = false := by decide

/-! ### Page shell, crossings, epochs and interrupts -/

/-- Life-cycle states, and injections enabled. -/
def inLife (k : Nat) : State := pl A.LIFE_STATE F.LIFE_STATE_STATE k s0
def injecting : State := pl A.DEBUG_INJ_CTRL F.DEBUG_INJ_CTRL_EN 1 s0

theorem witness_header : injecting.get A.DEBUG_INJ_CTRL F.DEBUG_INJ_CTRL_EN = 1 ∧ s0.get A.DEBUG_INJ_CTRL F.DEBUG_INJ_CTRL_EN = 0 ∧
    (inLife 1).runs ∧ (inLife 1).sliceAllowed P.DMX = true ∧ (inLife 0).sliceAllowed P.DMX = false ∧
    ({ s0 with dbg := { s0.dbg with slice := some ⟨0, P.DMX, 0, false, false⟩ } } : State).dbg.slice = some ⟨0, P.DMX, 0, false, false⟩ := by decide

/-- A test that the block has: how many sections a block has is the implementation's (log entry 1). -/
theorem witness_section (h : Config.gloryInfo P.DMX = 0x10100) : testOk P.DMX 64 = true ∧ 0 < memCount P.DMX := by
  simp [testOk, logicCount, memCount, h]

/-- Bench 0 out of service, and waiting to be. -/
def benchOff : State := pl (H.PAGE_STAT (P.BENCH 0)) ⟨29, 29⟩ 1 s0
def leaving (p : Nat) (s : State) : State := { s with commit := { s.commit with withdrawing := [p] } }
def returning (p : Nat) (s : State) : State := { s with commit := { s.commit with returning := [p], returnDue := [p] } }

theorem witness_withdraw : s0.runs ∧ blkOf (P.Q 0) = some .q ∧ blkOf P.DMX = some .dmx ∧ s0.offline (P.Q 0) = false ∧
    (s0.bank (H.PAGE_CTRL (P.Q 0)) 0 .host).toNat < 3 ∧ s0.injArmed (P.Q 0) 31 = false ∧ s0.offline (P.BENCH 15) = false ∧
    (s0.bench 15).job = none ∧ benchOff.dbg.slice = none ∧ benchOff.offline (P.BENCH 0) = true := by decide

theorem witness_leave_return : (leaving (P.BENCH 0) s0).commit.withdrawing.contains (P.BENCH 0) = true ∧
    ((leaving (P.BENCH 0) s0).bench 0).job = none ∧ (leaving (P.SCAN 7) s0).commit.withdrawing.contains (P.SCAN 7) = true ∧
    (leaving (P.SCAN 7) s0).carriageOver 7 = true ∧ (returning (P.BENCH 0) benchOff).commit.returnDue.contains (P.BENCH 0) = true ∧
    (returning (P.BENCH 0) benchOff).commit.stopped.contains (P.BENCH 0) = false ∧
    (returning (P.BENCH 0) benchOff).laneWaits (P.BENCH 0) = false ∧ bitOf (benchOff.rd (H.PAGE_STAT (P.BENCH 0))) 25 = false ∧
    bitOf ((pl (H.PAGE_STAT (P.BENCH 0)) ⟨25, 25⟩ 1 benchOff).rd (H.PAGE_STAT (P.BENCH 0))) 25 = true ∧
    bitOf ((pl (H.PAGE_CTRL P.DMX) ⟨31, 31⟩ 1 s0).rd (H.PAGE_CTRL P.DMX)) 31 = true ∧
    bitOf ((pl (H.PAGE_CTRL P.DMX) ⟨30, 30⟩ 1 s0).rd (H.PAGE_CTRL P.DMX)) 30 = true := by decide

/-- A page whose crossing has stopped, and an access that waits there. -/
def stopped : State := { s0 with commit := { s0.commit with stopped := [P.DMX] } }
def waitingAt : State := { s0 with commit := { s0.commit with waiting := [⟨.host, P.DMX, 0x80, false, 0⟩] } }

theorem witness_abandon : s0.commit.stalled.contains P.DMX = false ∧ bitOf (s0.rd (H.PAGE_STAT P.DMX)) 28 = false ∧
    (s0.commit.waiting.filter fun y => y.page == P.DMX) = [] ∧ (waitingAt.commit.waiting.filter fun y => y.page == P.DMX) ≠ [] ∧
    stopped.commit.stopped.contains P.DMX = true ∧ ({ s0 with msix := { s0.msix with level := 1 } } : State).msix.level.getLsbD 0 = true ∧
    ({ s0 with msix := { s0.msix with level := 1 } } : State).reaches .host P.SYS ∧ s0.msix.level.getLsbD 63 = false ∧
    ({ s0 with msix := { s0.msix with held := 1 } } : State).msix.held.getLsbD 0 = true := by decide

/-- An epoch waits for its boundary, or for the pages. -/
def epochSealed : State := { s0 with commit := { s0.commit with sealing := true, acksLeft := [P.SYS, P.CLK], pendEpoch := 1 } }
def epochDue : State := { framed with commit := { framed.commit with waitFrame := some framed.frameNum, pendEpoch := 1 } }
/-- A snapshot that its boundary made due. -/
def snapDue : State := { framed with commit := { framed.commit with snapDue := true } }

theorem witness_commit : s0.reaches .host P.SYS ∧ s0.stage ≠ 2 ∧ ready.reaches .host P.SYS ∧ ready.stage = 2 ∧ ready.epochWaits = false ∧
    epochSealed.epochWaits = true ∧ s0.rd A.SYS_EPOCH_APPLIED + 1 = 1 ∧ epochSealed.commit.acksLeft.contains P.CLK = true ∧
    epochSealed.commit.acksLeft.filter (· != P.CLK) ≠ [] ∧ epochSealed.sealWaits P.CLK = false ∧ s0.commit.sealing = false := by decide

theorem witness_epoch : epochDue.runs ∧ epochDue.time.bnds ≠ 0 ∧ epochDue.commit.waitFrame = some epochDue.frameNum ∧
    epochDue.commit.snapDue = false ∧ snapDue.runs ∧ snapDue.commit.snapDue = true ∧
    s0.reaches .host P.SYS ∧ bitOf (s0.rd A.SYS_SNAP) 1 = false ∧ s0.get A.SYS_SNAP F.SYS_SNAP_REQ = 0 := by decide

/-! ### Resets, clocks and boundaries -/

/-- The device held in reset, with and without RST_N low. -/
def held (low : Bool) : State := { s0 with power := { s0.power with mode := .held, rstLow := low } }
def burning : State := { s0 with dbg := { s0.dbg with fuse := some .secBump } }

theorem witness_reset : s0.obeys .gaffer P.SYS ∧ fget 0x5A3C0001 F.SYS_RESET_KEY = 0x5A3C ∧ fget 0x5A3C0001 F.SYS_RESET_WARM = 1 ∧
    fget 0 F.SYS_RESET_KEY ≠ 0x5A3C ∧ s0.power.por = false ∧ s0.dbg.fuse = none ∧ s0.injArmed P.SYS 31 = false ∧
    frozen.power.mode = .frozen ∧ frozen.dbg.fuse = none ∧ burning.dbg.fuse ≠ none ∧ burning.runs ∧ (held false).power.mode = .held ∧
    (held false).power.por = false ∧ (held false).power.rstLow = false ∧ (held true).power.rstLow = true ∧
    ({ s0 with power := { s0.power with por := true } } : State).power.por = true := by decide

/-- Flow 0 of type CONSOLE with its timeout elapsed; DMX port 0 an input. -/
def ingestOn : State := pa A.INGEST_CTRL F.INGEST_CTRL_EN 1 s0
def flowOf (ty : Nat) : State := pa (A.FLOW_CFG 0) F.FLOW_CFG_TYPE ty ingestOn
def dmxIn : State := pa (A.DMX_CFG 0) F.DMX_CFG_DIR 1 (pa (A.DMX_CFG 0) F.DMX_CFG_EN 1 s0)
def later (s : State) : State := { s with time := { s.time with t := 10 ^ 11 * 2 ^ 32 } }

/-- Timeouts of every stream that a boundary left due. -/
def timedOut : State := { s0 with time := { s0.time with due := [.flow 0, .dmx 0, .genlock, .ltc] } }

theorem witness_boundary : s0.runs ∧ (later (flowOf 3)).flowsLive.contains 0 = true ∧ (later (flowOf 3)).flowType 0 = 3 ∧
    (later (flowOf 3)).flowElapsed 0 = true ∧ timedOut.runs ∧ timedOut.time.due.contains (.flow 0) = true ∧
    timedOut.time.due.contains (.dmx 0) = true ∧ timedOut.time.due.contains .genlock = true ∧ timedOut.time.due.contains .ltc = true ∧
    s0.time.due.contains (.flow 0) = false := by decide

/-- Every PLL has locked, and REFCLK is in use. -/
def locked : State := let t := pl A.CLK_PLL_STAT F.CLK_PLL_STAT_LOCKED 0x7F s0
  { t with power := { t.power with pllOnce := true } }
def refUsed : State := pl A.CAL_REF_STAT F.CAL_REF_STAT_IN_USE 1 s0

theorem witness_clocks : s0.obeys .host P.CLK ∧ judgeWord (clkChecks 0x084 0x00000001) false 0x00000001 = ⟨some 0x00000001, []⟩ ∧
    s0.freqDown = false ∧ (pl A.CLK_FREQ_SEL F.CLK_FREQ_SEL_DOMAIN 7 s0).freqDown = true ∧ locked.power.pllOnce = true ∧
    bitOf (locked.rd A.CLK_PLL_STAT) 6 = true ∧ refUsed.get A.CAL_REF_STAT F.CAL_REF_STAT_IN_USE = 1 := by decide

/-! ### The Gaffer, the keeper and the endpoint -/

/-- MG0 serves mailbox datagrams. -/
theorem witness_mailbox : ready.mbxOpen .host 0 ∧ ready.mayWrite .host = true ∧ ready.stage = 2 ∧ ready.phase = 0 ∧
    ready.gaffer.saving = none ∧ ready.jackBusy 7 = false := by
  refine ⟨⟨by decide, by decide, by decide, by decide, by decide, by decide, by decide⟩, by decide⟩

theorem witness_start : locked.gaffer.started = false ∧ locked.stage = 0 ∧ locked.get A.CLK_PLL_STAT F.CLK_PLL_STAT_LOCKED = 0x7F ∧
    (pl A.GAFFER_BOOT_STAT F.GAFFER_BOOT_STAT_STAGE 1 s0).stage = 1 ∧ s0.get A.CAL_STAT F.CAL_STAT_BUSY ≠ 1 := by decide

/-- A request in service, a save, a core that reloads, and a datagram at MG0. -/
def asked (c : Nat) : State := { ready with gaffer := { ready.gaffer with mbxQ := [⟨.host, c, 0, []⟩], mbxBusy := true } }
def mgOn : State := pa (A.PORT_MAC_CTRL 70) F.PORT_MAC_CTRL_EN 1 ready

theorem witness_work : (asked 0x13).serving 0x13 = true ∧ (asked 0x13).stage = 2 ∧ (asked 0x30).serving 0x30 = true ∧
    ready.serving 0x30 = false ∧ ({ ready with gaffer := { ready.gaffer with saving := some [] } } : State).gaffer.saving = some [] ∧
    (pl A.GAFFER_JACK_STAT ⟨8, 8⟩ 1 ready).jackBusy 0 = true ∧ mgOn.portOn 70 = true ∧
    mgOn.get A.GAFFER_MBX_CFG F.GAFFER_MBX_CFG_MG_EN = 0 := by decide

/-- The phases of a live update. -/
def updating (k : Nat) : State := pl A.GAFFER_UPD_STAT F.GAFFER_UPD_STAT_PHASE k ready

theorem witness_update : (updating 1).phase = 1 ∧ (updating 2).phase = 2 ∧ (updating 2).gaffer.handoverAt = none ∧
    (updating 3).phase = 3 ∧ (updating 4).phase = 4 ∧ (updating 4).gaffer.reversal = none ∧
    (updating 4).get A.GAFFER_UPD_STAT F.GAFFER_UPD_STAT_PROB_LEFT = 0 ∧
    (let s : State := { updating 4 with time := { (updating 4).time with bnds := 2 }, gaffer := { (updating 4).gaffer with reversal := some 1 } }
     s.phase = 4 ∧ s.gaffer.reversal = some 1 ∧ 1 < s.time.bnds) := by decide

theorem witness_keeper : s0.reaches .host P.KEEP ∧ s0.viewOf .host P.KEEP ≠ 2 ∧
    (pl A.KEEP_TAMPER_CFG F.KEEP_TAMPER_CFG_EN 1 s0).get A.KEEP_TAMPER_CFG F.KEEP_TAMPER_CFG_EN = 1 ∧
    ({ s0 with keepLog := [⟨1, 5, 7⟩] } : State).keepLog = ⟨1, 5, 7⟩ :: [] ∧
    ({ s0 with power := { s0.power with por := true } } : State).power.por = true ∧ s0.runs := by decide

/-- The header of an image of one byte in ACTIVE, signed with key slot 1. -/
def headerByte (k : Nat) : Nat := [0x4D, 0x49, 0x46, 0x4B, 1, 0, 0, 0, 0, 0, 0, 0, 0, 0, 0, 0, 1].getD k 0
def imaged : State := { s0 with gaffer := { s0.gaffer with flash := (List.range 52).map fun k => (slotAt 0 + k, BitVec.ofNat 8 (headerByte k)) } }

/-- Whether a signature verifies is the implementation's (log entry 19); the header passes every other check. -/
theorem witness_image (h : ∀ b, Config.sigOk b = true) : imaged.imageValid 0 = true ∧ s0.imageValid 0 = false ∧ s0.imageValid 2 = false := by
  refine ⟨?_, by rfl, by rfl⟩
  simp only [State.imageValid, h, Bool.and_true]
  decide +kernel

/-! ### Buffers, maps and device memory -/

/-- Buffer `id` defined, with what holds it. -/
def withBuf (id : Nat) (fill pend : Bool) (holds : List (HoldTag × Nat)) (s : State) : State :=
  { s with lease := { s.lease with bufs := [⟨id, 12288, 1, fill, pend⟩], holds := holds } }
def defining : State := (s0.setBank A.LEASE_BUF_BASE 0 .host 12288).setBank A.LEASE_BUF_SIZE 0 .host 1

theorem witness_define : defining.obeys .host P.LEASE ∧
    (let a := defining.arrive .host P.LEASE
     let id := (a.bank A.LEASE_BUF_SEL 0 .host).toNat % 0x1000
     let base := fget (a.bank A.LEASE_BUF_BASE 0 .host) ⟨18, 0⟩
     let size := fget (a.bank A.LEASE_BUF_SIZE 0 .host) ⟨18, 0⟩
     a.buf id = none ∧ size ≠ 0 ∧ 12288 ≤ base ∧ base + size ≤ 0x80000 ∧ a.overlap id base size = none) := by decide

theorem witness_free : ∀ t ∈ [withBuf 0 false false [] s0, withBuf 0 false false [(.build, 0)] s0, withBuf 0 false true [(.build, 0)] s0],
    t.obeys .host P.LEASE := by decide

theorem witness_free_states : (∀ b ∈ (withBuf 0 false false [] s0).buf 0, (withBuf 0 false false [] s0).leased b = false) ∧
    (∀ b ∈ (withBuf 0 false false [(.build, 0)] s0).buf 0, b.freePending = false ∧ (withBuf 0 false false [(.build, 0)] s0).leased b = true) ∧
    (∀ b ∈ (withBuf 0 false true [(.build, 0)] s0).buf 0, b.freePending = true ∧ (withBuf 0 false true [(.build, 0)] s0).leased b = true) ∧
    (withBuf 0 false false [] s0).buf 0 ≠ none ∧ s0.buf 0 = none ∧
    (let t : State := { s0 with lease := { s0.lease with done := [7] } }; t.viewOf .host P.LEASE ≠ 2 ∧ t.lease.done = 7 :: []) := by decide

/-- BAR2 shows an IDLE buffer, so that no rule blocks the host; at reset it shows the Gaffer's memory. -/
def shown : State := (withBuf 0 false false [] s0).wr A.HOST_BAR2_BASE_LO 0x30000000

theorem witness_memory : shown.runs ∧ (hostTlp shown).firstBlocked .host true ((hostTlp shown).bar2 0) 4 = none ∧
    (hostTlp shown).firstBlocked .host false ((hostTlp shown).bar2 0) 4 = none ∧ s0.firstBlocked .gaffer true 0 4 = none ∧
    s0.firstBlocked .gaffer false 0 4 = none ∧ (hostTlp shown).injArmed P.MEM 0 = false ∧ (hostTlp shown).injArmed P.MEM 1 = false ∧
    (∀ i, i < 4 → (hostTlp s0).blocked .host true (((hostTlp s0).bar2 0 + i) / 64 * 64) = true) ∧
    (hostTlp s0).firstBlocked .host false ((hostTlp s0).bar2 0) 4 = some 0 ∧
    s0.firstBlocked .gaffer false 0x30000000 4 = some 0x30000000 := by
  decide

/-- The map buffers of a build: cell map 1, fixture map 2. -/
def built (cellBlocks : Nat) : State := { s0 with lease := { s0.lease with
  bufs := [⟨1, 12288, cellBlocks, false, false⟩, ⟨2, 32768, 64, false, false⟩] } }
def building (cellBlocks : Nat) : State := { built cellBlocks with lease := { (built cellBlocks).lease with build := some ⟨2, 1, 0, 0, 0, 0, 0, none⟩ } }

theorem witness_build : (built 1024).obeys .host P.MAPS ∧ bitOf 0x80020001 31 = true ∧ (built 1024).lease.build = none ∧
    fget 0x80020001 ⟨27, 16⟩ = 2 ∧ fget 0x80020001 ⟨11, 0⟩ = 1 ∧ (built 1024).bufState 2 ≠ 0 ∧ (built 1024).bufState 2 ≠ 3 ∧ (built 1024).bufState 1 = 1 ∧
    0x400000 ≤ (built 1024).bufSize 2 ∧ (building 1).lease.build ≠ none ∧ (building 1).bufSize 1 < 0x4000000 ∧
    0x4000000 ≤ (building 1024).bufSize 1 := by decide

/-- MAP_SET of the pair of null buffers, and of a pair that no build has stamped. -/
theorem witness_map_set : s0.obeys .host P.MAPS ∧ s0.mapSetOk 0x0FFF0FFF = true ∧ (built 1024).mapSetOk 0x00020001 = false ∧
    judgeWord (checksOf s0 A.MAPS_MAP_SET 0x0FFF0FFF) false 0x0FFF0FFF = ⟨some 0x0FFF0FFF, []⟩ := by decide

/-! ### Render jobs -/

/-- A descriptor table in buffer 3 whose slot 0 holds a GENERATE job that may wait `delay` frames; slot 0 in a state. -/
def table (delay : Byte) (st : SlotSt) : State :=
  let s : State := { pa A.SCHED_CTRL F.SCHED_CTRL_EN 1 (pa A.SCHED_DESC_BUF ⟨11, 0⟩ 3 s0) with
    lease := { s0.lease with bufs := [⟨3, 12288, 4, false, false⟩] }
    mem := (0x30000003, (0x20 : Byte)) :: (if delay = 0 then [] else [(0x30000010, delay)]) }
  s.setSlot 0 { s.slot 0 with st := st }
def holdingOn (s : State) : State := { s with sched := { s.sched with holding := true } }
/-- A bench with a job of slot 0 on layer 0. -/
def running (rep : Bool) : State :=
  (table 0 .run).setBench 2 ⟨some ⟨0, [if rep then 0x22000000 else 0x20000000], 0, 0, 0, []⟩, []⟩

theorem witness_slots : ∀ t ∈ [table 0 .idle, table 5 .done, table 0 .wait, running false, holdingOn s0], t.obeys .host P.SCHED := by decide

theorem witness_slot_states : (table 0 .idle).slotEmpty 0 = false ∧ dDelay ((table 0 .idle).desc 0) = 0 ∧
    (table 5 .done).slotEmpty 0 = false ∧ dDelay ((table 5 .done).desc 0) ≠ 0 ∧ (table 0 .wait).slotEmpty 0 = false ∧
    (table 0 .idle).benchOf 0 = none ∧ (running false).benchOf 0 = some 2 ∧ (holdingOn s0).sched.holding = true ∧
    s0.sched.holding = false := by decide

/-- What a CANCEL meets in its cycle, in slots that start or end a job there. -/
theorem witness_meets : (table 0 .idle).reaches .host P.SCHED ∧ (table 0 .idle).mustWait P.SCHED = false ∧
    bitOf ((table 0 .idle).rd (H.PAGE_STAT P.SCHED)) 28 = false ∧ (table 0 .idle).injArmed P.SCHED 30 = false ∧
    (table 0 .idle).injArmed P.SCHED 31 = false ∧ (table 0 .idle).injArmed P.HOST 1 = false ∧ ((table 0 .idle).slot 0).st = .idle ∧
    (table 0 .wait).schedEn = true ∧ ((table 0 .wait).slot 0).st = .wait ∧
    ((table 0 .wait).setSlot 0 { (table 0 .wait).slot 0 with pflags := ((table 0 .wait).slot 0).pflags ||| 1 }).waitHolds 0 = true ∧
    ((table 0 .wait).changeFlags 0 1).waitHolds 0 = true := by decide

/-- A bench whose job arms slot 0 when it completes. -/
def arming : State := (table 0 .idle).setBench 2 ⟨some ⟨1, [0x20000000, 0, 0, 0, 0, 0x000C0000], 0, 0, 0, []⟩, []⟩

set_option maxRecDepth 40000 in
theorem witness_meets_others : (∃ j, (arming.bench 2).job = some j ∧ dKind j.desc ≠ 2) ∧ arming.benchOf 0 ≠ some 2 ∧
    ((jobEnds 2 arming).slot 0).st ≠ (arming.slot 0).st ∧ (table 0 .idle).benchOf 0 = none ∧
    (∃ j, ((running false).bench 2).job = some j ∧ dKind j.desc ≠ 2) := by
  refine ⟨⟨_, rfl, ?_⟩, ?_, ?_, ?_, ⟨_, rfl, ?_⟩⟩ <;> decide

theorem witness_flags : ∀ t ∈ [s0, holdingOn s0], t.reaches .host P.SCHED ∧
    (let b := ((t.arrive .host P.SCHED).setBank (holdAt P.SCHED) 1 .host ((5 : Cell).extractLsb' 0 32)).reply .host .done
     b.reaches .host P.SCHED ∧ (b.arrive .host P.SCHED).bank (holdAt P.SCHED) 1 .host = (5 : Cell).extractLsb' 0 32) := by decide

/-- A slot that waits 3 ticks of 100 µs, and a layer that is open. -/
def delayed : State := let s := table 0 .delay
  { s with sched := { s.sched with delays := [⟨0, 3, true⟩] } }
def delayOver : State := { delayed with time := { delayed.time with t := 10 ^ 9 * 2 ^ 32 } }
def openLayer : State := s0.setLayer 4 ⟨true, false, false, true⟩
/-- A job in AFFINITY since time 0, whose window is still open or has passed. -/
def inAffinity (t : Nat) : State := let s := { table 0 .ready with time := { s0.time with t := t * 2 ^ 32 } }
  { s with sched := { s.sched with affinity := [⟨0, 2, t, false⟩] } }

set_option maxRecDepth 40000 in
/-- A tick delay that has run out by the time of the CANCEL. -/
theorem witness_meets_delay : delayOver.delayDue 0 = some 300000 ∧ (reach 300000 delayOver).schedEn = true ∧
    ((reach 300000 delayOver).sched.delays.any fun e => e.slot == 0 && e.tick) = true ∧ (reach 300000 delayOver).waitHolds 0 = true ∧
    (delayDueOp 0 delayOver).slot 0 ≠ delayOver.slot 0 := by decide

set_option maxRecDepth 20000 in
theorem witness_jobs : delayed.runs ∧ delayed.schedEn = true ∧ delayed.delayDue 0 = some 300000 ∧
    ((countTicks (reach 300000 delayOver)).sched.delays.any fun e => e.slot == 0 && e.tick && e.left == 0) = true ∧
    ((inAffinity 1000).sched.affinity.find? fun e => e.slot == 0) = some ⟨0, 2, 1000, false⟩ ∧
    (later openLayer).closeDue ≤ (reach (later openLayer).closeDue (later openLayer)).nowNs ∧ ((later openLayer).layerSt 4).isOpen = true ∧
    (∃ j, ((running false).bench 2).job = some j ∧ dKind j.desc ≠ 2 ∧ dLayer j.desc = 0 ∧ dVideoClip j.desc = false ∧ dRepeat j.desc = false) ∧
    (∃ j, ((running true).bench 2).job = some j ∧ dRepeat j.desc = true) ∧ (running false).sliceOn P.SAMPLER = false ∧
    (openLayer.layerSt 4).isOpen = true ∧ (s0.bench 2).job = none := by
  refine ⟨?_, ?_, ?_, ?_, ?_, ?_, ?_, ⟨_, rfl, ?_⟩, ⟨_, rfl, ?_⟩, ?_⟩ <;> decide

/-- The next boundary comes before the delay, the window or the deadline has run out. -/
theorem witness_boundary_first : (let t := countTicks (reach 10000000000 delayed)
      (t.sched.delays.any fun e => e.slot == 0 && e.tick && e.left == 0) = false) ∧
    (reach 10000000000 s0).nowNs < 10000000000 := by decide +kernel

/-! ### Ingest, composition and colour -/

/-- Flow 0 of type VIDEO with three slots, and with a frame of RTP timestamp 9 in progress. -/
def video (fill : Bool) : State :=
  let s : State := pl (A.FLOW_SLOTS_USED 0) ⟨2, 0⟩ 3 (flowOf 1)
  if fill then s.setFlow 0 { s.flow 0 with fill := some ⟨some 0, 9, [], false, [], [], false, (none, none), 0⟩ } else s

theorem witness_video : (video true).runs ∧ (video true).ingestEn = true ∧ (video true).flowType 0 = 1 ∧
    (video true).flowsServed.contains 0 = true ∧ 2 ≤ (video true).slotsUsed 0 ∧
    ((video true).flow 0).fill = some ⟨some 0, 9, [], false, [], [], false, (none, none), 0⟩ ∧ ((video false).flow 0).fill = none ∧
    ((video false).flow 0).lastSeq = none := by decide

/-- Flow 0 of type HOST, 16 by 16 pixels, with buffer 1 as its first. -/
def hostFlow : State := { pa (A.FLOW_HOST_BUF0 0) ⟨11, 0⟩ 1 (pa (A.FLOW_VSIZE 0) ⟨28, 16⟩ 16 (pa (A.FLOW_VSIZE 0) ⟨12, 0⟩ 16 (flowOf 4))) with
  lease := { s0.lease with bufs := [⟨1, 12288, 4, false, false⟩] } }

theorem witness_post : hostFlow.obeys .host (P.FLOW 0) ∧ (let a := hostFlow.arrive .host (P.FLOW 0)
    a.ingestEn = true ∧ a.flowType 0 = 4 ∧ a.flowsServed.contains 0 = true ∧ a.hostBuf 0 0 ≠ nullBuf ∧
    (a.flowPlanes 0).size ≤ a.bufSize (a.hostBuf 0 0) ∧ (a.flowPlanes 0).w ≠ 0 ∧
    (a.lease.holds.any fun h => h.1 == .post 0 0) = false ∧ (a.lease.frames.any fun x => x.bufs.contains (a.hostBuf 0 0)) = false) := by decide

/-- Flow 0 of type SACN with a source whose last sequence number is 5. -/
def sacn : State := let s := flowOf 2
  s.setFlow 0 { s.flow 0 with sources := [⟨1, 1, 5, none, none, true, 0, 0⟩] }
def dataPacket (seq sync : Nat) : SacnData := ⟨4, 2, 2, 0xA1, 0, 1, 0, false, false, 1, 1, seq, 100, sync, 3, [7, 8]⟩

theorem witness_sacn : sacn.runs ∧ sacn.ingestEn = true ∧ sacn.flowType 0 = 2 ∧
    ((sacn.flow 0).sources.find? fun x => x.is 1 1) = some ⟨1, 1, 5, none, none, true, 0, 0⟩ ∧
    ((dataPacket 6 0).seq + 256 - 5 % 256) % 256 = 1 ∧ ((dataPacket 5 0).seq + 256 - 5 % 256) % 256 = 0 ∧
    ((dataPacket 242 0).seq + 256 - 5 % 256) % 256 = 237 ∧ ((dataPacket 241 3).seq + 256 - 5 % 256) % 256 = 236 ∧
    (dataPacket 6 0).propCount ≠ 0 ∧ (dataPacket 6 0).propCount ≤ 513 ∧ (dataPacket 6 0).prio ≤ 200 := by decide

/-- A console datagram of a type with four words of payload, and the flow that hears it. -/
def datagram (typ : Nat) (w4 w5 : Word) : List Word := [w32 (0x4B43 * 65536 + 256 + typ), 1, 2, 16 * 65536, w4, w5, 0, 0]
def console : State := pa A.INGEST_TC_FLOW ⟨7, 0⟩ 0 (flowOf 3)

theorem witness_console : console.hears 0 1 (datagram 1 0x00010001 0x00020000) 32 ∧ console.hears 0 1 (datagram 1 0x00010200 0x00020000) 32 ∧
    console.hears 0 2 (datagram 2 0 0) 32 ∧ console.hears 0 3 (datagram 3 0 0xC0000000) 32 ∧ console.hears 0 4 (datagram 4 0 0) 32 := by
  refine ⟨?_, ?_, ?_, ?_, ?_⟩ <;>
    exact ⟨by decide, by decide, by decide, by decide, by decide, by decide, by decide, by decide, by decide, fun q c h => by cases h⟩

theorem witness_console_flags : fget (wordAt (datagram 3 0 0xC0000000) 5) ⟨31, 30⟩ = console.actF A.SCHED_TC_CTRL F.SCHED_TC_CTRL_RATE ∧
    console.actF A.INGEST_TC_FLOW ⟨7, 0⟩ = 0 ∧ console.actF (A.FLOW_CFG 0) F.FLOW_CFG_FLAGS_EN ≠ 1 ∧
    (pa (A.FLOW_CFG 0) F.FLOW_CFG_FLAGS_EN 1 console).actF (A.FLOW_CFG 0) F.FLOW_CFG_FLAGS_EN = 1 := by decide

/-- Marver composes a frame of layer 3, whose layer has closed; a pass runs; the solver solves. -/
def composing : State := let s := s0.setLayer 3 ⟨false, true, false, true⟩
  { s with marver := { s.marver with begun := true, busy := true, order := [3] } }
def passing : State := { composing with marver := { composing.marver with pass := some ⟨[3], 0⟩ } }
def solvingOn : State := { s0 with solver := { s0.solver with busy := true } }

theorem witness_marver : composing.runs ∧ composing.marver.begun = true ∧ composing.marver.busy = true ∧
    composing.marver.baseDone = false ∧ composing.marver.pass = none ∧ composing.unapplied.takeWhile composing.layerReady ≠ [] ∧
    passing.marver.pass = some ⟨[3], 0⟩ ∧ (loopChangeover solvingOn).solver.busy = true := by decide

/-- The colour loop with a report, a change-over that is due, and a rewrite of the gain store in buffer 1. -/
def report : LoopReport := ⟨0, 0, false, [0, 0, 0], 0⟩
def looping : State := { pa A.CLOOP_GAIN_BUF ⟨11, 0⟩ 1 s0 with
  lease := { s0.lease with bufs := [⟨1, 12288, 4, false, false⟩] }
  loop := { s0.loop with queue := [report] } }

theorem witness_loop : looping.runs ∧ ({ looping with loop := { looping.loop with due := true } } : State).isPartner = false ∧
    looping.loop.resetting = none ∧ looping.sliceOn P.CLOOP = false ∧ (loopChangeover looping).loop.queue = report :: [] ∧
    looping.obeys .host P.CLOOP ∧ (looping.arrive .host P.CLOOP).loop.resetting = none ∧
    (looping.arrive .host P.CLOOP).gainEntry (looping.arrive .host P.CLOOP).gainActive 5 = some 0x30000140 ∧
    ({ looping with loop := { looping.loop with resetting := some 1 } } : State).loop.resetting = some 1 ∧ (1 : Nat) ≠ nullBuf := by decide

/-! ### Scan-out and the Tuiper link -/

/-- Engine 0 is enabled, in the set in force and in that before, at the device's rate or at its own. -/
def scanSet (own : Bool) : AMap Word :=
  let s := pa (A.SCAN_PERIOD 0) ⟨31, 0⟩ 10000000 (pa (A.SCAN_CTRL 0) F.SCAN_CTRL_CLASS own.toNat
    (pa (A.SCAN_CTRL 0) F.SCAN_CTRL_SYNC own.toNat (pa (A.SCAN_CTRL 0) F.SCAN_CTRL_EN 1 s0)))
  s.rf.active
def scanning (own : Bool) : State := { framed with rf := { framed.rf with active := scanSet own, prev := scanSet own } }
/-- A link walk, and the frame of engine 0 that it belongs to. -/
def aTx : EngTx := ⟨0, 0, 5, [], [], 0, 0, [], 0, 0, false, false, []⟩
def walking : LinkWalk := ⟨0, [], none, none, some ⟨[], 1, aTx⟩, none, some 7, [], none, 0, none, false, false, false, false⟩
def aFrame : EngFrame := ⟨5, 0, 0, 10000000, 5000000, 2000000, 5, false, false, none, false, nullBuf, nullBuf, false, false, false, false,
  false, false, false, false, false, false, [walking]⟩
def inFrame : State := (scanning false).setEngine 0 { (scanning false).engine 0 with cur := some aFrame }

set_option maxRecDepth 20000 in
theorem witness_engine_start : (scanning false).runs ∧ (scanning false).offline (P.SCAN 0) = false ∧ ((scanning false).engine 0).set = [] ∧
    (ownRate (scanning false).act 0 && engOn (scanning false).act 0) = false ∧ 2 ≤ (scanning false).time.bnds ∧
    engOn (scanning false).prv 0 = true ∧ ownRate (scanning false).prv 0 = false ∧ ((scanning false).engine 0).cur = none ∧
    (let s := scanning false
     let t := headSend (deviceFrame 0 (((s.rd A.SYS_FRAME_NUM).toNat + 2 ^ 32 - 1) % 2 ^ 32) (engineLatch 0 s))
     (t.engine 0).cur.isSome = true) := by decide

set_option maxRecDepth 20000 in
/-- An engine at its own rate, before its first frame and after it. -/
theorem witness_own_start : ((scanning true).engine 0).cur = none ∧ ownRate (scanning true).act 0 = true ∧ engOn (scanning true).act 0 = true ∧
    (let b := ownFix 0 (engineLatch 0 (scanning true))
     let a := takeBase 0 (b.ownNext 0).2 b
     engOn (amGet resetOf (a.engine 0).set) 0 = true ∧ ownRate (amGet resetOf (a.engine 0).set) 0 = true ∧
     ((headSend (ownFrame 0 a)).engine 0).cur.isSome = true) ∧
    (let s := (scanning true).setEngine 0 { (scanning true).engine 0 with cur := some aFrame, set := scanSet true }
     let a := engineLatch 0 s
     (s.engine 0).cur.isSome = true ∧ (s.engine 0).set ≠ [] ∧ engOn (amGet resetOf (s.engine 0).set) 0 = true ∧
     ownRate (amGet resetOf (s.engine 0).set) 0 = true ∧ engOn (amGet resetOf (a.engine 0).set) 0 = true ∧
     ownRate (amGet resetOf (a.engine 0).set) 0 = true ∧ ((headSend (ownFrame 0 a)).engine 0).cur.isSome = true) := by decide

theorem witness_engine_frame : inFrame.runs ∧ (inFrame.engine 0).cur = some aFrame ∧ aFrame.urDone = false ∧ aFrame.latched = false ∧
    (inFrame.walk 0 0).waiting = some 7 ∧ (inFrame.walk 0 0).levF = some ⟨[], 1, aTx⟩ ∧ inFrame.twinOn = false ∧
    aFrame.src ≠ some inFrame.solving.frame ∧ (inFrame.walk 0 0).ended = false ∧ (aFrame.links.any fun l => l.j == 0) = true ∧
    aFrame.wait = false := by decide

/-- A frame whose source the solver is still solving. -/
theorem witness_walk_solving : let s := (scanning false).setEngine 0 { (scanning false).engine 0 with cur := some { aFrame with src := some 0 } }
    let t : State := { s with solver := { s.solver with busy := true, frames := [⟨0, 2, 1, 2, 0, 0⟩] } }
    (t.engine 0).cur = some { aFrame with src := some t.solving.frame } ∧ t.solver.busy = true ∧ (t.walk 0 0).waiting = some 7 := by decide

theorem witness_base : s0.obeys .host (P.SCAN 0) ∧
    judgeWord (checksOf (s0.arrive .host (P.SCAN 0)) (A.SCAN_DIRECT_BASE 0) (0x0FFF0FFF &&& 0x0FFF0FFF)) false (0x0FFF0FFF &&& 0x0FFF0FFF) =
      ⟨some (0x0FFF0FFF &&& 0x0FFF0FFF), []⟩ := by decide

/-- The Tuiper link of port 0 is on and up. -/
def linked : State := pl (A.PORT_STAT 0) F.PORT_STAT_LINK_UP 1 (pa (A.PORT_MAC_CTRL 0) F.PORT_MAC_CTRL_EN 1 (pa A.TUIPER_CTRL F.TUIPER_CTRL_EN 1 s0))
/-- A message of a type from fixture side of link 0 with a body. -/
def message (type : Nat) (body : List Word) : List Word :=
  [w32 (2 ^ 28 + type * 2 ^ 24 + 2 ^ 16 + (32 + 4 * body.length)), 1, 0, 0, 0, 0, 0, 0] ++ body
def delayMsg (op : Nat) : List Word := message 9 [w32 (op * 2 ^ 28 + 3), 0, 0, 0, 0, 0, 0, 0, 0]

theorem witness_time : linked.runs ∧ (takeRx 0 linked).tuiperOn = true ∧ (takeRx 0 linked).injArmed P.TUIPER 4 = false ∧
    (takeRx 0 linked).injArmed P.TUIPER 31 = false ∧ msgOk (delayMsg 2) 36 = true ∧ tuiperType (delayMsg 2) = 9 ∧
    bodyF (delayMsg 2) 0 31 28 = 2 ∧ (dreqAllowed 0 (takeRx 0 linked)).1 = true ∧
    (let t : State := { linked with time := { linked.time with dreqs := [(0, 100000), (64, 100000), (65, secOf linked.nowNs + 1)] } }
     (dreqAllowed 0 (takeRx 0 t)).1 = false) := by decide

/-- A SYNC that is known by its TSEQ, still young and too old. -/
def synced (n : Nat) : State := { linked with tuiper := { linked.tuiper with syncs := (List.range n).map (fun i => (0, 200 + i, 0)) ++ [(0, 3, 0)] } }

theorem witness_sync : (synced 0).syncTime 0 3 = some (0, 0) ∧ (synced 65).syncTime 0 3 = some (0, 65) ∧
    delaySum (delayMsg 2) 0 (synced 0).nowNs = 0 := by decide

theorem witness_delay : 0 ≤ roundEven (((0 : Int) : Rat) / 2) ∧ roundEven (((-4 : Int) : Rat) / 2) < 0 := by
  decide +kernel

/-- A multiple of the SYNC interval has come, and no SYNC has left at it. -/
theorem witness_sync_send : linked.runs ∧ (let u := reach (linked.syncNext * linked.syncStep / 2 ^ 32) linked
    let n := u.time.t / u.syncStep * u.syncStep
    u.tuiperOn = true ∧ u.time.t < n + u.time.incr ∧ u.time.syncN ≠ some n) := by decide +kernel

/-- A request of one word, one that waits for its link, and a queued fault. -/
def requesting (up : Bool) : State := let s := if up then linked else pa A.TUIPER_CTRL F.TUIPER_CTRL_EN 1 s0
  { s with tuiper := { s.tuiper with req := some (7, 0, [0]), faultQ := [5] } }
def cmdWord : Word := fput 0 F.TUIPER_TX_CMD_WORDS 1

theorem witness_requests : linked.obeys .host P.TUIPER ∧ 1 ≤ fget cmdWord F.TUIPER_TX_CMD_WORDS ∧ fget cmdWord F.TUIPER_TX_CMD_WORDS ≤ 256 ∧
    (linked.arrive .host P.TUIPER).get A.TUIPER_TX_STAT F.TUIPER_TX_STAT_BUSY = 0 ∧ (linked.arrive .host P.TUIPER).tuiperOn = true ∧
    (requesting true).tuiper.req = some (7, 0, [0]) ∧ (requesting true).tuiperOn = true ∧ (requesting true).linkUp 0 = true ∧
    (requesting true).portOn 0 = true ∧ (requesting false).tuiperOn = true ∧ (requesting false).linkUp 0 = false ∧
    (requesting true).reaches .host P.TUIPER ∧ (requesting true).viewOf .host P.TUIPER ≠ 2 ∧ (requesting true).tuiper.faultQ = 5 :: [] := by decide

/-- Fixture 0 lost, and a set 1 whose member it is. -/
def aSet : SetDef := ⟨1, [0], [0]⟩
def setsIn (x : SetSt) (det : List (Nat × Nat × Nat × Nat)) : State := let s := pa A.SETS_CTRL F.SETS_CTRL_EN 1 linked
  { s with tuiper := { s.tuiper with sets := [aSet], setSt := amSet (fun _ => SetSt.init) [] 1 x, detected := det } }

theorem witness_telemetry : msgOk (message 6 [0, 0, 0]) (telNeed (message 6 [0, 0, 0])) = true ∧
    fget (wordAt (message 6 [0, 0, 0]) 0) ⟨16, 16⟩ = 1 ∧ fget (wordAt (message 6 [0, 0, 0]) 2) ⟨13, 8⟩ = 0 ∧
    bodyF (message 6 [0, 0, 0]) 0 19 16 ≤ 8 ∧ (telTemps (message 6 [0, 0, 0])).all finite16 = true ∧ tuiperType (message 6 [0, 0, 0]) = 6 ∧
    bits (s0.supState 0) 30 30 = 0 ∧ bits (s0.supState 0) 31 31 = 0 ∧ (setsIn SetSt.init []).setMember 0 = true ∧
    (setsIn SetSt.init []).supState 0 = 0 ∧
    tuiperType (message 7 ((4 * 2 ^ 28 : Word) :: List.replicate 7 0)) = 7 ∧ bodyF (message 7 ((4 * 2 ^ 28 : Word) :: List.replicate 7 0)) 0 31 28 = 4 ∧
    msgOk (message 7 ((4 * 2 ^ 28 : Word) :: List.replicate 7 0)) 32 = true ∧ s0.setOfFix 0 = none ∧
    (setsIn SetSt.init []).setOfFix 0 = some aSet := by decide

/-- The report queue of the colour loop with room, and full. -/
theorem witness_loop_queue : (telAccept 0 0 (message 6 [0, 0, 0]) 0 linked).loop.queue.length < 4096 ∧
    (let s : State := { linked with loop := { linked.loop with queue := List.replicate 4096 ⟨0, 0, false, [0, 0, 0], 0⟩ } }
     4096 ≤ (telAccept 0 0 (message 6 [0, 0, 0]) 0 s).loop.queue.length) := by decide +kernel

theorem witness_sets : (setsIn SetSt.init [(1, 3, 0, 7)]).setsOn = true ∧
    ((setsIn SetSt.init []).tuiper.sets.find? fun d => d.id == 1) = some aSet ∧
    ((setsIn SetSt.init [(1, 3, 0, 7)]).setOf 1).state ≠ 1 ∧ ((setsIn SetSt.init []).setOf 1).stepped ≠ some 0 ∧
    ((setsIn SetSt.init [(1, 3, 0, 7)]).tuiper.detected.filter fun y => y.1 == 1).filter (fun y => y.2.2.2 != 0) = [(1, 3, 0, 7)] ∧
    ((setsIn ⟨1, 3, 0, 0, none⟩ []).setOf 1).state = 1 ∧ (setsIn ⟨1, 3, 0, 0, none⟩ []).unhealthy aSet [] = none ∧
    ((setsIn ⟨2, 3, 4, 0, none⟩ []).setOf 1).state = 2 ∧ ((setsIn ⟨3, 3, 4, 0, none⟩ []).setOf 1).state = 3 ∧
    (setsIn ⟨2, 3, aSet.restoreHold, 0, none⟩ []).setOf 1 = ⟨2, 3, aSet.restoreHold, 0, none⟩ ∧
    (let t : State := { setsIn ⟨3, 3, 4, 0, none⟩ [] with tuiper := { (setsIn ⟨3, 3, 4, 0, none⟩ []).tuiper with rearms := [(1, 7)] } }
     (t.tuiper.rearms.any fun r => r.1 == 1 && r.2 != t.frameNum) = true ∧ (t.setOf 1).state = 3) := by decide

theorem witness_set_commands : (setsIn SetSt.init []).obeys .host P.SETS ∧ ((setsIn SetSt.init []).arrive .host P.SETS).setOn 1 = true ∧
    ((setsIn SetSt.init []).arrive .host P.SETS).setOn 2 = false ∧ (((setsIn ⟨3, 3, 4, 0, none⟩ []).arrive .host P.SETS).setOf 1).state = 3 ∧
    (let t : State := { s0 with tuiper := { s0.tuiper with transQ := [9] } }; t.viewOf .host P.SETS ≠ 2 ∧ t.tuiper.transQ = 9 :: []) := by decide

/-- A set whose causes hold every supervised fault, with fixture 0 lost. -/
theorem witness_unhealthy : let s := setsIn SetSt.init []
    let d : SetDef := ⟨1, [0xFF000000], [0]⟩
    ({ s with tuiper := { s.tuiper with sup := [(0, 2 ^ 30)] } } : State).unhealthy d [] ≠ none := by decide

/-! ### Fixtures -/

/-- Fixture 0 of link 0, with a session of its sender, SYNC 3, and a LEVEL cell 0 of generation 1 for presentation time 7. -/
def fixed : State :=
  let p : FixPend := ⟨7, [(0, 5)], [1], some 1, none, none, false, 2⟩
  let x : Fixture := { s0.fixture with assigned := true, session := some 9, high := 5, seen := [5], gen := some 1, pend := [p] }
  { s0 with fixture := { x with sync := some (3, 100, 200), mpd := some 10, heard := [(1, 0, 0)] } }
/-- A PRESENT message of a session and sequence number. -/
def frameOf (sess seq : Nat) : List Word := [w32 (2 ^ 28 + 5 * 2 ^ 24 + 32), w32 seq, w32 (sess * 65536), 0, 0, 0, 0, 0]

theorem witness_fixture_frames : msgOk (frameOf 9 6) (recNeed 5 0) = true ∧ tuiperType (frameOf 9 6) = 5 ∧ fixed.fixture.assigned = true ∧
    msgLink (frameOf 9 6) = fixed.fixture.link ∧ fixed.fixture.session ≠ some 8 ∧ (6 + 2 ^ 32 - fixed.fixture.high) % 2 ^ 32 = 1 ∧
    (fixed.fixture.high + 2 ^ 32 - 4) % 2 ^ 32 = 1 ∧ fixed.fixture.seen.contains 4 = false ∧ fixed.fixture.seen.contains 5 = true ∧
    (let x := { fixed.fixture with high := 70 }; 63 < (x.high + 2 ^ 32 - 6) % 2 ^ 32 ∧ 2 ^ 31 ≤ (6 + 2 ^ 32 - x.high) % 2 ^ 32) := by decide

theorem witness_fixture_apply : (∀ l, fixed.fixture.lastPt = some l → l < 7) ∧ (fixed.fixture.pendAt 7).strike = none ∧
    (fixed.fixture.pendAt 7).hold = false ∧ fixed.fixture.complete (fixed.fixture.pendAt 7) = true ∧ (fixed.fixture.pendAt 7).cur = none ∧
    fixed.fixture.complete (fixed.fixture.pendAt 8) = false ∧ covers [(0, (5 : Cell))] (some 1) = true ∧ covers [] (some 1) = false ∧
    (let x : Fixture := { fixed.fixture with pend := [⟨7, [], [], none, none, some ([1], [], some 1), false, 2⟩] }
     (x.pendAt 7).strike = some ([1], [], some 1) ∧ covers ([] : List (Nat × Cell)) (some 1) = false) ∧
    ({ fixed.fixture with lastPt := some 7 } : Fixture).lastPt = some 7 ∧ fixed.fixture.lossDark = 0 := by
  refine ⟨fun l h => (by cases h), ?_⟩
  decide

theorem witness_fixture_time : msgOk (delayMsg 1) 36 = true ∧ tuiperType (delayMsg 1) = 9 ∧ bodyF (delayMsg 1) 0 31 28 = 1 ∧
    bestMaster ((2, bodyF (delayMsg 1) 0 23 16, 0) :: []) = some 2 ∧ bestMaster [(2, 200, 0), (1, 0, 1)] ≠ some 2 ∧
    fixed.fixture.sync = some (3, 100, 200) ∧ bestMaster fixed.fixture.heard = some 1 ∧ fixed.fixture.dreqs = (0, 0) ∧ bodyF (delayMsg 3) 0 31 28 = 3 ∧ bodyF (delayMsg 3) 7 17 0 = fixed.fixture.fixId ∧
    bodyF (delayMsg 3) 0 15 0 = 3 := by decide

/-- ENUM and SET messages to the fixture of UID 1, and to all. -/
def enum (op : Nat) (dst : List Word) : List Word := message 7 (w32 (op * 2 ^ 28) :: dst ++ [0x10001, 2, 0, 0])
def setMsg (op param : Nat) (dst : List Word) (v : Word) : List Word := message 8 (w32 (op * 2 ^ 28 + param) :: dst ++ [v])

theorem witness_fixture_requests : s0.fixture.assigned = false ∧ (s0.fixture.judge (enum 1 [0, 0])).1 = true ∧ msgOk (enum 1 [0, 0]) 20 = true ∧
    tuiperType (enum 1 [0, 0]) = 7 ∧ bodyF (enum 1 [0, 0]) 0 31 28 = 1 ∧ bodyUid (enum 1 [0, 0]) 1 ≤ s0.fixture.uid.toNat ∧
    s0.fixture.uid.toNat ≤ bodyUid (enum 1 [0, 0]) 3 ∧ bodyUid (enum 2 [0x10000, 1]) 1 = s0.fixture.uid.toNat ∧
    bodyUid (enum 3 [0xFFFFFFFF, 0xFFFFFFFF]) 1 = 2 ^ 64 - 1 ∧ bodyUid (enum 2 [0, 5]) 1 ≠ s0.fixture.uid.toNat ∧
    msgOk (setMsg 1 2 [0x10000, 1] 50) 16 = true ∧ tuiperType (setMsg 1 2 [0x10000, 1] 50) = 8 ∧ bodyF (setMsg 1 2 [0x10000, 1] 50) 0 31 28 = 1 ∧
    bodyUid (setMsg 1 2 [0x10000, 1] 50) 1 = s0.fixture.uid.toNat ∧ (s0.fixture.setParam 2 50 0).isLeft = true ∧
    (s0.fixture.setParam 6 0 0).isRight = true ∧ (s0.fixture.setParam 9 0 0).isRight = true ∧ s0.fixture.getParam 2 0 = some 100 ∧
    s0.fixture.getParam 9 0 = none ∧ msgLink (enum 1 [0, 0]) = fixed.fixture.link := by decide

/-- A fixture with a REPLY due, one that reports to a source, and one that knows no address. -/
def replying : State := { s0 with fixture := { s0.fixture with replies := [(0, 7)] } }
def reporting : Fixture := { fixed.fixture with home := some 1, partner := some (2, 0), telAt := some 5 }

theorem witness_fixture_sends : (∃ l src, replying.fixture.replies[(replying.fresh 1).1]? = some (l, src)) ∧ fixed.fixture.assigned = true ∧
    (fixed.fixture.home = none ∧ fixed.fixture.partner = none) ∧ reporting.home = some 1 ∧ reporting.clock ≤ 0 + 10 ^ 9 := by
  refine ⟨⟨0, 7, ?_⟩, by decide, by decide, by decide, by decide⟩
  have h : (replying.fresh 1).1 = 0 := Nat.mod_one _
  rw [h]
  rfl

/-! ### Ports, queues and DMX -/

/-- Port 64 is enabled; a frame of 60 bytes to its address, which is 0 after reset. -/
def ported : State := pa A.INGEST_CTRL F.INGEST_CTRL_EN 1 (pa (A.PORT_MAC_CTRL 64) F.PORT_MAC_CTRL_EN 1 s0)
def rxFrame (bad : Bool) : RxFrame := ⟨.frame, List.replicate 12 0 ++ [8, 0] ++ List.replicate 46 0, bad, false, false⟩

theorem witness_receive : ported.portOn 64 = true ∧ (rxFrame false).kind = .frame ∧ (rxFrame false).asmErr = false ∧
    14 ≤ (rxFrame false).data.length ∧ (let t := (ported.add64 (A.PORT_RX_FRAMES_LO 64) 1).add64 (A.PORT_RX_BYTES_LO 64) 64
      64 ≤ t.actF (A.PORT_MAC_CTRL 64) F.PORT_MAC_CTRL_MAX_FRAME ∧ t.injArmed (P.PORT 64) 1 = false ∧ t.injArmed (P.PORT 64) 3 = false ∧
      t.passesFilter 64 (0x02 :: (rxFrame false).data) = false ∧
      (t.port 64).rxBytes + (rxFrame false).data.length ≤ rxCapacity 64 ∧
      (let u := t.setPort 64 { t.port 64 with rx := [(512 * 1024, 0)] }
       rxCapacity 64 < (u.port 64).rxBytes + (rxFrame false).data.length)) ∧ lenError (rxFrame false).data = false := by decide

/-- A promiscuous port. -/
theorem witness_filter : (pa (A.PORT_MAC_CTRL 64) ⟨29, 29⟩ 1 ported).passesFilter 64 (rxFrame false).data = true := by decide

/-- Flow 0 of type QUEUE on M0, and a datagram that it matches. -/
def queueFlow : State := pa (A.FLOW_CFG 0) F.FLOW_CFG_TYPE 5 (pa (A.FLOW_CFG 0) ⟨20, 20⟩ 1 ported)

/-- A datagram to port 7, and one of a console flow that carries USER data. -/
def aDatagram (v6 trunc : Bool) : Datagram := ⟨v6, 0, 0, 0, 7, trunc, []⟩
def userData : Datagram := ⟨false, 0, 0, 0, 7, false, [0, 0, 0, 4]⟩
def flowM0 (ty : Nat) : State := takeRx 64 (pa (A.FLOW_CFG 0) F.FLOW_CFG_TYPE ty (pa (A.FLOW_PORT 0) F.FLOW_PORT_DST_PORT 7 queueFlow))

set_option maxRecDepth 20000 in
theorem witness_flow : (aDatagram false false).dstPort ≠ 319 ∧ (aDatagram false false).dstPort ≠ 320 ∧ (flowM0 5).ingestEn = true ∧
    (∀ ty ∈ [1, 3, 5], ((flowM0 ty).flowsLive.filter fun f => (flowM0 ty).flowMatches f 64 (aDatagram false true)) = [0] ∧
      (flowM0 ty).flowType 0 = ty) ∧
    ((flowM0 3).flowsLive.filter fun f => (flowM0 3).flowMatches f 64 userData) = [0] ∧ beAt userData.payload 3 1 = 4 ∧
    ((takeRx 64 ported).flowsLive.filter fun f => (takeRx 64 ported).flowMatches f 64 (aDatagram false false)) = [] ∧
    (takeRx 64 ported).actF A.INGEST_CTRL F.INGEST_CTRL_DQ_EN = 0 ∧
    (pa A.INGEST_CTRL F.INGEST_CTRL_DQ_EN 1 (takeRx 64 ported)).actF A.INGEST_CTRL F.INGEST_CTRL_DQ_EN = 1 := by decide

/-- Port 0 with a frame being sent, held by a PAUSE, in XOFF, verifying, and in a renegotiation to rate 3. -/
def sendingPort : State := s0.setPort 0 { s0.port 0 with cur := some (plainFrame false .standard) }
def renegotiating : State := let s := pl (A.PORT_RATE_STAT 0) F.PORT_RATE_STAT_STATE 2 s0
  s.setPort 0 { s.port 0 with target := some 3 }
def verifying (k : Nat) : State := let s := pl (A.PORT_PREEMPT_STAT 0) F.PORT_PREEMPT_STAT_VERIFY 2 s0
  s.setPort 0 { s.port 0 with tries := k }

theorem witness_ports : (sendingPort.port 0).cur = some (plainFrame false .standard) ∧ (pl (A.PORT_STAT 0) F.PORT_STAT_HELD 1 s0).portHeld 0 = true ∧
    (pl (A.PORT_STAT 0) F.PORT_STAT_XOFF 1 s0).get (A.PORT_STAT 0) F.PORT_STAT_XOFF = 1 ∧
    s0.linkUp 0 = false ∧ s0.rateOk 0 4 = true ∧ s0.portOut 0 = false ∧ s0.rateOk 64 5 = true ∧ s0.rateOk 70 7 = true ∧ s0.inReneg 0 = false ∧
    renegotiating.inReneg 0 = true ∧ (renegotiating.port 0).target = some 3 ∧ renegotiating.linkUp 0 = false ∧
    renegotiating.rateOk 0 3 = true ∧ linked.linkUp 0 = true ∧ (verifying 2).get (A.PORT_PREEMPT_STAT 0) F.PORT_PREEMPT_STAT_VERIFY = 2 ∧
    ((verifying 2).port 0).tries < 3 ∧ 3 ≤ ((verifying 3).port 0).tries := by decide

/-- Queue 0, which the host owns, with a word that begins a packet; its packet begun. -/
def queued (popped : Bool) (owner : Nat) : State := let s := pa (A.Q_CTRL 0) F.Q_CTRL_OWNER owner s0
  s.setQueue 0 ⟨[⟨5, true, false, false⟩, ⟨6, false, true, true⟩], popped, false, false⟩

set_option maxRecDepth 20000 in
theorem witness_queues : (queued false 0).obeys .host (P.Q 0) ∧ (queued true 0).obeys .gaffer (P.Q 0) ∧
    ((queued false 0).arrive .host (P.Q 0)).ownsQueue .host 0 ≠ ((queued false 0).arrive .gaffer (P.Q 0)).ownsQueue .gaffer 0 ∧
    ((queued false 0).arrive .host (P.Q 0)).viewOf .host (P.Q 0) ≠ 2 ∧ (((queued true 0).arrive .host (P.Q 0)).queue 0).popped = true ∧
    (((queued false 0).arrive .host (P.Q 0)).queue 0).words = ⟨5, true, false, false⟩ :: [⟨6, false, true, true⟩] := by decide

/-- DMX port 0 as an output whose frame 3 is being presented, and as an input. -/
def dmxOut (sending : Bool) : State := let s := pa (A.DMX_CFG 0) F.DMX_CFG_EN 1 s0
  s.setDmx 0 { s.dmxPort 0 with sending := sending, shown := [(3, 0, [1, 2])] }
def rdmAt (k : Nat) (dst : List Byte) : State := { dmxOut true with net := { (dmxOut true).net with
  rdm := some ⟨0, [0xCC, 1, 24] ++ dst, k⟩ } }

theorem witness_dmx : (dmxOut false).dmxOn 0 0 = true ∧ ((dmxOut false).dmxPort 0).sending = false ∧ (dmxOut false).rdmOn 0 = false ∧
    ((dmxOut false).dmxPort 0).latest (dmxOut false).nowNs = some (3, 0, [1, 2]) ∧ ((dmxOut true).dmxPort 0).sending = true ∧
    (dmxOut true).net.rdm = none ∧ (rdmAt 0 []).net.rdm = some ⟨0, [0xCC, 1, 24], 0⟩ ∧ dmxIn.dmxOn 0 1 = true ∧
    dmxIn.injArmed P.DMX 18 = false := by decide

/-- An RDM request of 24 bytes in RDM_DATA, on a port that may send it. -/
def rdmReady : State := (pa (A.DMX_CFG 0) F.DMX_CFG_RDM_EN 1 (dmxOut false)).wr (A.DMX_RDM_DATA 0) 0xCC011800
def rdmWord : Word := fput (fput 0 F.DMX_RDM_CMD_OP 1) F.DMX_RDM_CMD_BYTES 24

theorem witness_rdm : rdmReady.obeys .host P.DMX ∧ fget rdmWord F.DMX_RDM_CMD_OP = 1 ∧ fget rdmWord F.DMX_RDM_CMD_BYTES = 24 ∧
    ((rdmReady.arrive .host P.DMX).rdmByte 2).toNat = 24 ∧ (rdmReady.arrive .host P.DMX).dmxOn 0 0 = true ∧
    (rdmReady.arrive .host P.DMX).dmxCfg 0 F.DMX_CFG_RDM_EN = 1 ∧ (rdmReady.arrive .host P.DMX).net.rdm = none ∧
    ((([0xCC, 1, 24] : List Byte) ++ List.replicate 6 0xFF).drop 3).take 6 = List.replicate 6 0xFF ∧
    (rdmAt 1 []).net.rdm = some ⟨0, [0xCC, 1, 24], 1⟩ ∧ (rdmAt 2 []).net.rdm = some ⟨0, [0xCC, 1, 24], 2⟩ := by decide

/-! ### Time -/

/-- CAP0 enabled, with 0 or 16 edges that wait. -/
def capturing (n : Nat) : State := (pa (A.TRIG_CCFG 0) F.TRIG_CCFG_EN 1 s0).setCap 0 (List.replicate n (true, 7))

theorem witness_captures : s0.reaches .host P.TIME ∧ (s0.arrive .host P.TIME).viewOf .host P.TIME ≠ 2 ∧
    ((s0.arrive .host P.TIME).port ((s0.arrive .host P.TIME).tsqPort .host)).tsq = [] ∧
    (let t := s0.setPort 0 { s0.port 0 with tsq := [(1, 2, 3)] }; (t.port (t.tsqPort .host)).tsq = (1, 2, 3) :: []) ∧
    s0.reaches .host P.TRIG ∧ (s0.arrive .host P.TRIG).viewOf .host P.TRIG ≠ 2 ∧ s0.capQ 0 = [] ∧ (capturing 1).capQ 0 = (true, 7) :: [] ∧
    (capturing 0).actF (A.TRIG_CCFG 0) F.TRIG_CCFG_EN ≠ 0 ∧ (capturing 0).injArmed P.TRIG 31 = false ∧
    (capturing 0).actF (A.TRIG_CCFG 0) F.TRIG_CCFG_EDGE ≠ 2 ∧ ((capturing 15).capQ 0).length < 16 ∧ 16 ≤ ((capturing 16).capQ 0).length := by decide

/-- Domain 0 on port M0, in a state, with a parent. -/
def announce (prio : Nat) : PtpAnnounce := ⟨64, 0, false, 0, 9, 8, prio, 6, 0x21, 0, 128, 0⟩
def domain (st : Nat) : State :=
  let s := pl (A.PTP_STAT 0) F.PTP_STAT_STATE st (pa (A.PTP_CFG 0) ⟨16, 16⟩ 1 (pa (A.PTP_CFG 0) F.PTP_CFG_EN 1
    (pa (A.PORT_MAC_CTRL 64) F.PORT_MAC_CTRL_EN 1 s0)))
  let x : PtpDom := { s.dom 0 with parent := some (announce 100), pending := some (4, 0, 0), last := some (0, 10) }
  s.setDom 0 { x with validSince := some 0, dreq := some (2, some 20) }

set_option maxRecDepth 20000 in
theorem witness_domains : (takeRx 64 (domain 3)).ptpHears 0 64 0 false = true ∧
    ((takeRx 64 (domain 3)).inc (A.PTP_ANN_RX 0)).injArmed P.PTP (1 + 0) = false ∧ (takeRx 64 (domain 3)).injArmed P.PTP (1 + 0) = false ∧
    ((domain 4).inc (A.PTP_ANN_RX 0)).domState 0 = 4 ∧
    ((domain 3).inc (A.PTP_ANN_RX 0)).domState 0 = 3 ∧ ((domain 3).dom 0).parent = some (announce 100) ∧ (s0.dom 0).parent = none ∧
    better { announce 90 with gm := 7 } (announce 100) = true ∧ better { announce 110 with gm := 7, source := 5 } (announce 100) = false ∧
    (takeRx 64 (domain 3)).fromParent 0 64 9 = true ∧ ((takeRx 64 (domain 3)).dom 0).pending = some (4, 0, 0) ∧
    ((takeRx 64 (domain 3)).dom 0).dreq = some (2, some 20) ∧ ((takeRx 64 (domain 3)).dom 0).last = some (0, 10) := by decide

/-- A Delay_Req that is due, a parent that has been silent for 3 intervals, and AUTO in FB. -/
theorem witness_domain_times : (let u := reach ((domain 3).dreqDue 0) (domain 3)
      (u.dom 0).parent = some (announce 100) ∧ u.fromParent 0 64 9 = true ∧ u.dreqDue 0 ≤ u.nowNs) ∧
    (let u := reach ((domain 3).lostDue 0) (domain 3)
     u.domOn 0 = true ∧ u.domState 0 = 3 ∧ u.lostDue 0 ≤ u.nowNs) ∧
    (let s : State := { pa A.PTP_CTRL F.PTP_CTRL_GOV 2 (domain 3) with time := { (domain 3).time with gov := some 1 } }
     let u := reach s.revertDue s
     u.actF A.PTP_CTRL F.PTP_CTRL_GOV = 2 ∧ u.time.gov = some 1 ∧ u.domValid 0 = true) := by decide +kernel

/-- A delay exchange whose MPD is negative, and one whose is not. -/
theorem witness_mpd : roundEven (((10 - 0 + (0 - 20) - 0 : Int) : Rat) / 2) < 0 ∧ 0 ≤ roundEven (((10 - 0 + (30 - 20) - 0 : Int) : Rat) / 2) := by
  decide +kernel

/-- GENLOCK_IN with an edge of 20 ms ago, locked or not, in periods of 20 ms. -/
def period20 : Nat := 20000000 * 2 ^ 32
def genlocked (lock : Nat) (ago : Nat) : State := let s := pl A.SYNC_GL_STAT F.SYNC_GL_STAT_LOCKED lock s0
  { s with time := { s.time with t := 10 ^ 9 * 2 ^ 32 + ago, gl := { s.time.gl with edge := some (10 ^ 9 * 2 ^ 32), periods := [period20] } } }

theorem witness_genlock : s0.injArmed P.SYNC 31 = false ∧ s0.injArmed P.SYNC 6 = false ∧ s0.time.gl.edge = none ∧
    (genlocked 1 period20).time.gl.edge = some (10 ^ 9 * 2 ^ 32) ∧ (genlocked 1 period20).glLocked = true ∧
    (genlocked 0 period20).glLocked = false ∧
    (let off (s : State) := ((s.edgeTime (s.actF A.SYNC_GL_CFG F.SYNC_GL_CFG_GL_GLITCH_NS) : Int) - ((10 ^ 9 * 2 ^ 32 + s.pAvg : Nat) : Int)).natAbs
     16 * off (genlocked 1 period20) ≤ (genlocked 1 period20).pAvg ∧ (genlocked 1 (2 * period20)).pAvg < 16 * off (genlocked 1 (2 * period20))) ∧
    (let d (s : State) := s.edgeTime (s.actF A.SYNC_GL_CFG F.SYNC_GL_CFG_GL_GLITCH_NS) - 10 ^ 9 * 2 ^ 32
     10 ^ 9 * 2 ^ 32 ≤ d (genlocked 0 period20) * 240 ∧ d (genlocked 0 period20) * 24000 ≤ 1001 * 10 ^ 9 * 2 ^ 32 ∧
     d (genlocked 0 (period20 / 10)) * 240 < 10 ^ 9 * 2 ^ 32 ∧ 1001 * 10 ^ 9 * 2 ^ 32 < d (genlocked 0 (3 * period20)) * 24000) := by decide

/-- The predicted edge has passed without an edge, for the first time and for the fourth. -/
def missing (n : Nat) : State := let s := genlocked 1 period20
  { s with time := { s.time with gl := { s.time.gl with misses := n } } }
theorem witness_genlock_flywheel : ∀ n ∈ [0, 3], (let u := reach ((missing n).glDue.getD 0) (missing n)
    u.glLocked = true ∧ u.glDue.getD 0 ≤ u.nowNs ∧ u.time.gl.edge = some (10 ^ 9 * 2 ^ 32) ∧ u.time.gl.misses = n) := by decide +kernel

/-- An LTC frame of 30 frames a second, 01:02:03:04, and the decoder on. -/
def ltcAt (rev err : Bool) (rate : Nat) : LtcFrame := ⟨0x01020304, false, 0, rate, rev, err⟩
def ltcOn : State := pl A.SYNC_LTC_STAT F.SYNC_LTC_STAT_VALID 1 (pa A.SYNC_LTC_CFG F.SYNC_LTC_CFG_LTC_FLY 5 (pa A.SYNC_LTC_CFG F.SYNC_LTC_CFG_EN 1 s0))

theorem witness_ltc : ltcOn.actF A.SYNC_LTC_CFG F.SYNC_LTC_CFG_EN ≠ 0 ∧ ltcOn.injArmed P.SYNC 31 = false ∧
    ltcRate (ltcAt false false 2400).bitRate false = some 3 ∧ ltcRate 1000 false = none ∧ ltcRate 1920 false = some 0 ∧
    bcdOk (ltcAt false false 2400).tc (tcFps 3) = true ∧ bcdOk 0x01020330 (tcFps 3) = false ∧
    3 = ltcOn.actF A.SCHED_TC_CTRL ⟨29, 28⟩ ∧ 0 ≠ ltcOn.actF A.SCHED_TC_CTRL ⟨29, 28⟩ := by decide

/-- A unit is missing; the decoder may synthesise it, or has made the last that LTC_FLY allows. -/
def ltcLate (n : Nat) : State := { later ltcOn with time := { (later ltcOn).time with ltc := ⟨0, n⟩ } }
theorem witness_ltc_flywheel : ∀ n ∈ [0, 5], (let u := reach (ltcLate n).ltcFlyDue (ltcLate n)
    u.actF A.SYNC_LTC_CFG F.SYNC_LTC_CFG_EN ≠ 0 ∧ u.get A.SYNC_LTC_STAT F.SYNC_LTC_STAT_VALID ≠ 0 ∧ u.ltcFlyDue ≤ u.nowNs ∧
    u.time.ltc.fly = n) ∧ ltcOn.actF A.SYNC_LTC_CFG F.SYNC_LTC_CFG_LTC_FLY = 5 := by decide +kernel

/-- Trigger 0 armed, with a pulse due, or with a periodic start, or with a pulse in progress. -/
def trigger (x : TrigSt) (mode : Nat) : State := later ((pa (A.TRIG_TCFG 0) F.TRIG_TCFG_MODE mode s0).setTrig 0 x)

theorem witness_triggers : (∀ mode ∈ [1, 2], let s := trigger ⟨true, [5], none, none⟩ mode
      let t := reachT (s.trigDue 0) s
      (t.trig 0).armed = true ∧ (t.trig 0).due = 5 :: [] ∧ 5 ≤ t.time.t ∧ t.actF (A.TRIG_TCFG 0) F.TRIG_TCFG_MODE = mode) ∧
    (let s := trigger ⟨true, [], some (7, 0), none⟩ 2
     let t := reachT (s.trigDue 0) s
     (t.trig 0).armed = true ∧ (t.trig 0).due = [] ∧ (t.trig 0).next = some (7, 0) ∧ 7 + 0 * t.trigPeriod 0 ≤ t.time.t) ∧
    (let s := trigger ⟨false, [], none, some 3⟩ 1
     let t := reachT (s.trigEndDue 0) s
     (t.trig 0).active = some 3 ∧ 3 + t.actF (A.TRIG_WIDTH 0) F.TRIG_WIDTH_NS * 2 ^ 32 ≤ t.time.t) := by decide +kernel

/-! ### The pair -/

/-- A twin of side A in a state, with both punty links in use and up. -/
def twin (st : Nat) : State :=
  let s := pa A.TWIN_PUNTY ⟨17, 16⟩ 3 (pa A.TWIN_CTRL F.TWIN_CTRL_EN 1 { s0 with time := { s0.time with bnds := 3 } })
  pl A.TWIN_STAT F.TWIN_STAT_STATE st s
/-- A punty message of side B in a state, for the device's frame 0, with a body. -/
def punty (type st : Nat) (body : List Word) : List Word :=
  [w32 (2 ^ 28 + type * 2 ^ 24 + (16 + 4 * body.length)), w32 (2 ^ 15 + st * 2048 + 1), 0, 0] ++ body

set_option maxRecDepth 40000 in
theorem witness_hello : (takeRx 68 (twin 1)).puntyGood 0 1 0 (punty 1 1 []) 0 ∧ (takeRx 68 (twin 2)).puntyGood 0 1 0 (punty 1 2 []) 0 ∧
    (twin 2).twinOn = true ∧ (twin 2).twinSt ≠ 0 ∧ fget (wordAt (punty 1 2 []) 1) ⟨14, 14⟩ = 0 ∧ fget (wordAt (punty 1 2 []) 1) ⟨13, 11⟩ = 2 ∧
    (twin 1).twinSt = 1 ∧ (twin 1).side = 0 ∧ ((pa A.TWIN_CTRL F.TWIN_CTRL_SIDE 1 (twin 2)).raise P.TWIN 8).side = 1 ∧
    (pl A.TWIN_STAT F.TWIN_STAT_PEER_SEEN 1 (twin 5)).peerSeen = true ∧ (pl A.TWIN_STAT F.TWIN_STAT_PEER_SEEN 1 (twin 5)).isPartner = true ∧
    (twin 5).puntyUp = [] ∧ (twin 1).twinOn = true := by decide

/-- HELLO is due, the peer has been silent for 10 ms, and SEEK_MS have passed. -/
theorem witness_hello_times : (twin 2).twin.helloAt ≤ (reach (twin 2).twin.helloAt (twin 2)).nowNs ∧
    (let s := later (pl A.TWIN_STAT F.TWIN_STAT_PEER_SEEN 1 (twin 5))
     let w := reach (s.twin.heardAt + 10000000) s
     let t := (w.put A.TWIN_STAT F.TWIN_STAT_PEER_SEEN 0).raise P.TWIN 1
     s.peerSeen = true ∧ s.twin.heardAt + 10000000 ≤ w.nowNs ∧ t.isPartner = true ∧ t.twinSt ≠ 3 ∧ t.puntyUp = []) ∧
    (let s := later (twin 1)
     let due := s.twin.seekAt + s.actF A.TWIN_WAIT F.TWIN_WAIT_SEEK_MS * 1000000
     s.twinSt = 1 ∧ due ≤ (reach due s).nowNs) ∧
    (let s := later (pl A.TWIN_STAT F.TWIN_STAT_PEER_SEEN 1 (twin 2))
     let w := reach (s.twin.heardAt + 10000000) s
     ((w.put A.TWIN_STAT F.TWIN_STAT_PEER_SEEN 0).raise P.TWIN 1).isPartner = false) := by decide +kernel

/-- A HEAD of the engine frame before frame 1, whose digests are those of the device. -/
def headed : State := let s := twin 5
  { s with time := { s.time with frame := 1 }, twin := { s.twin with digests := [(0, 0, 0)] } }
def headMsg : List Word := punty 2 3 (List.replicate 202 0)

set_option maxRecDepth 40000 in
theorem witness_head : (takeRx 68 headed).puntyGood 0 2 808 headMsg 0 ∧ (takeRx 68 headed).isPartner = true ∧
    (takeRx 68 headed).headOld headMsg = false ∧ (takeRx 68 headed).injArmed P.TWIN 6 = false ∧
    headed.rxAt 68 ≤ (takeRx 68 headed).headDue ∧ 2 ≤ (takeRx 68 headed).time.bnds ∧ (takeRx 68 headed).engFrameNum = 0 ∧
    (takeRx 68 headed).twinFrame 0 = none ∧ (takeRx 68 headed).digestsOf 0 = some (0, 0) ∧
    ((0 : Int) - ((takeRx 68 headed).time.prevBoundary : Nat)).natAbs ≤ (takeRx 68 headed).actF A.TWIN_FAIL F.TWIN_FAIL_BND_TOL_NS ∧
    (takeRx 68 headed).twinSt = 5 ∧ puntyBody headMsg 1 = 0 ∧
    (let t := { headed.time with boundary := 10 ^ 8, prevBoundary := 10 ^ 7 }
     ((10 ^ 8 : Int) - (t.boundary : Nat)).natAbs ≤ headed.actF A.TWIN_FAIL F.TWIN_FAIL_BND_TOL_NS ∧
     headed.actF A.TWIN_FAIL F.TWIN_FAIL_BND_TOL_NS < ((10 ^ 8 : Int) - (t.prevBoundary : Nat)).natAbs) := by decide

/-- The wait for the HEAD of the engine frame has passed, in MIRROR and in another state of a partner. -/
theorem witness_head_miss : ∀ st ∈ [4, 5], (let s := later (let t := twin st; { t with time := { t.time with frame := 1 } })
    let w := reach s.headDue s
    w.twinOn = true ∧ w.isPartner = true ∧ 2 ≤ w.time.bnds ∧ w.twinFrame w.engFrameNum = none ∧ w.headDue ≤ w.nowNs ∧ w.twinSt = st) := by
  decide +kernel

set_option maxRecDepth 40000 in
/-- A chunk of a record, a record missed, and an ACK. -/
theorem witness_record : (takeRx 68 headed).puntyGood 0 3 0 (punty 3 3 []) 0 ∧ (takeRx 68 headed).isPartner = true ∧
    (takeRx 68 headed).ownNum (wordAt (punty 3 3 []) 2).toNat = (takeRx 68 headed).engFrameNum ∧
    ((takeRx 68 headed).twin.recDone.any fun r => r.1 == 0) = false ∧ (takeRx 68 headed).injArmed P.TWIN 7 = false ∧ 3 ≤ headed.time.bnds ∧
    (∀ f, headed.twinFrame 1 = some f → f.recd = none) ∧ (holdingOn headed).sched.holding = true ∧ (holdingOn headed).isPartner = true ∧
    (takeRx 68 (twin 2)).puntyGood 0 4 264 (punty 4 5 (List.replicate 66 0)) 0 ∧ (takeRx 68 (twin 2)).twinSt = 2 ∧
    fget (wordAt (punty 4 5 (List.replicate 66 0)) 1) ⟨13, 11⟩ = 5 := by
  refine ⟨by decide, by decide, by decide, by decide, by decide, by decide, ?_, by decide, by decide, by decide, by decide, by decide⟩
  intro f h
  have : headed.twinFrame 1 = none := by decide
  rw [this] at h
  cases h

set_option maxRecDepth 40000 in
/-- Commands of the pair in their states, and the messages that answer them. -/
theorem witness_authority : (twin 5).obeys .host P.TWIN ∧ (twin 3).obeys .host P.TWIN ∧ (twin 6).obeys .host P.TWIN ∧
    ((twin 5).arrive .host P.TWIN).twinSt = 5 ∧ ((twin 5).arrive .host P.TWIN).side = 0 ∧ ((twin 3).arrive .host P.TWIN).twinSt = 3 ∧
    ((twin 6).arrive .host P.TWIN).twinSt = 6 ∧ (pl A.TWIN_STAT F.TWIN_STAT_FAILOVER 1 (twin 2)).get A.TWIN_STAT F.TWIN_STAT_FAILOVER = 1 ∧
    (twin 2).peerSeen = false ∧ (takeRx 68 (twin 5)).puntyGood 0 5 0 (punty 5 3 []) 0 ∧ (takeRx 68 (twin 3)).puntyGood 0 6 0 (punty 6 5 []) 0 ∧
    (let t : State := { twin 3 with twin := { (twin 3).twin with take := some (0, false) } }
     (takeRx 68 t).twin.take = some (0, false) ∧ (wordAt (punty 6 5 []) 2).toNat = 0) ∧
    (let t : State := { twin 5 with twin := { (twin 5).twin with takeDue := true } }
     t.isPartner = true ∧ t.twin.takeDue = true) ∧
    (let t : State := { headed with twin := { headed.twin with take := some (0, true) } }
     t.twin.take = some (0, true) ∧ t.pairNum t.frameNum = (0 + 1) % 2 ^ 32) := by decide

/-! ### Temperature, calibration, self-test and debug -/

/-- Sensor 0 after good samples at 20.0 °C, or failed; RATE mode with cluster 0 in its hold; the clocks at another depth. -/
def sensed (x : SensorSt) (fail : Nat) : State := (pl (A.LEHR_SENSOR 0) F.LEHR_SENSOR_FAILED fail s0).setSensor 0 x
def glideAt (g d : Nat) : State := let s := pl A.LEHR_STAT F.LEHR_STAT_D d s0
  { s with lehr := { s.lehr with glide := g } }

/-- A reading that is good, one that is not, and two in a row at the shut-down level, of a sensor that is due. -/
theorem witness_sensors : (let w := reach (s0.sampleDue 0) s0
      w.sampleDue 0 ≤ w.nowNs ∧ w.calHeld ≠ some 0 ∧ w.failed 0 = false ∧ (judgeSample 0 (some 320) w).1 = 0 ∧ (judgeSample 0 none w).1 ≠ 0 ∧
      w.injArmed P.LEHR 2 = false ∧ w.level F.LEHR_LEVELS_SHUTDOWN ≤ w.level F.LEHR_LEVELS_SHUTDOWN) ∧
    (let s := sensed SensorSt.init 1
     (reach (s.sampleDue 0) s).failed 0 = true) ∧
    (let s : State := { pl A.CAL_STAT F.CAL_STAT_BUSY 1 s0 with cal := { s0.cal with op := 1 }, time := { s0.time with t := 2000000 * 2 ^ 32 } }
     (reach (s.sampleDue 0) s).calHeld = some 0) := by decide +kernel

/-- A glide up and down and at its end, and a RATE demand whose hold has passed. -/
theorem witness_sensor_times : (∀ g ∈ [0, 2, 4], (let w := reach ((later (glideAt g 2)).lehr.glideAt + 10000) (later (glideAt g 2))
      w.lehr.glide = g ∧ w.depth = 2 ∧ w.lehr.glideAt + 10000 ≤ w.nowNs)) ∧
    (let s : State := later { pa A.LEHR_CTRL F.LEHR_CTRL_MODE 1 s0 with lehr := { s0.lehr with holdAt := [(0, 5)] } }
     let w := reach (s.holdDue 0) s
     w.rateMode = true ∧ w.holdOver 0 = true) := by decide +kernel

set_option maxRecDepth 20000 in
theorem witness_restore : ((sensed ⟨none, none, 0, 16, 0⟩ 1).arrive .host P.LEHR).failed 0 = true ∧
    16 ≤ (((sensed ⟨none, none, 0, 16, 0⟩ 1).arrive .host P.LEHR).sensor 0).good ∧ (s0.arrive .host P.LEHR).failed 0 = false ∧
    s0.obeys .host P.LEHR := by decide

/-- A calibration of each kind in progress, one whose results wait, and a lane with a spare slice. -/
def calibrating (op : Nat) : State := let s := pl A.CAL_STAT F.CAL_STAT_BUSY 1 s0
  { s with cal := { s.cal with op := op } }

theorem witness_calibrations : s0.obeys .host P.CAL ∧ (s0.arrive .host P.CAL).get A.CAL_STAT F.CAL_STAT_BUSY = 0 ∧
    ((calibrating 1).arrive .host P.CAL).get A.CAL_STAT F.CAL_STAT_BUSY = 1 ∧ (s0.arrive .host P.CAL).offline (P.LANE 69) = false ∧
    (pl (H.PAGE_STAT (P.LANE 69)) ⟨29, 29⟩ 1 s0).offline (P.LANE 69) = true ∧ (calibrating 1).get A.CAL_STAT F.CAL_STAT_BUSY = 1 ∧
    ({ s0 with cal := { s0.cal with due := true } } : State).cal.due = true := by decide

/-- Measurements: SENSORS in and out of its range, TIMEBASE with and without its reference; their times have passed, or the device starts. -/
def measure (uv : Nat) (ref : Bool) : CalMeasure := ⟨uv, List.replicate 24 0, ref, 100, 50, [], [], [], []⟩
theorem witness_cal_times : (∀ op ∈ [1, 2, 3], ∀ m ∈ [measure 1250000 true, measure 1300000 false],
      (let s := later (calibrating op)
       let w := reach (s.calDue m) s
       s.get A.CAL_STAT F.CAL_STAT_BUSY = 1 ∧ w.calDue m ≤ w.nowNs ∧ (calApplyOp w).cal.op = op)) ∧
    (pl A.GAFFER_BOOT_STAT F.GAFFER_BOOT_STAT_STAGE 1 s0).stage = 1 := by decide +kernel

/-- A lane whose eye is to be measured, with spare slices and without. -/
theorem witness_eye : ∀ n ∈ [0, 2], (let s := pl (A.LANE_STAT 0) F.LANE_STAT_SPARE_SLICES n (pa (A.LANE_CTRL 0) F.LANE_CTRL_EYE_EN 1 s0)
    let x := reach (s.eyeDue 0) s
    x.actF (A.LANE_CTRL 0) F.LANE_CTRL_EYE_EN ≠ 0 ∧ x.offline (P.LANE 0) = false ∧ x.eyeDue 0 ≤ x.nowNs ∧
    x.get (A.LANE_STAT 0) F.LANE_STAT_SPARE_SLICES = n ∧ x.injArmed (P.LANE 0) 0 = false) := by decide +kernel

/-- The DMX unit out of service with a slice asked for, and a slice in progress there. -/
def sliceAsked : State := pl A.GLORY_CTRL F.GLORY_CTRL_EN 1 (pl (H.ST_CTRL P.DMX) ⟨0, 0⟩ 1 (pl (H.PAGE_STAT P.DMX) ⟨29, 29⟩ 1 s0))
def slicing : State := { s0 with dbg := { s0.dbg with slice := some ⟨0, P.DMX, 64, false, false⟩ } }
def measured (done mism : Nat) (sig : Cell) : SliceMeasure := ⟨done, 100, sig, 7, mism, 0, 0, 0⟩

set_option maxRecDepth 40000 in
theorem witness_slices : sliceAsked.dbg.slice = none ∧ sliceAsked.get A.GLORY_CTRL F.GLORY_CTRL_EN ≠ 0 ∧
    (allPages.find? fun p => bitOf (sliceAsked.rd (H.ST_CTRL p)) 0 && sliceAsked.testable p) = some P.DMX ∧
    sliceAsked.injArmed P.GLORY 1 = false ∧ slicing.dbg.slice = some ⟨0, P.DMX, 64, false, false⟩ ∧ (64 : Nat) / 64 ≠ 2 ∧
    (measured 50 0 7).done < (measured 50 0 7).total ∧ (measured 100 0 7).total ≤ (measured 100 0 7).done ∧
    (measured 100 0 7).sig = (measured 100 0 7).golden ∧ (measured 100 0 6).sig ≠ (measured 100 0 6).golden ∧ (128 : Nat) / 64 = 2 ∧
    (measured 100 3 7).mismatches ≠ 0 ∧ slicing.sliceDue ≤ (reach slicing.sliceDue slicing).nowNs := by decide

/-- A repair and fuses: in MANUFACTURING and FIELD, with an image that runs. -/
def fused : State := { inLife 2 with gaffer := { s0.gaffer with started := true, image := ⟨0, 0, 0, 1, 0, 5⟩ } }

theorem witness_fuses (h : Config.gloryInfo P.DMX = 0x10100) : let s := pl (H.PAGE_STAT P.DMX) ⟨29, 29⟩ 1 (inLife 1)
    s.obeys .host P.GLORY ∧ (blkOf P.DMX).isSome = true ∧ 0 < memCount P.DMX ∧ (s.arrive .host P.GLORY).offline P.DMX = true ∧
    (s.arrive .host P.GLORY).sliceOn P.DMX = false ∧ (s.arrive .host P.GLORY).life = 1 ∧
    ((s.arrive .host P.GLORY).repairsOf P.DMX 0 false).length < 2 ∧
    2 ≤ ({ s with dbg := { s.dbg with repairs := List.replicate 2 ⟨P.DMX, 0, false, 0, false, false⟩ } }.repairsOf P.DMX 0 false).length := by
  refine ⟨by decide, by decide, (witness_section h).2, by decide, by decide, by decide, by decide, by decide⟩

theorem witness_fuse_writes : fused.obeys .host P.LIFE ∧ (fused.arrive .host P.LIFE).dbg.fuse = none ∧
    (fused.arrive .host P.LIFE).get A.LIFE_STATE F.LIFE_STATE_NEXT = 2 ∧ (fused.arrive .host P.LIFE).life = 2 ∧
    fget (fput (fput 0 F.LIFE_ADVANCE_KEY 0x6C1E) F.LIFE_ADVANCE_TARGET 3) F.LIFE_ADVANCE_KEY = 0x6C1E ∧
    fget (fput (fput 0 F.LIFE_ADVANCE_KEY 0x6C1E) F.LIFE_ADVANCE_TARGET 3) F.LIFE_ADVANCE_TARGET = 2 + 1 ∧
    fget (fput (fput 0 F.LIFE_REVOKE_KEY 0x6C1E) F.LIFE_REVOKE_SLOT 3) F.LIFE_REVOKE_SLOT = 3 ∧
    fused.gaffer.image.keySlot ≠ 3 ∧ fused.get A.LIFE_MIN_SEC_VER F.LIFE_MIN_SEC_VER_MIN + 1 ≤ fused.gaffer.image.secVer ∧
    fget 0 F.LIFE_ADVANCE_KEY ≠ 0x6C1E ∧ burning.power.rstWait = false ∧ burning.dbg.fuse = some .secBump := by decide

theorem witness_freeze_begins : s0.obeys .host P.DEBUG ∧ (s0.arrive .host P.DEBUG).life = 2 ∧ ((inLife 3).arrive .host P.DEBUG).life = 3 ∧
    fget (fput (fput 0 F.DEBUG_FREEZE_KEY 0x7A5C) F.DEBUG_FREEZE_GO 1) F.DEBUG_FREEZE_KEY = 0x7A5C ∧
    fget (fput (fput 0 F.DEBUG_FREEZE_KEY 0x7A5C) F.DEBUG_FREEZE_GO 1) F.DEBUG_FREEZE_GO = 1 ∧
    fget (fput 0 F.DEBUG_FREEZE_KEY 0x7A5C) F.DEBUG_FREEZE_GO = 0 ∧ s0.injArmed P.DEBUG 31 = false ∧ s0.runs ∧ s0.life = 2 ∧
    frozen.power.mode = .frozen ∧ frozen.life = 2 ∧ frozen.dbg.tapChain = 0 ∧ (held true).power.rstLow = true ∧
    s0.power.rstLow = false ∧ s0.power.mode ≠ .frozen := by decide

/-! ### The invariant -/

/-- A state other than that of reset meets the invariant, and a step of it answers a next state. -/
theorem witness_invariant : framed.Inv ∧ step framed = .next { framed with
    time := { framed.time with t := framed.time.t + framed.time.incr, ticks := framed.time.ticks + 1 } } := by
  refine ⟨⟨⟨?_, ?_⟩, ?_⟩, ?_⟩
  · decide +kernel
  · decide +kernel
  · intro b h
    cases h
  · rfl

/-! ### Well-formed commands -/

/-- One command outside the range of each check. -/
def illFormed : List Instr := [
  .registerWrite .host 0x1000 0x80 ⟨0, 0⟩, .registerWrite .host 0 0x82 ⟨0, 0⟩, .registerRead .host 0 0x1000, .registerRead .host 0xFFF 0x80,
  .rwsWrite .host 0xFFF 0x80 0, .pairLoRead .host 0 0x81, .pairLoWrite .host 0 0x81 0, .pairHiWrite .host 0 0x81 0,
  .rcCounterRead .host 0 0x81, .unmappedAccess .host 0 0x80 true, .unmappedAccess .host 0x1000 0x80 true, .refusedAccessWidth .host 0xFFF 0x80 true,
  .refusedAccessWidth .host 0 0x1000 true, .pageRst .host 0xFFF, .withdraw .host 0xFFF, .withdrawTakesEffect 0xFFF, .blockReturn .host 0xFFF,
  .pageReturnToService 0xFFF, .evtInjArm .host 0xFFF 0, .accessAbandon .host 0xFFF true, .blockClockRestart 0xFFF, .pageSealAck 0xFFF,
  .pageRstDone 0xFFF, .stAbort .host 0xFFF, .stReq .host 0xFFF 0, .stReq .host 0 256, .row .host 0x1000 0, .column .host 0 256,
  .fuse .host 0x1000 0, .streamTimeout (.flow 256), .streamTimeout (.dmx 16), .pinGlitch (.cap 8), .pinGlitch (.dmx 16), .pllLockLost 7,
  .pllLockRegained 7, .arm .host 4096, .slotCancel .host 4096 none, .pset .host 4096 0, .pclr .host 4096 0, .slotQuery .host 4096,
  .delayExpire 4096, .affinityWindowExpire 4096]

/-- The same for the commands after the scheduler's. -/
def illFormed2 : List Instr := [
  .jobComplete 16, .lsEccError 16 0 true, .layerDeadline 16, .portFrameReceive 71 ⟨.frame, [], false, false, false⟩, .pauseHoldEnd 71,
  .xoffPauseRefresh 71, .flowMatch 71 ⟨false, 0, 0, 0, 0, false, []⟩, .portFrameSent 71, .linkUp 71 1 0, .linkDown 71, .verifyTimeout 64,
  .renegTimeout 64, .videoPacket 256 ⟨false, 0, false, 0, 0, true, false, []⟩, .hostPost .host 256 0, .sacnDataPacket 256 (dataPacket 0 0),
  .sacnSyncPacket 256 ⟨8, 1, 0, 0⟩, .sacnSourceExpire 256 0 0, .levels 256 [] 0, .flags 256 [] 0, .timecode 256 [] 0, .user 256 [] 0,
  .resetFix .host 262144, .telLost 262144, .engineFrameStart 8, .underrunPoint 8, .engineLatchPoint 8, .directBase .host 8 0,
  .scanWalkResume 8 0, .scanWalkResume 0 8, .levelFrameFlush 0 8, .sendEnd 8 0, .delayReq 64 [], .telemetry 64 [], .hkFrame 64 [],
  .setStateChange 4096, .setHoldComplete 4096, .force .host 4096, .rearm .host 4096, .setsQuery .host 4096, .dataLoPop .host 16,
  .dropPkt .host 16, .flush .host 16]

/-- The same for the rest. -/
def illFormed3 : List Instr := [
  .dmxPacketStart 16, .dmxInputPacketEnd 16 ⟨0, [], false, false⟩, .dmxPacketEnd 16, .triggerPulse 16, .triggerPulseEnd 16,
  .ptpAnnounce 2 (announce 0), .ptpSync 2 ⟨64, 0, false, 0, 0, 0, false, 0, 0, 0⟩,
  .ptpFollowUp 2 ⟨0, 0, false, 0, 0, 0, 0, 0⟩, .ptpDelayResp 2 ⟨0, 0, false, 0, 0, 0, 0, 0, 0⟩,
  .ptpDelayReqSend 2, .ptpDomainLost 2, .captureEdge 8 true, .capturePop .host 8, .riseHoldExpire 8, .hello 2 [], .head 2 [],
  .recMsg 2 [] [], .ack 2 [], .takeMessage 2 [], .takeOk 2 [], .sensorSample ⟨24, none⟩, .restore .host 24, .calLane .host 70,
  .eyeMeasure 70 0 0, .jackReloadDone 8, .freezeClockStop 9 0 true, .msixVectorUnmask 64, .bar2Write (2 ^ 28) [0], .bar2Read (2 ^ 28) 1,
  .gafferMemoryAccess (2 ^ 35) 1 none, .gafferMemoryAccess 0 2 (some [0])]

theorem test_ill_formed : ∀ c ∈ illFormed, c.wf = false := by decide
theorem test_ill_formed2 : ∀ c ∈ illFormed2, c.wf = false := by decide
theorem test_ill_formed3 : ∀ c ∈ illFormed3, c.wf = false := by decide

/-- The last values that each range admits. -/
theorem test_well_formed : ∀ c ∈ [Instr.registerWrite .host 0 0xFFC ⟨0, 0⟩, .unmappedAccess .host 0xFFF 0xFFF true, .arm .host 4095, .linkUp 70 1 0,
    .verifyTimeout 63, .scanWalkResume 7 7, .telLost 262143, .freezeClockStop 8 0 true, .bar2Read (2 ^ 28 - 1) 1, .frameBoundary,
    .gafferMemoryAccess 0 1 (some [0])], c.wf = true := by decide

/-! ### Results that the manual works out -/

/-- 00_scope.md, "comparing wrapped sequence numbers": 5 is later than 0xFFFF_FFF0, and a duplicate is not. -/
theorem test_later_wraps : earlier 0xFFFFFFF0 5 = true ∧ earlier 0xFFFFFFF0 0xFFFFFFF0 = false ∧ earlier 5 0xFFFFFFF0 = false := by decide

/-- R199: with I_MIN 300, I_MAX 3,000 and DUTY_MIN 64, level 1,000 gives duty 10,000, and level 5 gives 50, which becomes 64. The
wash light's levels 22,404 and 58,278 give codes 1,026 and 2,668, and its level 65,535 gives 3,000 and 65,535. -/
theorem test_hybrid_split : let m : Emitter := ⟨0, 0, 0, 0, 64, 3000, 300, 1⟩
    splitLevel m true 1000 = (300, 10000, false) ∧ splitLevel m true 5 = (300, 64, true) ∧ splitLevel m true 22404 = (1026, 65509, false) ∧
    splitLevel m true 58278 = (2668, 65530, false) ∧ splitLevel m true 65535 = (3000, 65535, false) := by decide +kernel

/-- 06_marver.md, "the stack of one ring light": the capacity at 1.0 GHz and 60 Hz; 13_thermal_calibration.md: the solver's at D = 22. -/
theorem test_capacity : marverCap 10000 16666667 240 = 125000002 ∧ solverCap 8250 16666667 233 = 25029297 := by decide

/-- R353, R354: after the last frame of a minute in 29.97 drop frame the labels 0 and 1 are dropped, but for each tenth minute. -/
theorem test_drop_frame : tcNext 0x00005929 2 = 0x00010002 ∧ tcNext 0x00095929 2 = 0x00100000 ∧ tcNext 0x23595929 3 = 0 := by decide

set_option maxRecDepth 20000 in
/-- R27: an access to an unassigned page is counted with its page; R28: a refused width is recorded with code 0xFE. -/
theorem test_unmapped : (match exec (.unmappedAccess .gaffer 0x200 0x10 false) s0 with
    | .next t => decide (t.get A.SYS_UNMAPPED F.SYS_UNMAPPED_COUNT = 1 ∧ t.get A.SYS_UNMAPPED F.SYS_UNMAPPED_PAGE = 0x200 ∧ t.rf.gafferReply = .data 0)
    | _ => false) = true := by decide

/-- 13_thermal_calibration.md, "the hottest sensor fails while throttling": readings of 102.5, 101.0 and 99.5 °C give D = 9; sensor 6
giving no result fails, the floor is 9, and D becomes 22. -/
def readings : List SensorReading := [⟨8, some 1592⟩, ⟨7, some 1616⟩, ⟨6, some 1640⟩]
theorem test_throttle : let s := readings.foldl (fun (s : State) x => match exec (.sensorSample x) s with | .next t => t | _ => s) s0
    s.depth = 9 ∧ (match exec (.sensorSample ⟨6, none⟩) (later s) with
      | .next t => decide (t.depth = 22 ∧ t.get A.LEHR_STAT F.LEHR_STAT_FLOOR = 9 ∧ t.failed 6 = true)
      | _ => false) = true := by decide +kernel

/-- 03_raster_memory.md, "one six-emitter wash light": the build writes the cell-map entry 0x2001_119B of cell 144,560. -/
def washMap : State := { pl (A.MAPS_PROFILE_A 5) ⟨31, 0⟩ 0x1C s0 with mem := [(70043 * 16, 0xB0), (70043 * 16 + 1, 0x34), (70043 * 16 + 2, 2),
  (70043 * 16 + 4, 3), (70043 * 16 + 8, 0x42), (70043 * 16 + 9, 1), (70043 * 16 + 11, 5)] }
theorem test_build_entry : ((buildFix 0 0x4000000 ⟨washMap, ⟨0, 0, 0, 0, 0, 0, 0, none⟩⟩ 70043).s.mem32 (0x4000000 + 144560 * 4) = 0x2001119B) ∧
    ((buildFix 0 0x4000000 ⟨washMap, ⟨0, 0, 0, 0, 0, 0, 0, none⟩⟩ 70043).s.mem32 (0x4000000 + 144561 * 4) = 0xE005119B) := by decide +kernel

set_option maxRecDepth 20000 in
/-- R84: FREE of an IDLE buffer ends with result DONE, of an EMPTY one with REJ_STATE. -/
theorem test_free : (match exec (.free .host) (withBuf 0 false false [] s0) with | .next t => decide (t.buf 0 = none) | _ => false) = true := by decide

end Sys2Proof.Tests
end

section
/-!
PROOFS. Register writes (R21, R28, R30, R31, R33, R50, R51), the boundary (R9 to R17, R23) and the clocks (R6 to R8, R20, R469).
-/
namespace Sys2Proof.Machine

/-! ### Writes to shadowed registers -/

/-- RWS_WRITE and REGISTER_WRITE above a page's header are the same access (R28, R33). -/
theorem writeCommands_of {s u : State} {r : Req} {p o : Nat} {v met : Word} (ho : 0x80 ≤ o) (h : running (regWrite r p o v) s = u) :
    exec (.rwsWrite r p o v) s = .next (finish s u) ∧ exec (.registerWrite r p o ⟨v, met⟩) s = .next (finish s u) :=
  ⟨gated_of h, (registerWrite_access (fun e => by omega)).trans (gated_of h)⟩

/-- Judging a word leaves every set of shadowed registers, memory, the leases and the commit machinery (R21, R53). -/
theorem State.judge_keeps (s : State) (a : Nat) (w : Word) :
    let t := (s.judge a w).2
    t.rf.shadow = s.rf.shadow ∧ t.rf.pend = s.rf.pend ∧ t.rf.active = s.rf.active ∧ t.mem = s.mem ∧ t.lease = s.lease ∧
      t.commit = s.commit := by
  obtain ⟨m, x, hlive⟩ := s.judge_live a w
  rw [hlive]
  exact ⟨rfl, rfl, rfl, rfl, rfl, rfl⟩

/-- Settles O12: a word that passes is stored as `shadowStore_spec` says, and one that is rejected leaves what judging leaves. -/
theorem aShadowedWriteLandsInTheShadowSetAlone : Obligations.AShadowedWriteLandsInTheShadowSetAlone := by
  unfold Obligations.AShadowedWriteLandsInTheShadowSetAlone
  constructor <;> intro s r p o v met d hreach ho ho' hd hrws hp a x j
  all_goals
    obtain ⟨jshadow, jpend, jactive, jmem, jlease, jcommit⟩ := a.judge_keeps x (d.merge (a.shd x) v)
  · intro w hw u
    have hrun : running (regWrite r p o v) s = u := by
      rw [regWrite_shadowed hreach ho ho' hd hrws hp, show (a.judge x (d.merge (a.shd x) v)).1 = some w from hw]
    obtain ⟨hrwsExec, hregExec⟩ := writeCommands_of (met := met) ho hrun
    obtain ⟨hword, hothers, hpend, hactive, hmem, hlease, hcommit⟩ := shadowStore_spec p x w r j.2
    exact ⟨hrwsExec, hregExec, hword, fun b hb hf => (hothers b hb hf).trans (congrArg (amGet resetOf · b) jshadow),
      hpend.trans jpend, hactive.trans jactive, hmem.trans jmem, hlease.trans jlease, hcommit.trans jcommit⟩
  · intro hrejected u
    have hrun : running (regWrite r p o v) s = u := by
      rw [regWrite_shadowed hreach ho ho' hd hrws hp, show (a.judge x (d.merge (a.shd x) v)).1 = none from hrejected]
    obtain ⟨hrwsExec, hregExec⟩ := writeCommands_of (met := met) ho hrun
    obtain ⟨hpend, hshadow, hactive, hcommit, hmem, hlease, -, -⟩ := State.reply_spec j.2 r .done
    exact ⟨hrwsExec, hregExec, hshadow.trans jshadow, hpend.trans jpend, hactive.trans jactive, hmem.trans jmem,
      hlease.trans jlease, hcommit.trans jcommit⟩

/-! ### Writes that take effect at once -/

/-- A register that is no half of a pair takes the word that its checks let pass, or nothing is stored (R21, R30). -/
theorem plainWrite_single {r : Req} {d : RegDef} (hp : d.pair = .single) (a : Nat) (w : Word) (s : State) :
    plainWrite r d a w s = (match (s.judge a (d.merge (s.rd a) w)).1 with
      | some v => ((s.judge a (d.merge (s.rd a) w)).2.wr a v).irqSync
      | none => (s.judge a (d.merge (s.rd a) w)).2) := by
  have hhi : d.pair ≠ .hi := by rw [hp]; decide
  unfold plainWrite
  simp only [hhi, if_false]
  cases (s.judge a (d.merge (s.rd a) w)).1 <;> rfl

/-- A REGISTER_WRITE of the header, but of EVT_STAT, takes its register's effect at once (R31). -/
theorem registerWrite_header {s : State} {r : Req} {p o : Nat} {v met : Word} (h : s.runs) (hb : blkOf p ≠ none)
    (ho : o ∈ [0x014, 0x01C, 0x028]) :
    exec (.registerWrite r p o ⟨v, met⟩) s = .next (finish s ((shellWrite r p o v (s.tlp r)).reply r .done)) := by
  simp only [List.mem_cons, List.not_mem_nil, or_false] at ho
  refine (registerWrite_access (fun e => ?_)).trans (gated_of (regWrite_header h hb ?_ v))
  · omega
  · rcases ho with rfl | rfl | rfl <;> decide

/-- Clearing events ends no fault, where bit 1 is not cleared or the page has no fault behind it; an event that the block sets in the
cycle of the write stays 1, and its merging is recorded (R50, R51, R91, R132). -/
theorem evtClear_spec {p : Nat} {v met : Word} {t : State} :
    let both := v &&& met &&& t.rd (H.EVT_STAT p)
    (bitOf (v &&& ~~~ both) 1 = false ∨ (blkOf p ≠ some .mem ∧ blkOf p ≠ some .bench)) →
    evtClear p v met t = ((t.wr (H.EVT_MERGED p) (t.rd (H.EVT_MERGED p) ||| both)).wr (H.EVT_STAT p)
      (t.rd (H.EVT_STAT p) &&& ~~~ (v &&& ~~~ both))).irqSync := by
  intro both hfault
  have hstat : (t.wr (H.EVT_MERGED p) (t.rd (H.EVT_MERGED p) ||| both)).rd (H.EVT_STAT p) = t.rd (H.EVT_STAT p) :=
    State.rd_wr_ne _ _ (by unfold H.EVT_STAT H.EVT_MERGED; omega)
  have hno : ¬ (bitOf (v &&& ~~~ both) 1 = true ∧ (blkOf p = some .mem ∨ blkOf p = some .bench)) := by
    rintro ⟨hbit, hblk⟩
    rcases hfault with h | ⟨hmem, hbench⟩
    · rw [h] at hbit; exact absurd hbit (by decide)
    · exact hblk.elim hmem hbench
  unfold evtClear
  dsimp only
  rw [if_neg hno, hstat]

/-- Settles O14: above the header a register acts or stores its judged word; in it each register has its own rule. -/
theorem aRegisterWriteTakesEffect : Obligations.ARegisterWriteTakesEffect := by
  unfold Obligations.ARegisterWriteTakesEffect
  constructor
  · intro s r p o v met d hreach ho ho' hd hro hrws hp a x j
    have hlo : d.pair ≠ .lo := by rw [hp]; decide
    have hexec {u : State} (h : running (regWrite r p o v) s = u) :
        exec (.registerWrite r p o ⟨v, met⟩) s = .next (finish s u) := (writeCommands_of ho h).2
    constructor
    · intro hstores
      have hrun := plainWrite_reaches hreach ho ho' hd hro hrws hlo hstores
      rw [plainWrite_single hp] at hrun
      constructor
      · intro w hw
        rw [show (a.judge x (d.merge (a.rd x) v)).1 = some w from hw] at hrun
        exact hexec hrun
      · intro hrejected
        rw [show (a.judge x (d.merge (a.rd x) v)).1 = none from hrejected] at hrun
        exact hexec hrun
    · intro t hacts
      exact hexec (regWrite_acts hreach o ho ho' v hd hro hlo hrws hacts)
  · intro s r p v met hruns hb t both
    refine ⟨registerWrite_header hruns hb (by decide), registerWrite_header hruns hb (by decide),
      registerWrite_header hruns hb (by decide), fun hfault => ?_⟩
    refine (registerWrite_evtStat (Option.isSome_iff_ne_none.mpr hb)).trans ((gated_runs hruns _).trans (finish_congr ?_))
    exact congrArg (State.reply · r .done) (evtClear_spec hfault)

/-! ### The boundary and the timeouts it leaves due -/

/-- STREAM_TIMEOUT on a device that runs takes the stream's record (R23). -/
theorem streamTimeout_runs {s : State} (h : s.runs) (st : Stream) : exec (.streamTimeout st) s = .next (finish s (streamRecord st s)) :=
  gated_runs h _

/-- A timeout that the newest boundary did not leave due has no record (R23). -/
theorem streamRecord_not_due {s : State} {st : Stream} (h : s.time.due.contains st = false) : streamRecord st s = s := by
  have hd : ¬ s.time.due.contains st = true := by rw [h]; decide
  cases st <;> exact if_neg hd

/-- Boundary N as the sequence of its parts (R9 to R17, R349). -/
theorem frameBoundaryOp_eq (s : State) : frameBoundaryOp s =
    (let n := s.nextFrame
     let a := markBoundary n (latchesPass (headElapsed (updateElapsed (frameSteps s))))
     let b := keepMinute (gafferBoundary (step2Due ((sliceElapsed a).wr A.SYS_FRAME_NUM (w32 n))))
     let c := if s.time.bnds = 0 then b else frameEnd s.frameNum b
     let d := inputCut n (trigBoundary (latchBoundary (c.govBy n) n c.time.period c))
     let e := twinBoundary (syncElapsed { d with lease := { d.lease with substFrame := false } })
     let f := schedBoundary n (e.timecodeOf n) (e.timecodeSrc n) e
     twinDigests (f.epochBy n) (f.govBy n) f) := by
  unfold frameBoundaryOp
  simp only [decide_eq_true_eq]

/-- Settles O23: the boundary is its parts in order, `markBoundary_spec` and `flowsElapsed_spec` say what two of them do, and a timeout's
record is taken where it is due. -/
theorem aBoundaryDoesItsWorkInOrder : Obligations.ABoundaryDoesItsWorkInOrder := by
  unfold Obligations.ABoundaryDoesItsWorkInOrder
  refine ⟨fun s hruns => (gated_runs hruns _).trans (finish_congr (frameBoundaryOp_eq s)), fun s n => markBoundary_spec n s,
    fun s f hlive htype helapsed => flowsElapsed_spec hlive htype helapsed, fun s hruns => ?_⟩
  have hrecord (st : Stream) {u : State} (h : streamRecord st s = u) : exec (.streamTimeout st) s = .next (finish s u) :=
    (streamTimeout_runs hruns st).trans (finish_congr h)
  exact ⟨fun f hdue => hrecord (.flow f) (if_pos hdue), fun n hdue => hrecord (.dmx n) (if_pos hdue),
    fun hdue => hrecord .genlock (if_pos hdue), fun hdue => hrecord .ltc (if_pos hdue),
    fun st hdue => hrecord st (streamRecord_not_due hdue)⟩

/-! ### Clocks and pins -/

/-- A write of FREQ_SEL that no check stops, with no injection armed into the guard of its page, starts a gate (R8, R21). -/
theorem freqWrite_good {v : Word} {s : State} (hi : s.injArmed P.CLK 31 = false)
    (hj : judgeWord (clkChecks 0x084 (v &&& 0x007F000F)) false (v &&& 0x007F000F) = ⟨some (v &&& 0x007F000F), []⟩) :
    freqWrite v s = freqSelect (v &&& 0x007F000F) s := by
  have hpage : A.CLK_FREQ_SEL / 0x1000 = P.CLK := by decide
  unfold freqWrite State.judge
  simp only [hpage, checks_clk, hi, Bool.and_false, hj, Bool.false_eq_true, if_false, State.guardActs, List.isEmpty_nil, if_true,
    Bool.not_true, and_false]

/-- A PLL in lock that loses it is shown, counted and reported (R8). -/
theorem pllLostOp_locked {k : Nat} {s : State} (hk : k < 7) (hl : bitOf (s.rd A.CLK_PLL_STAT) k = true) :
    pllLostOp k s = clkFault (((s.put A.CLK_PLL_STAT ⟨k, k⟩ 0).inc A.CLK_LOCK_LOST).raise P.CLK 0) :=
  if_neg (by rw [hl]; simpa using hk)

/-- A lock after every PLL has locked once shows that PLL's lock alone (R8). -/
theorem pllRegainedOp_again {k : Nat} {s : State} (hk : k < 7) (ho : s.power.pllOnce = true) :
    pllRegainedOp k s = clkFault (s.put A.CLK_PLL_STAT ⟨k, k⟩ 1) := by
  have hnot : ¬ 7 ≤ k := by omega
  unfold pllRegainedOp
  simp [hnot, ho]

/-- A reference in use that is lost is left, counted and reported (R469). -/
theorem refclkAbsentOp_inUse {s : State} (h : s.get A.CAL_REF_STAT F.CAL_REF_STAT_IN_USE = 1) :
    refclkAbsentOp s = calTrim (((({ s.wr A.CAL_REF_STAT 0 with power := { s.power with refExt := false } } : State).inc
      A.CLK_REF_MOVES).raise P.CLK 1)) := by
  unfold refclkAbsentOp
  simp only [h, beq_self_eq_true, if_true]
  rfl

/-- A pulse that a pin's filter removes is recorded in the page that owns the pin (R20, R466). -/
theorem pinGlitch_of {s u : State} {pin : Pin} (h : pinGlitchOp pin s = u) : exec (.pinGlitch pin) s = .next (finish s u) :=
  finish_congr h

/-- Settles O24: each command of the clock unit by its own rule, and every pin's record on a device that runs. -/
theorem clocksAreMeasuredAndWatched : Obligations.ClocksAreMeasuredAndWatched := by
  unfold Obligations.ClocksAreMeasuredAndWatched
  intro s hruns
  have hact (c : Instr) (f : State → State) {u : State} (hc : exec c s = gated f s) (h : f s = u) :
      exec c s = .next (finish s u) := (hc.trans (gated_runs hruns f)).trans (finish_congr h)
  refine ⟨fun r v hobeys hj => ?_, fun c hdown => hact _ (freqGateEndOp c) rfl (if_pos hdown),
    fun c hup => hact _ (freqGateEndOp c) rfl (if_neg (by rw [hup]; decide)),
    fun k hk hl => hact _ (pllLostOp k) rfl (pllLostOp_locked hk hl),
    fun k hk ho => hact _ (pllRegainedOp k) rfl (pllRegainedOp_again hk ho),
    fun huse => hact _ refclkAbsentOp rfl (refclkAbsentOp_inUse huse), pinGlitch_of rfl, ?_⟩
  · obtain ⟨hreach, hguard⟩ := hobeys
    refine gated_of ((regWrite_clk hreach v).trans ?_)
    rw [freqWrite_good hguard hj]
    rfl
  · have hguard (pin : Pin) {p code : Nat} {field : Option Nat}
        (h : pinGlitchOp pin s = running (fun t => t.guard1 p 28 code field) s) :
        exec (.pinGlitch pin) s = .next (finish s (s.guard1 p 28 code field)) :=
      pinGlitch_of (h.trans (running_runs hruns _))
    exact ⟨hguard .rstN rfl, hguard .frzN rfl, hguard .genlock rfl, hguard .ltc rfl, fun c => hguard (.cap c) rfl,
      fun n => hguard (.dmx n) rfl⟩

end Sys2Proof.Machine
end

section
/-!
PROOFS. What the proofs on pages, epochs and resets share.
-/
namespace Sys2Proof.Machine

/-- What a command that acts answers on a device that runs. -/
theorem exec_of_gated {s u : State} {c : Instr} {f : State → State} (h : s.runs) (hc : exec c s = gated f s) (hu : f s = u) :
    exec c s = .next (finish s u) := (hc.trans (gated_runs h f)).trans (finish_congr hu)

/-- What a command that always acts answers. -/
theorem exec_of_always {s u : State} {c : Instr} {f : State → State} (hc : exec c s = always f s) (hu : f s = u) :
    exec c s = .next (finish s u) := hc.trans (finish_congr hu)

/-- Every assigned page lies below page 0x200 (R27). -/
theorem blkOf_unassigned {p : Nat} (h : 0x200 ≤ p) : blkOf p = none := by
  unfold blkOf
  repeat rw [if_neg (by omega)]

end Sys2Proof.Machine
end

section
/-!
PROOFS. The invariants of every step (R58, R59, R85): what settling establishes for every command, and where a tick on an empty queue
keeps it.
-/
namespace Sys2Proof.Machine

/-! ### Settling establishes the invariant -/

/-- Settles O3: nothing is pending, enabled or defined after a reset. -/
theorem resetStateMeetsTheInvariant : Obligations.ResetStateMeetsTheInvariant := by
  unfold Obligations.ResetStateMeetsTheInvariant
  refine ⟨⟨⟨?_, ?_⟩, fun _ hb => absurd hb List.not_mem_nil⟩, rfl, rfl⟩
  · decide
  · decide

/-- The buffers, and all that a lease depends on, stand. -/
def KeepsFrees (s t : State) : Prop := SameLeases s t ∧ t.lease.bufs = s.lease.bufs

theorem KeepsFrees.trans {s t u : State} (h : KeepsFrees s t) (h' : KeepsFrees t u) : KeepsFrees s u :=
  ⟨h.1.trans h'.1, h'.2.trans h.2⟩

theorem LiveOnly.keepsFrees {s t : State} (h : LiveOnly s t) : KeepsFrees s t := by
  obtain ⟨m, x, rfl⟩ := h
  exact ⟨⟨rfl, rfl, rfl, rfl, rfl, rfl⟩, rfl⟩

theorem marverRelease_keepsFrees (s : State) : KeepsFrees s (marverRelease s) := by
  obtain ⟨m, e⟩ := marverRelease_eq s
  rw [e]
  exact ⟨⟨rfl, rfl, rfl, rfl, rfl, rfl⟩, rfl⟩

theorem calHold_keepsFrees (s : State) : KeepsFrees s (calHold s) := by
  obtain ⟨m, x, c, e⟩ := calHold_eq s
  rw [e]
  exact ⟨⟨rfl, rfl, rfl, rfl, rfl, rfl⟩, rfl⟩

theorem KeepsFrees.freesOk {s t : State} (h : KeepsFrees s t) (hs : s.freesOk) : t.freesOk := freesOk_congr h.1 h.2 hs

/-- The queue is no part of the interrupt logic. -/
theorem State.irqOk_pending {s : State} (l : List Instr) (h : s.irqOk) : State.irqOk { s with pending := l } := h

/-- The queue is no part of the leases. -/
theorem State.freesOk_pending {s : State} (l : List Instr) (h : s.freesOk) : State.freesOk { s with pending := l } := h

/-- Settling ends with the interrupt logic. -/
theorem settle_eq (t : State) :
    settle t = (calHold (marverRelease (running carriageSettle t).leaseSweep.hostFreeSync)).irqSync := rfl

/-- The sweep ends the frees whose leases have ended, and what follows it keeps them ended. -/
theorem settle_freesOk (t : State) : (settle t).freesOk := by
  have hkeep (u : State) : KeepsFrees u (calHold (marverRelease u.hostFreeSync)).irqSync :=
    (((State.hostFreeSync_live u).keepsFrees.trans (marverRelease_keepsFrees _)).trans (calHold_keepsFrees _)).trans
      (LiveOnly.keepsFrees (State.irqSync_eq _))
  rw [settle_eq]
  exact (hkeep _).freesOk (State.leaseSweep_freesOk _)

/-- What a command ends in meets the invariant, whatever it did: the sweep ends the frees, and the interrupt logic comes last. -/
theorem finish_inv (s t : State) : (finish s t).Inv := by
  constructor
  · refine State.irqOk_pending s.pending ?_
    rw [settle_eq]
    exact State.irqSync_irqOk _
  · exact State.freesOk_pending s.pending (settle_freesOk t)

/-- Settles O5: every command answers a settled state (`exec_settles`), and settling establishes the invariant. -/
theorem everyCommandAnswersANextState : Obligations.EveryCommandAnswersANextState := by
  unfold Obligations.EveryCommandAnswersANextState
  intro c s
  obtain ⟨t, ht⟩ := exec_settles c s
  exact ⟨finish s t, ht, finish_inv s t, finish_pending s t⟩

/-! ### A tick on an empty queue -/

/-- An idle device in which page CAL (0x181) has an enabled event 23, and which holds as under calibration a sensor that does not exist:
SENSOR[0x384] would lie on CAL's EVT_STAT. -/
def strayHold : State :=
  { State.reset with
    rf := { State.reset.rf with live := [(A.SYS_INT_PEND 12, 2), (H.EVT_STAT P.CAL, 0x800000), (H.EVT_EN P.CAL, 0x800000)] }
    msix := { State.reset.msix with level := 1 <<< 61 }
    cal := { State.reset.cal with held := some 0x384 } }

/-- Refutes O4: the invariant does not bound the sensor held, and a tick that releases sensor 0x384 clears bit 23 of EVT_STAT of page CAL
behind the interrupt logic, so INT_PEND12 shows an interrupt that is pending no longer. -/
theorem not_everyStepKeepsTheInvariant : ¬ Obligations.EveryStepKeepsTheInvariant := by
  unfold Obligations.EveryStepKeepsTheInvariant
  intro h
  have hinv : strayHold.Inv := ⟨⟨by decide, by decide⟩, fun _ hb => absurd hb List.not_mem_nil⟩
  have hirq := (h strayHold (idleTick strayHold) hinv rfl).1.1 12 (by decide)
  exact absurd hirq (by decide)

/-- The sensor held as under calibration is one of the 24 that exist. -/
def State.heldOk (s : State) : Prop := ∀ n ∈ s.cal.held, n < 24

theorem State.calHeld_lt (s : State) : ∀ n ∈ s.calHeld, n < 24 := by
  intro n hn
  unfold State.calHeld at hn
  dsimp only at hn
  split at hn
  · rename_i h
    obtain ⟨-, -, -, hk⟩ := h
    cases hn
    omega
  · cases hn

/-- After its update the sensor held is the one under calibration now. -/
theorem calHold_held (s : State) : (calHold s).cal.held = s.calHeld := by
  unfold calHold
  split
  · exact Eq.symm ‹_›
  · rfl

theorem calHold_heldOk (s : State) : (calHold s).heldOk := by
  unfold State.heldOk
  rw [calHold_held]
  exact s.calHeld_lt

theorem finish_heldOk (s t : State) : (finish s t).heldOk := by
  have hcal : (settle t).cal = (calHold (marverRelease (running carriageSettle t).leaseSweep.hostFreeSync)).cal := by
    rw [settle_eq, State.irqSync_cal]
  have hheld := calHold_heldOk (marverRelease (running carriageSettle t).leaseSweep.hostFreeSync)
  unfold State.heldOk at hheld ⊢
  rw [← hcal] at hheld
  exact hheld

/-- A page with an interrupt pending is assigned. -/
theorem State.pendPages_assigned {s : State} {p : Nat} (h : p ∈ s.pendPages) : p < 0x200 := by
  unfold State.pendPages at h
  obtain ⟨x, -, hx⟩ := List.mem_filterMap.mp h
  split at hx
  · rename_i hirq
    cases hx
    have hsome : (blkOf (x.1 / 0x1000)).isSome = true := by
      have := hirq.2
      unfold State.irqPending at this
      exact (Bool.and_eq_true_iff.mp this).1
    refine Nat.lt_of_not_le fun hle => ?_
    rw [blkOf_unassigned hle] at hsome
    exact absurd hsome (by decide)
  · cases hx

/-- A live register above page SYS that is neither EVT_STAT nor EVT_EN is no part of the interrupt logic. -/
theorem State.irqOk_wr {s : State} {a : Nat} (v : Word) (hp : 0x1000 ≤ a) (ha : a % 0x1000 ≠ 0x010) (he : a % 0x1000 ≠ 0x014)
    (h : s.irqOk) : (s.wr a v).irqOk := by
  obtain ⟨hpend, hlevel⟩ := h
  have hpages := pendPages_set s a v ha he
  refine ⟨fun k hk => ?_, fun i hi => ?_⟩
  · rw [hpages, State.rd_wr_ne _ _ (by unfold A.SYS_INT_PEND; omega)]
    exact hpend k hk
  · rw [hpages]
    refine (hlevel i hi).trans ?_
    unfold State.vecLevel State.get
    rw [Bool.eq_iff_iff, List.any_eq_true, List.any_eq_true]
    refine exists_congr fun p => and_congr_right fun hmem => ?_
    have := State.pendPages_assigned hmem
    rw [State.rd_wr_ne _ _ (by unfold A.SYS_VEC_SEL; omega)]

theorem calShow_irqOk {s : State} {n : Option Nat} (v : Nat) (hn : ∀ k ∈ n, k < 24) (h : s.irqOk) : (calShow n v s).irqOk := by
  cases n with
  | none => exact h
  | some k =>
    have hk := hn k rfl
    exact State.irqOk_wr _ (by unfold A.LEHR_SENSOR; omega) (by unfold A.LEHR_SENSOR; omega) (by unfold A.LEHR_SENSOR; omega) h

theorem calHold_irqOk {s : State} (hheld : s.heldOk) (h : s.irqOk) : (calHold s).irqOk := by
  unfold calHold
  split
  · exact h
  · exact calShow_irqOk 1 s.calHeld_lt (calShow_irqOk 0 hheld h)

theorem idleTick_inv {s : State} (hheld : s.heldOk) (h : s.Inv) : (idleTick s).Inv ∧ (idleTick s).heldOk := by
  unfold idleTick
  split
  · exact ⟨⟨calHold_irqOk hheld h.1, (calHold_keepsFrees _).freesOk h.2⟩, calHold_heldOk _⟩
  · exact ⟨h, hheld⟩

/-- What does hold of every step: it keeps the invariant together with the bound on the sensor held. -/
theorem step_keeps_inv {s s' : State} (hinv : s.Inv) (hheld : s.heldOk) (h : step s = .next s') : s'.Inv ∧ s'.heldOk := by
  unfold step at h
  split at h
  · cases h
    exact idleTick_inv hheld hinv
  · rename_i c cs _
    obtain ⟨t, ht⟩ := exec_settles c { s with pending := cs }
    rw [ht] at h
    cases h
    exact ⟨finish_inv _ t, finish_heldOk _ t⟩

/-- A predicate that every step keeps holds after a run. -/
theorem run_keeps {M : Host.Core} {P : M.State → Prop} (hstep : ∀ s s', P s → M.step s = .next s' → P s') (k : Nat) {s s' : M.State}
    (hs : P s) (h : M.run k s = .next s') : P s' := by
  induction k generalizing s with
  | zero =>
    cases h
    exact hs
  | succ k ih =>
    rw [Host.Core.run] at h
    cases ht : M.step s with
    | next t =>
      rw [ht] at h
      exact ih (hstep s t hs ht) h
    | fault r => simp [ht] at h
    | refused r => simp [ht] at h

/-- After a reset no sensor is held, so the reset state, whose invariant O3 states, meets what `run_keeps_inv` asks. -/
theorem State.reset_heldOk : State.reset.heldOk := fun _ hn => nomatch hn

/-- So every state that steps lead to from one that meets both meets both. -/
theorem run_keeps_inv (k : Nat) {s s' : State} (hs : s.Inv ∧ s.heldOk) (h : core.run k s = .next s') : s'.Inv ∧ s'.heldOk :=
  run_keeps (M := core) (P := fun t : State => t.Inv ∧ t.heldOk)
    (fun _ _ ht hstep => step_keeps_inv ht.1 ht.2 hstep) k hs h

end Sys2Proof.Machine
end

section
/-!
PROOFS. What settling may still change: a full queue of grant requests ends the slice that holds the sampler (R436, R440).
-/
namespace Sys2Proof.Machine

/-- The end of a slice on a window block leaves no slice. -/
theorem sliceFinish_window {s : State} {x : Slice} (why : SliceStop) (m : SliceMeasure) (hs : s.dbg.slice = some x)
    (hw : x.window = true) : (sliceFinish why m s).dbg.slice = none := by
  unfold sliceFinish repairsApply
  rw [hs]
  simp only [hw, if_true, State.raise_dbg, State.raiseIf_dbg, apply_ite State.dbg, State.put, State.inc, State.add, State.wr64,
    State.wr_dbg, ite_self]

/-- A slice stopped on a window block leaves none. -/
theorem sliceStopOn_window {s : State} {x : Slice} (why : SliceStop) (hs : s.dbg.slice = some x) (hw : x.window = true) :
    (sliceStopOn why x.page s).dbg.slice = none := by
  have hfree : (freeMeasure x.test s).2.dbg.slice = some x := hs
  unfold sliceStopOn
  rw [hs]
  dsimp only
  rw [if_pos rfl]
  exact sliceFinish_window _ _ hfree hw

theorem State.endFree_dbg (s : State) (id : Nat) : (s.endFree id).dbg = s.dbg := by
  unfold State.endFree State.setBuf State.add State.put
  dsimp only
  split
  · rw [State.raise_dbg]
  · rw [State.raise_dbg]
    rfl

theorem State.leaseSweep_dbg (s : State) : s.leaseSweep.dbg = s.dbg := by
  have hstep (t : State) (b : BufDef) :
      (if t.lease.bufs.contains b && !t.leased b then t.endFree b.id else t).dbg = t.dbg := by
    split
    · exact t.endFree_dbg b.id
    · rfl
  exact foldl_keeps (fun s t => t.dbg = s.dbg) (fun _ => rfl) (fun h h' => h'.trans h) _ hstep _ _

/-- What follows carriage in settling leaves the debug unit. -/
theorem finish_dbg (s t : State) : (finish s t).dbg = (running carriageSettle t).dbg := by
  obtain ⟨m, x, hfree⟩ := State.hostFreeSync_live (running carriageSettle t).leaseSweep
  obtain ⟨w, hmarver⟩ := marverRelease_eq (running carriageSettle t).leaseSweep.hostFreeSync
  obtain ⟨m', x', c, hcal⟩ := calHold_eq (marverRelease (running carriageSettle t).leaseSweep.hostFreeSync)
  have hsweep := (running carriageSettle t).leaseSweep_dbg
  unfold finish settle
  rw [State.irqSync_dbg, hcal, hmarver, hfree]
  exact hsweep

/-- A device on which every bench runs a SAMPLE job while a slice holds the sampler. -/
def samplersFull : State :=
  { State.reset with
    sched := { State.reset.sched with benches := (List.range 16).map fun k => ⟨some ⟨k, [0x40000000], 0, 0, 0, []⟩, []⟩ }
    dbg := { State.reset.dbg with slice := some ⟨0, P.SAMPLER, 64, true, false⟩ } }

/-- No engine carries a frame and the device is no partner, so all that carriage settles here is the full queue of grant requests. -/
theorem carriageSettle_samplersFull : carriageSettle samplersFull = sliceStopOn .service P.SAMPLER samplersFull := by
  have hcarriage : carriageAll samplersFull = samplersFull := rfl
  have hack : ackCarried samplersFull = samplersFull := rfl
  have hfull : grantDemand samplersFull = sliceStopOn .service P.SAMPLER samplersFull := if_pos (by decide)
  unfold carriageSettle
  rw [hcarriage, hack, hfull]

/-- Refutes O7: with sixteen SAMPLE jobs waiting for their grants, settling ends the slice that holds the sampler (R440), and so changes
the debug unit. -/
theorem not_settlingLeavesTheRest : ¬ Obligations.SettlingLeavesTheRest := by
  unfold Obligations.SettlingLeavesTheRest
  intro h
  obtain ⟨-, -, -, -, hdbg, -⟩ := h samplersFull samplersFull
  have hruns : samplersFull.runs := by decide
  rw [finish_dbg, running_runs hruns, carriageSettle_samplersFull] at hdbg
  have hstops := sliceStopOn_window (s := samplersFull) .service rfl rfl
  rw [hdbg] at hstops
  exact absurd hstops (by decide)

end Sys2Proof.Machine
end

section
/-!
PROOFS. Accesses to registers: unassigned pages, refused accesses, pairs and reads (R27, R28, R30, R34, R48, R49).
-/
namespace Sys2Proof.Machine

/-! ### Unassigned pages and refused accesses -/

/-- A request to an unassigned page is recorded in UNMAPPED, as a TLP where the host sends it (R27). -/
theorem reqAccess_unassigned {x : Access} (hb : blkOf x.page = none) (s : State) : reqAccess x s = unmapped x (s.tlp x.r) := by
  unfold reqAccess access
  exact if_pos (by rw [hb]; rfl)

/-- A refused width to an unassigned page is recorded like any access (R27). -/
theorem refusedWidth_unassigned {x : Access} (hb : blkOf x.page = none) (s : State) : refusedWidth x s = unmapped x (s.tlp x.r) := by
  unfold refusedWidth
  exact if_pos (by rw [hb]; rfl)

/-- A refused width on an assigned page is recorded as a rejection with code 0xFE (R28). -/
theorem refusedWidth_assigned {x : Access} (hb : blkOf x.page ≠ none) (s : State) : refusedWidth x s =
    ((s.tlp x.r).guard1 x.page 31 0xFE none).reply x.r (if x.isWrite then .done else .data 0) := by
  unfold refusedWidth
  exact if_neg (by rwa [Option.isNone_iff_eq_none])

/-- Settles O10: every form of access comes down to `unmapped` on an unassigned page. -/
theorem anUnassignedPageReadsZero : Obligations.AnUnassignedPageReadsZero := by
  unfold Obligations.AnUnassignedPageReadsZero
  refine ⟨fun p hp => blkOf_unassigned hp, fun s r p o v met hruns hb => ?_⟩
  intro t wr rd
  have hwrite (w : Word) : running (regWrite r p o w) s = wr :=
    (running_runs hruns _).trans (reqAccess_unassigned (x := ⟨r, p, o, true, w⟩) hb s)
  have hread : running (regRead r p o) s = rd := (running_runs hruns _).trans (reqAccess_unassigned (x := ⟨r, p, o, false, 0⟩) hb s)
  have hrefused (w : Bool) : running (refusedWidth ⟨r, p, o, w, 0⟩) s = unmapped ⟨r, p, o, w, 0⟩ (s.tlp r) :=
    (running_runs hruns _).trans (refusedWidth_unassigned (x := ⟨r, p, o, w, 0⟩) hb s)
  have hnone : ¬ (o = 0x010 ∧ (blkOf p).isSome = true) := by rw [hb]; exact fun h => Bool.noConfusion h.2
  exact ⟨gated_of (hwrite 0), gated_of hread, gated_of (hrefused true), gated_of (hrefused false),
    (registerWrite_access hnone).trans (gated_of (hwrite v)), gated_of (hwrite v), gated_of (hwrite v), gated_of (hwrite v),
    gated_of hread, gated_of hread, gated_of hread⟩

/-- A write of a register without a writable field is rejected with code 0xFF (R30). -/
theorem regWrite_readOnly {s : State} {r : Req} {p o : Nat} {v : Word} {d : RegDef} (h : s.reaches r p) (ho : 0x80 ≤ o) (ho' : o < 0x1000)
    (hd : findReg (p * 0x1000 + o) = some d) (hro : d.readOnly = true) :
    running (regWrite r p o v) s = ((s.arrive r p).guard1 p 31 0xFF none).reply r .done := by
  rw [regWrite_reaches h o ho]
  unfold writeReg
  simp only [hd, hro, if_true, page_of ho']

/-- Settles O11: a refused width never reaches its register, and a write of a read-only one ends at its access type. -/
theorem aRefusedAccessIsRejected : Obligations.ARefusedAccessIsRejected := by
  unfold Obligations.ARefusedAccessIsRejected
  constructor
  · intro s r p o hruns hb t
    have hrefused (w : Bool) := (running_runs hruns _).trans (refusedWidth_assigned (x := ⟨r, p, o, w, 0⟩) hb s)
    exact ⟨gated_of (hrefused true), gated_of (hrefused false)⟩
  · intro s r p o v met d hreach ho ho' hd hro
    exact (writeCommands_of ho (regWrite_readOnly hreach ho ho' hd hro)).2

/-! ### Pairs -/

/-- A write of the lower half of a pair waits in the page's hold (R48). -/
theorem regWrite_pairLow {s : State} {r : Req} {p o : Nat} {v : Word} {d : RegDef} (h : s.reaches r p) (ho : 0x80 ≤ o) (ho' : o < 0x1000)
    (hd : findReg (p * 0x1000 + o) = some d) (hro : d.readOnly = false) (hp : d.pair = .lo) :
    running (regWrite r p o v) s = ((s.arrive r p).setBank (holdAt p) 1 r v).reply r .done := by
  rw [regWrite_reaches h o ho]
  unfold writeReg
  simp only [hd, hro, hp, if_true, page_of ho', Bool.false_eq_true, if_false]

/-- A write of the upper half of a shadowed pair stores both halves (R48). -/
theorem regWrite_pairHigh {s : State} {r : Req} {p o : Nat} {v w : Word} {d : RegDef} (h : s.reaches r p) (ho : 0x80 ≤ o) (ho' : o < 0x1000)
    (hd : findReg (p * 0x1000 + o) = some d) (hrws : d.isRws = true) (hp : d.pair = .hi) :
    let a := s.arrive r p
    let x := p * 0x1000 + o
    let j := a.judge x (d.merge (a.shd x) v)
    j.1 = some w → running (regWrite r p o v) s = (refit x (trigMark x (dirtyMark p
      ((j.2.wrShadow (x - 4) (pairLow x (a.shd (x - 4)) (a.bank (holdAt p) 1 r))).wrShadow x w)))).reply r .done := by
  intro a x j hw
  obtain ⟨m, y, hlive⟩ := a.judge_live x (d.merge (a.shd x) v)
  have hshd : j.2.shd (x - 4) = a.shd (x - 4) := by rw [show j.2 = _ from hlive]; rfl
  have hbank : j.2.bank (holdAt p) 1 r = a.bank (holdAt p) 1 r := by rw [show j.2 = _ from hlive]; rfl
  rw [rwsWrite_reaches h ho ho' hd hrws (by rw [hp]; decide)]
  unfold rwsWrite
  have hj : (s.arrive r p).judge (p * 0x1000 + o) (d.merge ((s.arrive r p).shd (p * 0x1000 + o)) v) = j := rfl
  simp only [hj, hw, hp, if_true, page_of ho', hbank]
  rw [show j.2.shd (p * 0x1000 + o - 4) = _ from hshd]

/-- Settles O13: the upper half is stored over the lower one, which `shadowStore_spec` leaves. -/
theorem aPairIsWrittenByItsUpperHalf : Obligations.APairIsWrittenByItsUpperHalf := by
  unfold Obligations.APairIsWrittenByItsUpperHalf
  intro s r p o v d hreach ho ho' hd a x
  refine ⟨fun hro hp => gated_of (regWrite_pairLow hreach ho ho' hd hro hp), ?_⟩
  intro hrws hp j w hw l u
  obtain ⟨jshadow, jpend, jactive, jmem, jlease, -⟩ := a.judge_keeps x (d.merge (a.shd x) v)
  obtain ⟨hword, hothers, hpend, hactive, hmem, hlease, -⟩ := shadowStore_spec p x w r (j.2.wrShadow (x - 4) l)
  have hne : x - 4 ≠ x := by show p * 0x1000 + o - 4 ≠ p * 0x1000 + o; omega
  have hfollow : follower x ≠ some (x - 4) := fun h => absurd (follower_gt h) (by omega)
  refine ⟨gated_of (regWrite_pairHigh hreach ho ho' hd hrws hp hw), hword, ?_, fun b hb hb' hf => ?_, hpend.trans jpend,
    hactive.trans jactive, hmem.trans jmem, hlease.trans jlease⟩
  · rw [hothers _ hne hfollow, State.shd_wrShadow, if_pos rfl]
  · rw [hothers b hb hf, State.shd_wrShadow, if_neg hb']
    exact congrArg (amGet resetOf · b) jshadow

/-! ### Reads -/

/-- A read of the upper half of a pair answers what the read of the lower half kept (R48). -/
theorem readReg_pairHigh {r : Req} {a : Nat} {t : State} {d : RegDef} (hd : findReg a = some d) (hp : d.pair = .hi) :
    readReg r a t = (t.bank (holdAt (a / 0x1000)) 0 r, t) := by
  unfold readReg
  rw [hd]
  dsimp only
  rw [if_pos hp]

/-- A read that removes nothing answers the value in view, keeps the upper half with a lower one, and clears RC fields but in the view
SNAP (R34, R48, R49). -/
theorem regRead_keeps {s k : State} {r : Req} {p o : Nat} {d : RegDef} (h : s.reaches r p) (ho : 0x80 ≤ o) (ho' : o < 0x1000)
    (hd : findReg (p * 0x1000 + o) = some d) (hp : d.pair ≠ .hi) :
    let b := s.arrive r p
    let x := p * 0x1000 + o
    let view := b.viewOf r p
    let a := countsRead x view b
    (view = 2 ∨ takeReg r x b = none) →
    (if d.pair = .lo then a.setBank (holdAt p) 0 r (a.regVal r d (x + 4) view) else a) = k →
    running (regRead r p o) s = (if view = 2 then k else rcClear d x k).reply r (.data (a.regVal r d x view)) := by
  intro b x view a htake hk
  have hnone : (if view = 2 then none else takeReg r x b) = none := by
    rcases htake with h | h
    · exact if_pos h
    · rw [h, ite_self]
  have hread : readReg r x b = (a.regVal r d x view, if view = 2 then k else rcClear d x k) := by
    unfold readReg
    rw [hd]
    dsimp only
    rw [if_neg hp, page_of ho', show (if b.viewOf r p = 2 then none else takeReg r x b) = none from hnone]
    dsimp only
    rw [show (if d.pair = .lo then (countsRead x (b.viewOf r p) b).setBank (holdAt p) 0 r
      ((countsRead x (b.viewOf r p) b).regVal r d (x + 4) (b.viewOf r p)) else countsRead x (b.viewOf r p) b) = k from hk]
  rw [regRead_reaches h o ho, show readReg r (p * 0x1000 + o) (s.arrive r p) = _ from hread]

/-- A read of the upper half of a pair answers what the read of the lower half kept (R48). -/
theorem regRead_pairHigh {s : State} {r : Req} {p o : Nat} {d : RegDef} (h : s.reaches r p) (ho : 0x80 ≤ o) (ho' : o < 0x1000)
    (hd : findReg (p * 0x1000 + o) = some d) (hp : d.pair = .hi) :
    running (regRead r p o) s = (s.arrive r p).reply r (.data ((s.arrive r p).bank (holdAt p) 0 r)) := by
  rw [regRead_reaches h o ho]
  unfold readReg
  rw [hd]
  dsimp only
  rw [if_pos hp, page_of ho']

/-- Settles O15: a read that removes nothing answers the value in view; one that removes answers what it takes (`regRead_take`); and the
upper half of a pair answers what was kept. -/
theorem aReadAnswersAndClears : Obligations.AReadAnswersAndClears := by
  unfold Obligations.AReadAnswersAndClears
  intro s r p o d hreach ho ho' hd b x view a after
  refine ⟨fun hkeep => ⟨fun hp => ?_, fun hp => ?_⟩, fun y hview htake hp => gated_of (regRead_take hreach o ho ho' hd hp hview htake),
    fun hp => gated_of (regRead_pairHigh hreach ho ho' hd hp)⟩
  · have hrun := regRead_keeps hreach ho ho' hd (by rw [hp]; decide) hkeep (if_neg (by rw [hp]; decide))
    exact ⟨gated_of hrun, gated_of hrun⟩
  · exact gated_of (regRead_keeps hreach ho ho' hd (by rw [hp]; decide) hkeep (if_pos hp))

end Sys2Proof.Machine
end

section
/-!
PROOFS. Pages that leave, return and are reset, abandoned accesses, and messages (R39, R56, R57, R59, R427, R428, R479).
-/
namespace Sys2Proof.Machine

/-! ### Pages that leave, return and are reset -/

/-- A write of PAGE_RST with the page's WITHDRAW and the requester's VIEW as they stand (R479). -/
theorem regWrite_reset {s : State} {r : Req} {p : Nat} (h : s.runs) (hb : blkOf p ≠ none) (hi : (s.tlp r).injArmed p 31 = false)
    (w : Word) {b : Word} (hlt : b.toNat < 3) :
    let x := (s.tlp r).setBank (H.PAGE_CTRL p) 0 r (b &&& 3)
    running (regWrite r p 0x00C (w32 (2 ^ 31) ||| w &&& w32 (2 ^ 30) ||| b)) s =
      (pageRstOp p (if bitOf w 30 = true then withdrawOp p (x.put (H.PAGE_CTRL p) ⟨30, 30⟩ 1)
        else returnOp p (x.put (H.PAGE_CTRL p) ⟨30, 30⟩ 0))).reply r .done := by
  intro x
  obtain ⟨hview, hwithdraw, hreset, hgood⟩ := resetWord_bits w (word_lt_three hlt)
  rw [regWrite_header h hb (by simp)]
  unfold shellWrite
  rw [pageCtrlWrite_spec hi hgood]
  simp only [hview, hwithdraw, hreset, if_true, x]
  cases bitOf w 30 <;> simp only [Bool.toNat_true, Bool.toNat_false, if_true, Bool.false_eq_true, if_false]

/-- PAGE_RST by its requester (R479). -/
theorem exec_pageRst {s : State} {r : Req} {p : Nat} (h : s.runs) (hb : blkOf p ≠ none) (hi : (s.tlp r).injArmed p 31 = false)
    (hlt : (s.bank (H.PAGE_CTRL p) 0 r).toNat < 3) :
    let x := (s.tlp r).setBank (H.PAGE_CTRL p) 0 r (s.bank (H.PAGE_CTRL p) 0 r &&& 3)
    exec (.pageRst r p) s = .next (finish s ((pageRstOp p (if bitOf (s.rd (H.PAGE_CTRL p)) 30 then
      withdrawOp p (x.put (H.PAGE_CTRL p) ⟨30, 30⟩ 1) else returnOp p (x.put (H.PAGE_CTRL p) ⟨30, 30⟩ 0))).reply r .done)) := by
  have hexec : exec (.pageRst r p) s = gated (fun t => regWrite r p 0x00C (w32 (2 ^ 31) ||| t.rd (H.PAGE_CTRL p) &&& w32 (2 ^ 30) |||
    t.bank (H.PAGE_CTRL p) 0 r) t) s := rfl
  exact hexec.trans (gated_of ((running_regWrite_value (fun t => w32 (2 ^ 31) ||| t.rd (H.PAGE_CTRL p) &&& w32 (2 ^ 30) |||
    t.bank (H.PAGE_CTRL p) 0 r) s).trans (regWrite_reset h hb hi _ hlt)))

/-- Settles O18: each operation where its condition holds; PAGE_RST takes the branch of the WITHDRAW that stands. -/
theorem pagesLeaveReturnAndReset : Obligations.PagesLeaveReturnAndReset := by
  unfold Obligations.PagesLeaveReturnAndReset
  intro s p hruns
  refine ⟨fun k hk hp hwait hidle => ?_, fun e he hp hwait hover => ?_, fun hdue hclock hlane => ?_, fun r hb hi hlt => ?_, fun hreset => ?_⟩
  · subst hp
    exact exec_of_gated (f := withdrawNow _) hruns rfl (withdrawNow_bench hk hwait hidle)
  · subst hp
    exact exec_of_gated (f := withdrawNow _) hruns rfl (withdrawNow_engine he hwait hover)
  · exact ⟨fun hcurrent => exec_of_gated (f := pageReturnOp p) hruns rfl (pageReturnOp_current hdue hclock hlane hcurrent),
      fun hmissed => exec_of_gated (f := pageReturnOp p) hruns rfl (pageReturnOp_missed hdue hclock hlane hmissed)⟩
  · have hrst := exec_pageRst hruns hb hi hlt
    exact ⟨fun hin => by rw [hrst, if_neg (by rw [hin]; decide)], fun hout => by rw [hrst, if_pos hout]⟩
  · exact exec_of_gated (f := pageRstDoneOp p) hruns rfl (if_pos hreset)

/-! ### Abandoned accesses and messages -/

/-- Where nothing waits at the crossing, the access abandoned is the one the command names (R56). -/
theorem accessAbandonOp_alone {s : State} {r : Req} {p : Nat} {w : Bool} (hb : blkOf p ≠ none) (hs : s.commit.stalled.contains p = false)
    (h28 : bitOf (s.rd (H.PAGE_STAT p)) 28 = false) (hnone : (s.commit.waiting.filter fun y => y.page == p) = []) :
    let t : State := { s with commit := { s.commit with
      stopped := p :: s.commit.stopped.filter (· != p), waiting := s.commit.waiting.filter fun y => y.page != p } }
    accessAbandonOp r p w s =
      accessFail ⟨r, p, 0x80, w, 0⟩ (freqSync (((t.put (H.PAGE_STAT p) ⟨28, 28⟩ 1).raise p 30).raise P.SYS 7)) := by
  intro t
  rw [accessAbandonOp_spec hb hs h28, hnone]
  rfl

/-- At a crossing where accesses wait, they fail in order, and a seal among them passes (R36, R56). -/
theorem accessAbandonOp_waiting {s : State} {r : Req} {p : Nat} {w : Bool} (hb : blkOf p ≠ none) (hs : s.commit.stalled.contains p = false)
    (h28 : bitOf (s.rd (H.PAGE_STAT p)) 28 = false) (hsome : (s.commit.waiting.filter fun y => y.page == p) ≠ []) :
    let t : State := { s with commit := { s.commit with
      stopped := p :: s.commit.stopped.filter (· != p), waiting := s.commit.waiting.filter fun y => y.page != p } }
    let here := s.commit.waiting.filter fun y => y.page == p
    accessAbandonOp r p w s = sealsPass p here ((here.filter fun y => y.off != sealMark).foldl (fun t y => accessFail y t)
      (freqSync (((t.put (H.PAGE_STAT p) ⟨28, 28⟩ 1).raise p 30).raise P.SYS 7))) := by
  intro t here
  have hempty : ¬ here.isEmpty = true := by rwa [List.isEmpty_iff]
  rw [accessAbandonOp_spec hb hs h28, if_neg hempty]

/-- An access to a crossing that is marked fails at once (R57). -/
theorem accessAbandonOp_marked {s : State} {r : Req} {p : Nat} {w : Bool} (hb : blkOf p ≠ none) (hs : s.commit.stalled.contains p = false)
    (h28 : bitOf (s.rd (H.PAGE_STAT p)) 28 = true) : accessAbandonOp r p w s = accessFail ⟨r, p, 0x80, w, 0⟩ s := by
  unfold accessAbandonOp
  rw [if_neg (by rwa [Option.isNone_iff_eq_none]), if_neg (by rw [hs]; decide), if_pos h28]

/-- A write of VEC_EOI (R59). -/
theorem regWrite_vecEoi {s : State} {r : Req} (h : s.reaches r P.SYS) (v : Word) :
    running (regWrite r P.SYS 0x100 v) s = (vecEoi v (s.arrive r P.SYS)).reply r .done := regWrite_sys h (by decide) v rfl

/-- Settles O19: the crossing with and without accesses that wait, the crossing already marked, its restart, and the vectors. -/
theorem abandonedAccessesAndMessages : Obligations.AbandonedAccessesAndMessages := by
  unfold Obligations.AbandonedAccessesAndMessages
  intro s r p hruns
  have habandon {w : Bool} {u : State} (h : accessAbandonOp r p w s = u) : exec (.accessAbandon r p w) s = .next (finish s u) :=
    exec_of_gated (f := accessAbandonOp r p w) hruns rfl h
  refine ⟨fun hb hstall hclear => ?_, fun hb hstall hmarked w => habandon (accessAbandonOp_marked hb hstall hmarked),
    fun hstop => exec_of_gated (f := clockRestartOp p) hruns rfl (if_pos hstop), fun hreach v => ?_, fun v hv => ?_⟩
  · intro t u here
    exact ⟨fun hnone => ⟨habandon (accessAbandonOp_alone hb hstall hclear hnone), habandon (accessAbandonOp_alone hb hstall hclear hnone)⟩,
      fun hsome w => habandon (accessAbandonOp_waiting hb hstall hclear hsome)⟩
  · intro a
    have hexec {u : State} (h : vecEoi v a = u) : exec (.vecEoi r v) s = .next (finish s (u.reply r .done)) :=
      gated_of ((regWrite_vecEoi hreach v).trans (congrArg (State.reply · r .done) h))
    exact ⟨fun hup => hexec (if_pos hup), fun hdown => hexec (if_neg (by rw [hdown]; decide))⟩
  · intro bit
    have hexec {u : State} (h : msixUnmaskOp v s = u) : exec (.msixVectorUnmask v) s = .next (finish s u) :=
      exec_of_gated (f := msixUnmaskOp v) hruns rfl h
    have hunmask : msixUnmaskOp v s = { s with msix := { s.msix with
        mask := s.msix.mask &&& ~~~ bit, held := s.msix.held &&& ~~~ bit,
        sent := if s.msix.held.getLsbD v then v :: s.msix.sent else s.msix.sent } } := if_neg (by omega)
    exact ⟨fun hheld => hexec (by rw [hunmask, if_pos hheld]), fun hnone => hexec (by rw [hunmask, if_neg (by rw [hnone]; decide)])⟩

end Sys2Proof.Machine
end

section
/-!
PROOFS. Commits, epochs and snapshots (R33 to R43, R418).
-/
namespace Sys2Proof.Machine

/-! ### Commits -/

/-- COMMIT by its requester (R35). -/
theorem exec_commit {s u : State} {r : Req} {n : Word} (h : s.reaches r P.SYS) (hu : commitWrite r n (s.arrive r P.SYS) = u) :
    exec (.commit r n) s = .next (finish s (u.reply r .done)) :=
  gated_of ((regWrite_sys h (by decide) n rfl).trans (congrArg (State.reply · r .done) hu))

/-- A requester that may commit, while no epoch waits, seals the epoch that follows (R35, R36). -/
theorem commitWrite_seals {a : State} {r : Req} {n : Word} (hready : r = .host → a.stage = 2) (hidle : a.epochWaits = false)
    (hn : n = a.rd A.SYS_EPOCH_APPLIED + 1) : commitWrite r n a = sealEpoch r n a := by
  unfold commitWrite
  rw [if_neg (fun h => h.2 (hready h.1)), if_neg (by rw [hidle]; decide), if_neg (fun h => h hn)]

theorem commitWrite_busy {a : State} {r : Req} {n : Word} (hready : r = .host → a.stage = 2) (hbusy : a.epochWaits = true) :
    commitWrite r n a = commitReject 1 a := by
  unfold commitWrite
  rw [if_neg (fun h => h.2 (hready h.1)), if_pos hbusy]

theorem commitWrite_number {a : State} {r : Req} {n : Word} (hready : r = .host → a.stage = 2) (hidle : a.epochWaits = false)
    (hn : n ≠ a.rd A.SYS_EPOCH_APPLIED + 1) : commitWrite r n a = commitReject 2 a := by
  unfold commitWrite
  rw [if_neg (fun h => h.2 (hready h.1)), if_neg (by rw [hidle]; decide), if_pos hn]

/-- What an acknowledgement does that is due: the page's checks, and the page is taken off the list (R37). -/
theorem sealAckOp_due {s : State} {p : Nat} (hseal : s.commit.sealing = true) (hleft : s.commit.acksLeft.contains p = true)
    (hpassed : s.sealWaits p = false) :
    let t := sealCheck p s
    let l := t.commit.acksLeft.filter (· != p)
    let u : State := { t with commit := { t.commit with acksLeft := l } }
    sealAckOp p s = if l = [] then commitComplete u else u := by
  unfold sealAckOp
  rw [if_pos ⟨hseal, hleft, by rw [hpassed]; rfl⟩]
  simp only [List.isEmpty_iff]

/-- A write of SHADOW_CTRL with REVERT (R33, R61). -/
theorem exec_revert {s u : State} {r : Req} (h : s.reaches r P.SYS)
    (hu : revertOp ((s.arrive r P.SYS).setBank A.SYS_SHADOW_CTRL 0 r ((s.bank A.SYS_SHADOW_CTRL 0 r ||| 1) &&& 2)) = u) :
    exec (.revert r) s = .next (finish s (u.reply r .done)) := by
  have hbit (w : Word) : bitOf (w ||| 1) 0 = true := by rw [bitOf_eq_getLsbD, BitVec.getLsbD_or]; simp
  have hwrite (w : Word) : shadowCtrl r (w ||| 1) (s.arrive r P.SYS) =
      revertOp ((s.arrive r P.SYS).setBank A.SYS_SHADOW_CTRL 0 r ((w ||| 1) &&& 2)) := if_pos (hbit w)
  refine gated_of ((running_regWrite_value (fun t => t.bank A.SYS_SHADOW_CTRL 0 r ||| 1) s).trans ?_)
  rw [regWrite_sys (t := shadowCtrl r _ (s.arrive r P.SYS)) h (by decide) _ rfl, hwrite, hu]

/-- Settles O20: COMMIT in the order of its rejections down to `sealEpoch_spec`, an acknowledgement with pages left and without, and REVERT
by `revertOp_spec`. -/
theorem commitsSealAndRevertTakesBack : Obligations.CommitsSealAndRevertTakesBack := by
  unfold Obligations.CommitsSealAndRevertTakesBack
  refine ⟨fun s r n hreach => ?_, fun s r p => ⟨fun hruns hseal hleft hpassed => ?_, fun hreach => ?_⟩⟩
  · intro a
    refine ⟨fun hhost hstage => exec_commit hreach (if_pos ⟨hhost, hstage⟩), fun hready =>
      ⟨fun hbusy => exec_commit hreach (commitWrite_busy hready hbusy),
      fun hidle hn => exec_commit hreach (commitWrite_number hready hidle hn), fun hidle hn => ?_⟩⟩
    obtain ⟨hpend, hshadow, hactive, hsealing, hacks, hepoch, hcommit, hstat, hwaiting, hmem, hlease⟩ := sealEpoch_spec r n a
    obtain ⟨kpend, kshadow, kactive, kcommit, kmem, klease, krd, kget⟩ := State.reply_spec (sealEpoch r n a) r .done
    refine ⟨_, exec_commit hreach (commitWrite_seals hready hidle hn), kpend.trans hpend, ?_, kshadow.trans hshadow,
      kactive.trans hactive, ?_, ?_, ?_, (krd _).trans hcommit, (kget _ _).trans hstat, kmem.trans hmem, klease.trans hlease⟩
    all_goals rw [kcommit]
    · exact hwaiting
    · exact hsealing
    · exact hacks
    · exact hepoch
  · intro t l u
    have hack := sealAckOp_due hseal hleft hpassed
    exact ⟨fun hmore => exec_of_gated hruns rfl (hack.trans (if_neg hmore)),
      fun hlast => exec_of_gated hruns rfl (hack.trans (if_pos hlast))⟩
  · intro w a
    refine ⟨fun hsealing => exec_revert hreach (if_pos hsealing), fun hsealed => ?_⟩
    obtain ⟨hshadow, hpend, hactive, hmem, hcommit⟩ := revertOp_spec a hsealed
    obtain ⟨kpend, kshadow, kactive, kcommit, kmem, -⟩ := State.reply_spec (revertOp a) r .done
    exact ⟨_, exec_revert hreach rfl, kshadow.trans hshadow, kpend.trans hpend, kactive.trans hactive,
      kmem.trans hmem, kcommit.trans hcommit⟩

/-! ### Epochs and snapshots -/

/-- Without a snapshot due, step 2 is the epoch alone (R42). -/
theorem step2_epoch {s : State} (h : s.commit.snapDue = false) : step2 s = epochApplyOp s := by
  unfold step2 snapshotOp
  rw [if_neg (by rw [h]; decide)]

/-- A snapshot that is due is captured, with the counters brought up to it (R42, R92, R406). -/
theorem snapshotOp_due {s : State} (h : s.commit.snapDue = true) :
    snapshotOp s = snapCapture (memTraffic (thrFlush { s with commit := { s.commit with snapDue := false } })) := if_pos h

/-- What a capture leaves: the sets, memory, and the commit machinery but for the snapshot taken (R42, R43). -/
theorem snapCapture_due_spec (s : State) :
    let c := memTraffic (thrFlush { s with commit := { s.commit with snapDue := false } })
    let u := snapCapture c
    u.rf.snap = snapTake c (allPages.filter fun p => c.inService p) ∧ u.commit = { s.commit with snapDue := false } ∧
      u.rf.active = s.rf.active ∧ u.rf.shadow = s.rf.shadow ∧ u.mem = s.mem := by
  intro c u
  obtain ⟨m, x, hsnap⟩ := snapCapture_form c
  obtain ⟨m', l, hflush⟩ := thrFlush_form { s with commit := { s.commit with snapDue := false } }
  obtain ⟨m'', k, htraffic⟩ := memTraffic_form (thrFlush { s with commit := { s.commit with snapDue := false } })
  have hc : c = _ := htraffic.trans (by rw [hflush])
  have hu : u = _ := hsnap
  clear_value u c
  refine ⟨by rw [hu], ?_, ?_, ?_, ?_⟩ <;> rw [hu, hc]

/-- Putting HOLD leaves REQ. -/
theorem State.get_put_hold (a : State) (v : Nat) :
    (a.put A.SYS_SNAP F.SYS_SNAP_HOLD v).get A.SYS_SNAP F.SYS_SNAP_REQ = a.get A.SYS_SNAP F.SYS_SNAP_REQ := by
  unfold State.get State.put
  rw [State.rd_wr_same]
  generalize a.rd A.SYS_SNAP = w
  have := w.isLt
  unfold fget fput fget F.SYS_SNAP_REQ F.SYS_SNAP_HOLD
  simp only [BitVec.toNat_ofNat]
  omega

/-- The word that requests a snapshot while HOLD is 0. -/
theorem snapWord_bits {w : Word} (h : bitOf w 1 = false) : bitOf (w &&& 2 ||| 1) 1 = false ∧ bitOf (w &&& 2 ||| 1) 0 = true := by
  rw [bitOf_eq_getLsbD] at h
  constructor <;> rw [bitOf_eq_getLsbD, BitVec.getLsbD_or, BitVec.getLsbD_and]
  · rw [h]; decide
  · simp

/-- A request for a snapshot where none waits and HOLD is 0 (R42). -/
theorem snapWrite_request {a : State} {w : Word} (hhold : bitOf w 1 = false) (hreq : a.get A.SYS_SNAP F.SYS_SNAP_REQ = 0) :
    snapWrite (w &&& 2 ||| 1) a = (a.put A.SYS_SNAP F.SYS_SNAP_HOLD 0).put A.SYS_SNAP F.SYS_SNAP_REQ 1 := by
  obtain ⟨h1, h0⟩ := snapWord_bits hhold
  unfold snapWrite
  rw [h1, h0, if_pos rfl, Bool.toNat_false]
  unfold snapRequest
  exact if_neg (by rw [State.get_put_hold, hreq]; decide)

/-- Settles O21: `epochApplyOp_form` says what an epoch takes, `snapCapture_due_spec` what a capture leaves before it, and `snapWrite_request`
what a request writes. -/
theorem epochsAndSnapshotsTakeEffect : Obligations.EpochsAndSnapshotsTakeEffect := by
  unfold Obligations.EpochsAndSnapshotsTakeEffect
  intro s r hruns
  refine ⟨fun hnone hbnds hwait => ?_, fun hdue => ?_, fun hreach hhold hreq => ?_⟩
  · obtain ⟨m, x, happly, hepoch, hframe⟩ := epochApplyOp_form s hbnds hwait
    exact ⟨_, exec_of_gated (f := step2) hruns rfl ((step2_epoch hnone).trans happly), rfl, rfl, rfl, rfl, rfl, hepoch, hframe, rfl⟩
  · intro c
    have hsnap := snapshotOp_due hdue
    have hepoch : step2 s = epochApplyOp (snapCapture c) := congrArg epochApplyOp hsnap
    exact ⟨_, exec_of_gated (f := snapshotOp) hruns rfl hsnap, exec_of_gated (f := step2) hruns rfl hepoch, snapCapture_due_spec s⟩
  · refine gated_of ((running_regWrite_value (fun t => t.rd A.SYS_SNAP &&& 2 ||| 1) s).trans ?_)
    rw [regWrite_sys (t := snapWrite (s.rd A.SYS_SNAP &&& 2 ||| 1) (s.arrive r P.SYS)) hreach (by decide) _ rfl, snapWrite_request hhold hreq]

end Sys2Proof.Machine
end

section
/-!
PROOFS. Resets (R61, R409, R430, R451, R465 to R467, R472).
-/
namespace Sys2Proof.Machine

/-- What a reset finds half done reaches neither the keeper's log, the slots, the fixture nor memory. -/
theorem interrupted_keeps (s : State) : let i := interruptedFuse (interruptedSave s)
    i.keepLog = s.keepLog ∧ i.gaffer.slots = s.gaffer.slots ∧ i.fixture = s.fixture ∧ i.mem = s.mem := by
  obtain ⟨m, d, f, o, k, hint⟩ := interrupted_form s
  intro i
  have hi : i = _ := hint
  clear_value i
  refine ⟨?_, ?_, ?_, ?_⟩ <;> rw [hi]

/-- What a reset keeps and sets, with what it interrupted (R61, R409). -/
theorem restart_spec (cause : Nat) (s : State) : let t := restart cause s
    t.keepLog = s.keepLog ∧ t.gaffer.slots = s.gaffer.slots ∧ t.gaffer.mbxQ = [] ∧ t.fixture = s.fixture ∧
      t.mem = (if cause = causePor then [] else s.mem) ∧ t.power.mode = .run ∧ t.lease = State.reset.lease ∧
      (∀ a, t.act a = resetOf a ∧ t.shd a = resetOf a ∧ t.pnd a = resetOf a) ∧ t.commit = State.reset.commit ∧
      t.rd A.SYS_RESET_CAUSE = w32 (2 ^ cause) := by
  intro t
  obtain ⟨ilog, islots, ifixture, imem⟩ := interrupted_keeps s
  obtain ⟨hlog, -, hslots, hmbx, hfixture, hmem, hmode, hlease, hactive, hshadow, hpend, hcommit, hcause, -⟩ :=
    restartFrom_spec cause (interruptedFuse (interruptedSave s))
  rw [imem] at hmem
  refine ⟨hlog.trans ilog, hslots.trans islots, hmbx, hfixture.trans ifixture, hmem, hmode, hlease,
    fun a => ⟨?_, ?_, ?_⟩, hcommit, hcause⟩
  · exact congrArg (amGet resetOf · a) hactive
  · exact congrArg (amGet resetOf · a) hshadow
  · exact congrArg (amGet resetOf · a) hpend

/-- NEXT of LIFE.STATE, put in both fields, reads as STATE. -/
theorem fget_lifeWord (w : Word) : fget (w32 (fget w F.LIFE_STATE_NEXT * 17)) F.LIFE_STATE_STATE = fget w F.LIFE_STATE_NEXT := by
  unfold fget w32 F.LIFE_STATE_NEXT F.LIFE_STATE_STATE
  simp only [BitVec.toNat_ofNat]
  omega

/-- A reset that interrupts nothing keeps the flash and takes the life cycle of the fuses (R409, R445). -/
theorem restart_keepsFuses {s : State} (cause : Nat) (hsave : s.gaffer.saving = none) (hfuse : s.dbg.fuse = none) :
    (restart cause s).gaffer.flash = s.gaffer.flash ∧
      (restart cause s).get A.LIFE_STATE F.LIFE_STATE_STATE = s.get A.LIFE_STATE F.LIFE_STATE_NEXT := by
  obtain ⟨-, hflash, -, -, -, -, -, -, -, -, -, -, -, hlife⟩ := restartFrom_spec cause s
  rw [restart_idle cause hsave hfuse]
  refine ⟨hflash, ?_⟩
  unfold State.get
  rw [hlife]
  exact fget_lifeWord _

/-- A write of SYS.RESET, with no injection armed into its guard (R61). -/
theorem exec_warmReset {s : State} {r : Req} {v : Word} (h : s.obeys r P.SYS) :
    exec (.warmReset r v) s = .next (finish s ((if fget v F.SYS_RESET_KEY ≠ 0x5A3C then
        (s.arrive r P.SYS).guard1 P.SYS 31 (openCode A.SYS_RESET) none
      else if fget v F.SYS_RESET_WARM = 1 then restart causeWarm (s.arrive r P.SYS) else s.arrive r P.SYS).reply r .done)) := by
  obtain ⟨hreach, hguard⟩ := h
  have hreset : sysReset v (s.arrive r P.SYS) = if fget v F.SYS_RESET_KEY ≠ 0x5A3C then
        (s.arrive r P.SYS).guard1 P.SYS 31 (openCode A.SYS_RESET) none
      else if fget v F.SYS_RESET_WARM = 1 then restart causeWarm (s.arrive r P.SYS) else s.arrive r P.SYS := by
    unfold sysReset
    simp only [hguard, Bool.false_eq_true, if_false, or_false]
  exact gated_of ((regWrite_sys hreach (by decide) v rfl).trans (congrArg (State.reply · r .done) hreset))

/-- RST_N falls with no injection armed into its filter where the device runs (R466). -/
theorem rstNOp_fall {s : State} (h : s.runs → s.injArmed P.SYS 31 = false) : rstNOp true s = rstFall s := by
  unfold rstNOp
  rw [if_pos rfl]
  split
  · rename_i hruns
    rw [pinRemoved_unarmed (h hruns)]
    rfl
  · rfl

/-- A fall of RST_N while no fuse word is burnt holds a device that runs or is frozen, with the cause of its next release (R451, R466). -/
theorem rstFall_holds {s : State} (hpor : s.power.por = false) (hfuse : s.dbg.fuse = none) (hmode : s.power.mode ≠ .held) :
    rstFall s = { s with power := { s.power with
      rstLow := true, mode := .held, cause := if s.power.mode = .frozen then causeFreeze else causePin, thermtrip := false } } := by
  have hidle : ¬ (s.dbg.fuse.isSome = true ∧ s.power.mode = .run) := by rw [hfuse]; exact fun h => Bool.noConfusion h.1
  unfold rstFall holdReset
  dsimp only
  rw [if_neg hidle, if_neg hmode, hpor]
  rfl

/-- A fall of RST_N while a fuse word is burnt waits for the word (R472). -/
theorem rstFall_waits {s : State} (hfuse : s.dbg.fuse ≠ none) (hruns : s.runs) :
    rstFall s = { s with power := { s.power with rstLow := true, rstWait := true } } := by
  unfold rstFall
  dsimp only
  rw [if_pos ⟨Option.isSome_iff_ne_none.mpr hfuse, hruns⟩]

/-- A rise of RST_N starts a device that is held, once the power-on reset has ended (R466). -/
theorem rstNOp_rise {s : State} (hheld : s.power.mode = .held) (hpor : s.power.por = false) :
    rstNOp false s = restart s.power.cause { s with power := { s.power with rstLow := false } } := by
  unfold rstNOp rstRise
  dsimp only
  rw [if_neg (by decide), if_pos ⟨hheld, by rw [hpor]; rfl⟩]

/-- A power-on reset holds the device (R465). -/
theorem powerOnOp_eq (s : State) : powerOnOp s = { s with
    power := { s.power with mode := .held, por := true, cause := causePor, thermtrip := false } } := rfl

/-- The power-on reset ends: the device starts where RST_N is high (R409, R465). -/
theorem resetReleaseOp_held {s : State} (hheld : s.power.mode = .held) :
    resetReleaseOp s = if s.power.rstLow then { s with power := { s.power with por := false } }
      else restart s.power.cause { s with power := { s.power with por := false } } := by
  unfold resetReleaseOp
  rw [if_neg (fun h => h hheld)]

/-- Settles O22: `restart_spec` and `restart_keepsFuses` say what a restart keeps and sets; each reset source by its own rule. -/
theorem resetsHoldReleaseAndKeep : Obligations.ResetsHoldReleaseAndKeep := by
  unfold Obligations.ResetsHoldReleaseAndKeep
  constructor
  · intro s cause t
    obtain ⟨hlog, hslots, hmbx, hfixture, hmem, hmode, hlease, hsets, hcommit, hcause⟩ := restart_spec cause s
    exact ⟨hlog, hslots, hmbx, hfixture, hmem, hmode, hlease, hsets, hcommit, hcause, restart_keepsFuses cause⟩
  · intro s r v
    refine ⟨fun hobeys => ⟨fun hkey hwarm => ?_, fun hkey => ?_⟩, exec_of_always (f := powerOnOp) rfl (powerOnOp_eq s),
      fun hpor => ?_, fun hpor => ?_, fun hpor hfuse => ⟨fun hruns hguard => ?_, fun hfrozen => ?_⟩,
      fun hruns hfuse hguard => ?_, fun hheld hpor => ?_,
      fun hheld => ⟨fun hhigh => ?_, fun hlow => ?_⟩⟩
    · rw [exec_warmReset hobeys, if_neg (fun h => h hkey), if_pos hwarm]
    · rw [exec_warmReset hobeys, if_pos hkey]
    · exact exec_of_always (f := supplyFallOp) rfl ((congrArg powerOnOp (if_pos hpor)).trans (powerOnOp_eq s))
    · exact exec_of_always (f := supplyFallOp) rfl ((congrArg powerOnOp (if_neg (by rw [hpor]; decide))).trans (powerOnOp_eq _))
    · have hmode : s.power.mode = .run := hruns
      refine exec_of_always (f := rstNOp true) rfl ((rstNOp_fall fun _ => hguard).trans ?_)
      rw [rstFall_holds hpor hfuse (by rw [hmode]; decide), if_neg (by rw [hmode]; decide)]
    · have hstopped : ¬ s.runs := by rw [State.runs, hfrozen]; decide
      refine exec_of_always (f := rstNOp true) rfl ((rstNOp_fall fun h => absurd h hstopped).trans ?_)
      rw [rstFall_holds hpor hfuse (by rw [hfrozen]; decide), if_pos hfrozen]
    · exact exec_of_always (f := rstNOp true) rfl ((rstNOp_fall fun _ => hguard).trans (rstFall_waits hfuse hruns))
    · exact exec_of_always (f := rstNOp false) rfl (rstNOp_rise hheld hpor)
    · exact exec_of_always (f := resetReleaseOp) rfl ((resetReleaseOp_held hheld).trans (if_neg (by rw [hhigh]; decide)))
    · exact exec_of_always (f := resetReleaseOp) rfl ((resetReleaseOp_held hheld).trans (if_pos hlow))

end Sys2Proof.Machine
end

section
/-!
PROOFS. Buffer commands (R81 to R86, R93).
-/
namespace Sys2Proof.Machine

/-- The buffer that a requester's BUF_SEL names (R93). -/
abbrev State.selBuf (s : State) (r : Req) : Nat := (s.bank A.LEASE_BUF_SEL 0 r).toNat % 0x1000

/-! ### What each command does -/

/-- DEFINE of an EMPTY buffer over granules of the allocatable range that no other buffer holds (R81). -/
theorem bufDefine_disjoint {r : Req} {s : State} (hempty : s.buf (s.selBuf r) = none) :
    let base := fget (s.bank A.LEASE_BUF_BASE 0 r) ⟨18, 0⟩
    let size := fget (s.bank A.LEASE_BUF_SIZE 0 r) ⟨18, 0⟩
    size ≠ 0 → 12288 ≤ base → base + size ≤ 0x80000 → s.overlap (s.selBuf r) base size = none →
      let t := (s.setBuf (s.selBuf r) (some ⟨s.selBuf r, base, size, bitOf (s.bank A.LEASE_BUF_ATTR 0 r) 0, false⟩)).bumpWgen (s.selBuf r)
      let u : State := { t with lease := { t.lease with stamps := t.lease.stamps.filter fun m => m.cell != s.selBuf r } }
      bufDefine r s = u.bufResult r 1 0 (s.selBuf r) := by
  intro base size hsize hlow hhigh hdisjoint
  have hstate : s.bufState (s.selBuf r) = 0 := by unfold State.bufState; rw [hempty]
  unfold bufDefine
  dsimp only
  rw [if_neg (fun h => h hstate), if_neg hsize, if_neg (by omega), hdisjoint]

/-- FREE of an EMPTY buffer is rejected (R84). -/
theorem bufFree_empty {r : Req} {s : State} (hb : s.buf (s.selBuf r) = none) : bufFree r s = s.bufResult r 6 0 (s.selBuf r) := by
  unfold bufFree
  dsimp only
  rw [hb]

/-- FREE of a buffer whose free is pending leaves it so (R84). -/
theorem bufFree_pending {r : Req} {s : State} {b : BufDef} (hb : s.buf (s.selBuf r) = some b) (hp : b.freePending = true) :
    bufFree r s = s.bufResult r 2 0 (s.selBuf r) := by
  unfold bufFree
  dsimp only
  rw [hb]
  exact if_pos hp

/-- FREE of a buffer under lease is pending until the lease ends (R84). -/
theorem bufFree_leased {r : Req} {s : State} {b : BufDef} (hb : s.buf (s.selBuf r) = some b) (hp : b.freePending = false)
    (hl : s.leased b = true) :
    bufFree r s = (s.setBuf (s.selBuf r) (some { b with freePending := true })).bufResult r 2 0 (s.selBuf r) := by
  unfold bufFree
  dsimp only
  rw [hb]
  dsimp only
  rw [if_neg (by rw [hp]; decide), if_pos hl]

/-- FREE of an IDLE buffer empties it at once (R84). -/
theorem bufFree_idle {r : Req} {s : State} {b : BufDef} (hb : s.buf (s.selBuf r) = some b) (hp : b.freePending = false)
    (hl : s.leased b = false) : bufFree r s = (s.setBuf (s.selBuf r) none).bufResult r 1 0 (s.selBuf r) := by
  unfold bufFree
  dsimp only
  rw [hb]
  dsimp only
  rw [if_neg (by rw [hp]; decide), if_neg (by rw [hl]; decide)]

/-- CANCEL of a pending free whose lease goes on makes the buffer LEASED again (R86). -/
theorem bufCancel_leased {r : Req} {s : State} {b : BufDef} (hb : s.buf (s.selBuf r) = some b) (hp : b.freePending = true)
    (hl : s.leased b = true) :
    bufCancel r s = (s.setBuf (s.selBuf r) (some { b with freePending := false })).bufResult r 1 0 (s.selBuf r) := by
  unfold bufCancel
  dsimp only
  rw [hb]
  dsimp only
  rw [if_pos hp, if_pos hl]

/-- CANCEL of an EMPTY buffer is too late where its lease ended in the command's cycle, and rejected otherwise (R86). -/
theorem bufCancel_empty {r : Req} {s : State} (hb : s.buf (s.selBuf r) = none) :
    bufCancel r s = s.bufResult r (if s.lease.meets && s.lease.ended.contains (s.selBuf r) then 7 else 6) 0 (s.selBuf r) := by
  unfold bufCancel
  dsimp only
  rw [hb]

/-- QUERY of a defined buffer shows its definition, its write generation and its references (R86, R93). -/
theorem bufQuery_defined {r : Req} {s : State} {b : BufDef} (hb : s.buf (s.selBuf r) = some b) :
    let t := (((s.setBank A.LEASE_BUF_BASE 0 r (w32 b.base)).setBank A.LEASE_BUF_SIZE 0 r (w32 b.size)).setBank
      A.LEASE_BUF_ATTR 0 r (w32 b.hostfill.toNat)).setBank A.LEASE_BUF_WGEN 0 r (s.wgen (s.selBuf r))
    bufQuery r s =
      (t.setBank A.LEASE_BUF_REFS 0 r (w32 (min (s.setRefs (s.selBuf r)) 0xFFFF))).bufResult r 1 0 (s.selBuf r) := by
  unfold bufQuery
  dsimp only
  rw [hb]

/-- A read of FREE_DONE takes the oldest completion (R93). -/
theorem freeDoneTake_cons {s : State} {k : Nat} {l : List Nat} (h : s.lease.done = k :: l) :
    freeDoneTake s = (w32 (2 ^ 31 + k), { s with lease := { s.lease with done := l } }) := by
  unfold freeDoneTake
  rw [h]

/-! ### The commands on a page that serves them -/

section
variable {s t : State} {r : Req} (h : s.obeys r P.LEASE)
include h

/-- BUF_CMD = 1 is DEFINE (R81). -/
theorem exec_define (ht : bufDefine r (s.arrive r P.LEASE) = t) : exec (.define r) s = .next (finish s (t.reply r .done)) :=
  gated_of (regWrite_buf h 1 (by decide) (by decide) ht)

/-- BUF_CMD = 2 is FREE (R84). -/
theorem exec_free (ht : bufFree r (s.arrive r P.LEASE) = t) : exec (.free r) s = .next (finish s (t.reply r .done)) :=
  gated_of (regWrite_buf h 2 (by decide) (by decide) ht)

/-- BUF_CMD = 4 is QUERY (R86). -/
theorem exec_query (ht : bufQuery r (s.arrive r P.LEASE) = t) : exec (.query r) s = .next (finish s (t.reply r .done)) :=
  gated_of (regWrite_buf h 4 (by decide) (by decide) ht)

end

/-- CANCEL (BUF_CMD = 3) is told whether the command before it happened in its cycle, and the state forgets that when it ends (R86). -/
theorem exec_cancel {s t : State} {r : Req} {met : Bool} :
    let m : State := { s with lease := { s.lease with meets := met } }
    m.obeys r P.LEASE → bufCancel r (m.arrive r P.LEASE) = t →
      let u := t.reply r .done
      exec (.cancel ⟨r, met⟩) s = .next (finish s { u with lease := { u.lease with meets := false } }) := by
  intro m hobeys ht u
  have hruns : s.runs := hobeys.1.1
  have hwrite : regWrite r P.LEASE 0x090 3 m = u :=
    (running_runs (s := m) hruns _).symm.trans (regWrite_buf hobeys 3 (by decide) (by decide) ht)
  refine exec_of_gated (f := cancelOp r met) hruns rfl ?_
  unfold cancelOp
  rw [hwrite]

/-- A read of FREE_DONE in a view that takes (R34, R93). -/
theorem exec_freeDonePop {s : State} {r : Req} {k : Nat} {l : List Nat} (h : s.reaches r P.LEASE) :
    let a := s.arrive r P.LEASE
    a.viewOf r P.LEASE ≠ 2 → a.lease.done = k :: l → exec (.freeDonePop r) s =
      .next (finish s ({ a with lease := { a.lease with done := l } }.reply r (.data (w32 (2 ^ 31 + k))))) := by
  intro a hview hdone
  have htake : takeReg r (P.LEASE * 0x1000 + 0x0A0) a = some (w32 (2 ^ 31 + k), { a with lease := { a.lease with done := l } }) :=
    (if_pos rfl).trans (congrArg some (freeDoneTake_cons hdone))
  exact gated_of (regRead_take h 0x0A0 (by decide) (by decide) (d := ⟨0x0A0, 0, 1, .single, [⟨31, 31, .rc, 0⟩, ⟨11, 0, .rc, 0⟩]⟩)
    rfl (by decide) hview htake)

/-- Settles O29: each command by its own rule. -/
theorem bufferCommandsTakeEffect : Obligations.BufferCommandsTakeEffect := by
  unfold Obligations.BufferCommandsTakeEffect
  intro s r hobeys a id base size
  refine ⟨fun hempty hsize hlow hhigh hdisjoint => exec_define hobeys (bufDefine_disjoint hempty hsize hlow hhigh hdisjoint),
    fun b hb hp => ⟨fun hl => exec_free hobeys (bufFree_leased hb hp hl), fun hl => exec_free hobeys (bufFree_idle hb hp hl)⟩,
    ?_, fun b hb => exec_query hobeys (bufQuery_defined hb),
    fun k l hview hdone => exec_freeDonePop hobeys.1 hview hdone⟩
  intro met m hmobeys c id settled
  exact ⟨fun b hb hp hl => exec_cancel hmobeys (bufCancel_leased hb hp hl), fun hempty => exec_cancel hmobeys (bufCancel_empty hempty)⟩

/-- Settles O30: the four states of the selected buffer, one by one. -/
theorem freeFollowsTheBufferState : Obligations.FreeFollowsTheBufferState := by
  unfold Obligations.FreeFollowsTheBufferState
  intro s r hobeys a id ends
  exact ⟨fun b hb hp hl => exec_free hobeys (bufFree_idle hb hp hl), fun b hb hp hl => exec_free hobeys (bufFree_leased hb hp hl),
    fun b hb hp => exec_free hobeys (bufFree_pending hb hp), fun hempty => exec_free hobeys (bufFree_empty hempty)⟩

end Sys2Proof.Machine
end

section
/-!
PROOFS. Map builds and MAP_SET (R74 to R76).
-/
namespace Sys2Proof.Machine

/-! ### The start of a build -/

/-- The device with build `m` begun: the cell map it will make is stamped no longer, and its buffers are held (R74, R76, R83). -/
def State.buildBegun (s : State) (m : MapBuild) : State :=
  let b : State := { s with lease := { s.lease with build := some m, stamps := s.lease.stamps.filter fun x => x.cell != m.cell } }
  (b.hold .build m.fix).hold .build m.cell

/-- Holding a buffer leaves every buffer's definition (R83). -/
@[simp] theorem State.hold_bufSize (s : State) (t : HoldTag) (id k : Nat) : (s.hold t id).bufSize k = s.bufSize k := by
  unfold State.hold
  split <;> rfl

/-- A build that begins leaves every buffer's definition. -/
@[simp] theorem State.buildBegun_bufSize (s : State) (m : MapBuild) (k : Nat) : (s.buildBegun m).bufSize k = s.bufSize k := by
  unfold State.buildBegun
  rw [State.hold_bufSize, State.hold_bufSize]
  rfl

/-- What build `m`, once begun, has done by the next command (R74, R75). -/
def State.buildFirst (s : State) (m : MapBuild) : State :=
  let n := s.fresh 262145
  if s.bufSize m.cell < 0x4000000 then (s.wr A.MAPS_BUILD_STAT (w32 (2 ^ 30))).wr A.MAPS_CLIP_COUNT 0
  else engineRead (s.bufBase m.fix) (fun t => buildOn m n.1 (t.memClear (t.bufBase m.cell) 0x4000000)) n.2

/-- A write of BUILD_CMD takes its action (R74). -/
theorem exec_mapsBuild {s t : State} {r : Req} {v : Word} (h : s.reaches r P.MAPS) (ht : mapsBuildOp v (s.arrive r P.MAPS) = t) :
    exec (.mapsBuild r v) s = .next (finish s (t.reply r .done)) :=
  gated_of (regWrite_acts h 0x084 (by decide) (by decide) v
    (d := ⟨0x084, 0, 1, .single, [⟨31, 31, .wo, 0⟩, ⟨27, 16, .wo, 0⟩, ⟨11, 0, .wo, 0⟩]⟩) rfl rfl (by decide) rfl (congrArg some ht))

/-- BUILD_CMD while a build runs is rejected (R74). -/
theorem mapsBuildOp_busy {v : Word} {s : State} (hi : s.injArmed P.MAPS 31 = false) (hgo : bitOf v 31 = true)
    (hbusy : s.lease.build ≠ none) : mapsBuildOp v s = s.guard1 P.MAPS 31 0x1C (some 4) := by
  unfold mapsBuildOp
  rw [State.detect_unarmed hi]
  dsimp only
  rw [if_neg (by rw [hgo]; decide), if_neg (by decide), if_pos (by simp [Option.isSome_iff_ne_none.mpr hbusy])]

/-- BUILD_CMD on buffers that allow it begins a build (R74). -/
theorem mapsBuildOp_begins {v : Word} {s : State} (hi : s.injArmed P.MAPS 31 = false) (hgo : bitOf v 31 = true)
    (hidle : s.lease.build = none) :
    let fix := fget v ⟨27, 16⟩
    let cell := fget v ⟨11, 0⟩
    fix ≠ nullBuf → cell ≠ nullBuf → s.bufState fix ≠ 0 → s.bufState fix ≠ 3 → s.bufState cell = 1 → 0x400000 ≤ s.bufSize fix →
      let m : MapBuild := ⟨fix, cell, s.wgen fix, 0, 0, 0, 0, none⟩
      mapsBuildOp v s = (s.buildBegun m).buildFirst m := by
  intro fix cell hfix hcell hdefined hfree hcellIdle hfull m
  have hallowed : (s.lease.build.isSome || fix == nullBuf || cell == nullBuf || s.bufState fix == 0 || s.bufState fix == 3 ||
      s.bufState cell != 1) = false := by
    simp [hidle, hfix, hcell, hdefined, hfree, hcellIdle]
  have hwhole : ¬ (s.buildBegun m).bufSize fix < 0x400000 := by
    rw [State.buildBegun_bufSize]
    exact Nat.not_lt.mpr hfull
  unfold mapsBuildOp
  rw [State.detect_unarmed hi]
  dsimp only
  rw [if_neg (by rw [hgo]; decide), if_neg (by decide), if_neg (by rw [hallowed]; decide)]
  exact congrArg (State.buildFirst · m) (if_neg hwhole)

/-- A build that begins on a target too small for a cell map has no more to do before its end (R75). -/
theorem buildFirst_small {s : State} {m : MapBuild} (h : s.bufSize m.cell < 0x4000000) :
    (s.buildBegun m).buildFirst m = ((s.buildBegun m).wr A.MAPS_BUILD_STAT (w32 (2 ^ 30))).wr A.MAPS_CLIP_COUNT 0 :=
  if_pos (by rwa [State.buildBegun_bufSize])

/-- A build that begins on a target that holds a cell map clears it and reads some entries (R74). -/
theorem buildFirst_reads {s : State} {m : MapBuild} (h : 0x4000000 ≤ s.bufSize m.cell) :
    let t := s.buildBegun m
    let n := t.fresh 262145
    t.buildFirst m =
      engineRead (t.bufBase m.fix) (fun u => buildOn m n.1 (u.memClear (u.bufBase m.cell) 0x4000000)) n.2 :=
  if_neg (by rw [State.buildBegun_bufSize]; exact Nat.not_lt.mpr h)

/-! ### The end of a build -/

/-- A build whose target is too small fails (R75). -/
theorem mapBuildEndOp_small {s : State} {b : MapBuild} (hb : s.lease.build = some b) (hsmall : s.bufSize b.cell < 0x4000000) :
    mapBuildEndOp s = buildFailed ⟨2, none, 0, none⟩ 0 s := by
  unfold mapBuildEndOp
  rw [hb]
  exact if_pos hsmall

/-- A build that goes on is still in progress after it. -/
theorem buildOn_build (b : MapBuild) (n : Nat) (s : State) : ∃ e, (buildOn b n s).lease.build = some e := ⟨_, rfl⟩

/-- A build that fails on the way reports its failure at its end (R75). -/
theorem mapBuildEndOp_fails {s : State} {b e : MapBuild} {f : BuildFail} (hb : s.lease.build = some b)
    (hlarge : 0x4000000 ≤ s.bufSize b.cell) (he : (buildOn b 262144 s).lease.build = some e) (hf : e.fail = some f) :
    mapBuildEndOp s = buildFailed f e.progress (buildOn b 262144 s) := by
  unfold mapBuildEndOp
  rw [hb]
  dsimp only
  rw [if_neg (Nat.not_lt.mpr hlarge), he, Option.getD_some, hf]

/-- A build that succeeds stamps its target (R76). -/
theorem mapBuildEndOp_stamps {s : State} {b e : MapBuild} (hb : s.lease.build = some b) (hlarge : 0x4000000 ≤ s.bufSize b.cell)
    (he : (buildOn b 262144 s).lease.build = some e) (hf : e.fail = none) :
    let t := (buildOn b 262144 s).wr A.MAPS_BUILD_STAT (w32 (2 * 2 ^ 30 + e.progress))
    let x : State := { t with lease := { t.lease with build := none, stamps := ⟨e.cell, e.fix, e.gen, e.owned⟩ :: t.lease.stamps } }
    mapBuildEndOp s = (x.release .build).raise P.MAPS 0 := by
  unfold mapBuildEndOp
  rw [hb]
  dsimp only
  rw [if_neg (Nat.not_lt.mpr hlarge), he, Option.getD_some, hf]

/-! ### MAP_SET -/

/-- A word that one check rejects is rejected, whatever the checks before it made of it (R21). -/
theorem judgeWord_append_rej (cs : List Chk) (code : Nat) (fbit : Option Nat) (forced : Bool) (w : Word) :
    (judgeWord (cs ++ [.rej true code fbit]) forced w).val = none := by
  have hlast (forced : Bool) (j : Judged) : (Chk.apply (.rej true code fbit) forced j).val = none := by
    unfold Chk.apply
    cases hj : j.val with
    | none => exact hj
    | some v => rfl
  cases cs with
  | nil => exact hlast forced ⟨some w, []⟩
  | cons c cs =>
    unfold judgeWord
    rw [List.cons_append]
    dsimp only
    rw [List.foldl_append]
    exact hlast false _

/-- The checks of MAP_SET: its buffers, and then its pair (R76, R82). -/
theorem checksOf_mapSet (s : State) (w : Word) :
    checksOf s A.MAPS_MAP_SET w = bufChecks s A.MAPS_MAP_SET w ++ [.rej (!s.mapSetOk w) 0x1B (some 3)] := rfl

/-- MAP_SET rejects a pair that no build has stamped (R76). -/
theorem judge_mapSet_rejects {s : State} {w : Word} (h : s.mapSetOk w = false) : (s.judge A.MAPS_MAP_SET w).1 = none := by
  unfold State.judge
  dsimp only
  rw [checksOf_mapSet, h]
  exact judgeWord_append_rej _ _ _ _ _

/-- A word that every check lets pass is judged good, with no injection armed into the guard of its page (R21). -/
theorem judge_passes {s : State} {a : Nat} {w : Word} (hi : s.injArmed (a / 0x1000) 31 = false)
    (hj : judgeWord (checksOf s a w) false w = ⟨some w, []⟩) : s.judge a w = (some w, s) := by
  unfold State.judge
  simp only [hi, Bool.and_false, hj, Bool.false_eq_true, if_false, State.guardActs, List.isEmpty_nil, if_true, Bool.not_true, and_false]

/-- MAP_SET as the register map has it (R95). -/
abbrev mapSetReg : RegDef := ⟨0x080, 0, 1, .single, [⟨27, 16, .rws, 4095⟩, ⟨11, 0, .rws, 4095⟩]⟩

/-- MAP_SET stages the word that its checks let pass (R33, R76). -/
theorem exec_mapSet_stages {s t : State} {r : Req} {v w : Word} (h : s.reaches r P.MAPS) (hj : (s.arrive r P.MAPS).judge A.MAPS_MAP_SET
      (mapSetReg.merge ((s.arrive r P.MAPS).shd A.MAPS_MAP_SET) v) = (some w, t)) :
    exec (.mapSet r v) s = .next (finish s
      ((refit A.MAPS_MAP_SET (trigMark A.MAPS_MAP_SET (dirtyMark P.MAPS (t.wrShadow A.MAPS_MAP_SET w)))).reply r .done)) := by
  refine gated_of ((regWrite_shadowed h (o := 0x080) (by decide) (by decide) (d := mapSetReg) rfl rfl rfl).trans ?_)
  rw [show P.MAPS * 0x1000 + 0x080 = A.MAPS_MAP_SET from rfl, hj]

/-- MAP_SET stages nothing where a check rejects its word (R21, R76). -/
theorem exec_mapSet_rejects {s : State} {r : Req} {v : Word} (h : s.reaches r P.MAPS) :
    let j := (s.arrive r P.MAPS).judge A.MAPS_MAP_SET (mapSetReg.merge ((s.arrive r P.MAPS).shd A.MAPS_MAP_SET) v)
    j.1 = none → exec (.mapSet r v) s = .next (finish s (j.2.reply r .done)) := by
  intro j hj
  refine gated_of ((regWrite_shadowed h (o := 0x080) (by decide) (by decide) (d := mapSetReg) rfl rfl rfl).trans ?_)
  rw [show P.MAPS * 0x1000 + 0x080 = A.MAPS_MAP_SET from rfl, hj]

/-- Settles O32: a build's start, its end and MAP_SET, each by its own rule. -/
theorem mapBuildsRunAndAreSet : Obligations.MapBuildsRunAndAreSet := by
  unfold Obligations.MapBuildsRunAndAreSet
  intro s r v hobeys a fix cell
  obtain ⟨hreach, hguard⟩ := hobeys
  have hend {u : State} (hu : mapBuildEndOp s = u) : exec .mapBuildEnd s = .next (finish s u) := exec_of_gated hreach.1 rfl hu
  refine ⟨fun hgo hidle hfix hcell hdefined hfree hcellIdle hfull => ?_,
    fun hgo hbusy => exec_mapsBuild hreach (mapsBuildOp_busy hguard hgo hbusy),
    fun b hb hsmall => hend (mapBuildEndOp_small hb hsmall), fun b hb hlarge => ?_, ?_⟩
  · have hbegins := mapsBuildOp_begins hguard hgo hidle hfix hcell hdefined hfree hcellIdle hfull
    exact ⟨fun hsmall => exec_mapsBuild hreach (hbegins.trans (buildFirst_small hsmall)),
      fun hlarge => exec_mapsBuild hreach (hbegins.trans (buildFirst_reads hlarge))⟩
  · obtain ⟨e, he⟩ := buildOn_build b 262144 s
    exact ⟨e, he, fun f hf => hend (mapBuildEndOp_fails hb hlarge he hf), fun hf => hend (mapBuildEndOp_stamps hb hlarge he hf)⟩
  · intro w
    constructor
    · intro hpasses _
      obtain ⟨hword, hothers, -, hactive, hmem, -, -⟩ := shadowStore_spec P.MAPS A.MAPS_MAP_SET w r a
      have hfollower : follower A.MAPS_MAP_SET = none := rfl
      exact ⟨_, exec_mapSet_stages hreach (judge_passes hguard hpasses), hword,
        fun b hb => hothers b hb (by rw [hfollower]; exact (Option.some_ne_none b).symm), hactive, hmem⟩
    · intro hunstamped
      obtain ⟨jshadow, -, jactive, -, -, -⟩ := a.judge_keeps A.MAPS_MAP_SET w
      obtain ⟨-, hshadow, hactive, -, -, -, -, -⟩ := State.reply_spec (a.judge A.MAPS_MAP_SET w).2 r .done
      exact ⟨_, exec_mapSet_rejects hreach (judge_mapSet_rejects hunstamped), hshadow.trans jshadow, hactive.trans jactive⟩

end Sys2Proof.Machine
end

section
/-!
PROOFS. Slot commands, and the CANCEL that meets another event in its cycle (R116, R117, R119, R121, R127, R128, R134).
-/
namespace Sys2Proof.Machine

/-! ### What each command does -/

section
variable {a : State} {r : Req} {k : Nat}

/-- ARM of an armable slot that has no delay makes it wait (R117). -/
theorem armSlot_waits (hempty : a.slotEmpty k = false) (hst : (a.slot k).st = .idle ∨ (a.slot k).st = .done)
    (hdelay : dDelay (a.desc k) = 0) :
    armSlot k a = (1, a.setSlot k { a.slot k with st := .wait, fresh := true, resume := none }) := by
  unfold armSlot
  rw [if_neg (by rw [hempty]; decide), if_neg (by rcases hst with h | h <;> rw [h] <;> decide)]
  exact if_pos hdelay

/-- ARM of an armable slot that has a delay puts it on the delay list (R117, R121). -/
theorem armSlot_delays (hempty : a.slotEmpty k = false) (hst : (a.slot k).st = .idle ∨ (a.slot k).st = .done)
    (hdelay : dDelay (a.desc k) ≠ 0) :
    let t := (countTicks a).setSlot k { a.slot k with st := .delay, fresh := true, resume := none }
    armSlot k a = (1, { t with sched := { t.sched with
      delays := t.sched.delays ++ [⟨k, dDelay (a.desc k), dTick (a.desc k)⟩] } }) := by
  intro t
  unfold armSlot
  rw [if_neg (by rw [hempty]; decide), if_neg (by rcases hst with h | h <;> rw [h] <;> decide)]
  exact if_neg hdelay

/-- ARM of a slot that is armed already changes nothing (R117). -/
theorem armSlot_busy (hempty : a.slotEmpty k = false) (hidle : (a.slot k).st ≠ .idle) (hdone : (a.slot k).st ≠ .done) :
    armSlot k a = (2, a) := by
  unfold armSlot
  rw [if_neg (by rw [hempty]; decide), if_pos (by simp [hidle, hdone])]

/-- ARM reports what arming gave, once the waits are judged and the benches offered (R120, R126, R134). -/
theorem cmdArm_of {n : Nat} {t : State} (h : armSlot k a = (n, t)) : cmdArm r k a = slotResult r n k (schedKick (evalWaits t)) := by
  unfold cmdArm
  rw [h]

/-- CANCEL of a slot that runs on no bench takes it off every list (R117). -/
theorem cancelSlot_unlists (hbench : a.benchOf k = none) :
    let st := if (a.slot k).st = .done then SlotSt.done else SlotSt.idle
    cancelSlot k a = (a.unlist k).setSlot k { a.slot k with st := st, pflags := 0, resume := none } := by
  unfold cancelSlot
  simp only [hbench, beq_iff_eq]
  rfl

/-- CANCEL of a job that runs stops it after the cell in progress (R117). -/
theorem cancelSlot_stops {b : Nat} {j : RunJob} (hbench : a.benchOf k = some b) (hjob : (a.bench b).job = some j) :
    let t := (stopJob b false true a).2.dropCopies b k
    cancelSlot k a = t.setSlot k { t.slot k with
      st := .idle, pflags := 0, status := 4, resume := none, fresh := false, frameLast := j.frame } := by
  unfold cancelSlot
  simp only [hbench, hjob]

/-- CANCEL reports what cancelling gave, once the benches are offered (R117, R134). -/
theorem cmdCancel_of {t : State} (h : cancelSlot k a = t) : cmdCancel r k a = slotResult r 1 k (schedKick t) := by
  unfold cmdCancel
  rw [h]

/-- PSET sets the written personal flags (R119). -/
theorem cmdPset_byte (f : Byte) : cmdPset r k f.toNat a = slotResult r 1 k (schedKick (evalWaits
    (a.setSlot k { a.slot k with pflags := (a.slot k).pflags ||| f.toNat }))) := by
  unfold cmdPset
  rw [Nat.mod_eq_of_lt f.isLt]

/-- PCLR clears the written personal flags (R119). -/
theorem cmdPclr_byte (f : Byte) : cmdPclr r k f.toNat a = slotResult r 1 k (schedKick (evalWaits
    (a.setSlot k { a.slot k with pflags := (a.slot k).pflags &&& (255 - f.toNat) }))) := by
  unfold cmdPclr
  rw [Nat.mod_eq_of_lt f.isLt]

end

/-! ### The commands at the scheduler -/

/-- What the scheduler does with a write of SLOT_CMD for slot `k` whose upper fields are `m` (R128, R134). -/
def slotArrive (r : Req) (m k : Nat) (s : State) : State := schedArrive ⟨r, A.SCHED_SLOT_CMD, (w32 (m + k)).zeroExtend 64⟩ s

/-- A write that arrives during the boundary steps waits behind those before it (R128). -/
theorem schedArrive_holding {s : State} {w : HeldWrite} (h : s.sched.holding = true) :
    schedArrive w s = { s with sched := { s.sched with held := s.sched.held ++ [w] } } := if_pos h

/-- A slot command is a write of SLOT_CMD (R134). -/
theorem exec_slotCmd {s u : State} {r : Req} {k m : Nat} {c : Instr} (hobeys : s.obeys r P.SCHED) (hk : k < 4096)
    (hc : exec c s = gated (regWrite r P.SCHED 0x098 (w32 (m + k % 4096))) s)
    (hu : slotArrive r m k (s.arrive r P.SCHED) = u) : exec c s = .next (finish s (u.reply r .done)) := by
  rw [Nat.mod_eq_of_lt hk] at hc
  subst hu
  exact hc.trans (gated_of (regWrite_slotCmd hobeys _))

section
variable {s u : State} {r : Req} {k : Nat} (hobeys : s.obeys r P.SCHED) (hk : k < 4096)
include hobeys hk

/-- OP 1 is ARM (R117). -/
theorem exec_arm (hu : slotArrive r (1 * 2 ^ 28) k (s.arrive r P.SCHED) = u) :
    exec (.arm r k) s = .next (finish s (u.reply r .done)) := exec_slotCmd hobeys hk rfl hu

/-- OP 2 is CANCEL (R117). -/
theorem exec_slotCancel (hu : slotArrive r (2 * 2 ^ 28) k (s.arrive r P.SCHED) = u) :
    exec (.slotCancel r k none) s = .next (finish s (u.reply r .done)) := exec_slotCmd hobeys hk rfl hu

/-- OP 3 is PSET (R119). -/
theorem exec_pset {f : Byte} (hu : slotArrive r (3 * 2 ^ 28 + f.toNat * 65536) k (s.arrive r P.SCHED) = u) :
    exec (.pset r k f) s = .next (finish s (u.reply r .done)) := exec_slotCmd hobeys hk rfl hu

/-- OP 4 is PCLR (R119). -/
theorem exec_pclr {f : Byte} (hu : slotArrive r (4 * 2 ^ 28 + f.toNat * 65536) k (s.arrive r P.SCHED) = u) :
    exec (.pclr r k f) s = .next (finish s (u.reply r .done)) := exec_slotCmd hobeys hk rfl hu

/-- OP 5 is QUERY (R134). -/
theorem exec_slotQuery (hu : slotArrive r (5 * 2 ^ 28) k (s.arrive r P.SCHED) = u) :
    exec (.slotQuery r k) s = .next (finish s (u.reply r .done)) := exec_slotCmd hobeys hk rfl hu

end

section
variable {a : State} {r : Req} {k : Nat} (hk : k < 4096) (hguard : a.injArmed P.SCHED 31 = false) (hidle : a.sched.holding = false)
include hk hguard hidle

/-- ARM outside the boundary steps (R117, R128). -/
theorem slotArrive_arm : slotArrive r (1 * 2 ^ 28) k a = cmdArm r k a :=
  schedArrive_slotCmd 1 0 k (by decide) (by decide) hk hidle hguard

/-- CANCEL outside the boundary steps (R117, R128). -/
theorem slotArrive_cancel : slotArrive r (2 * 2 ^ 28) k a = cmdCancel r k a :=
  schedArrive_slotCmd 2 0 k (by decide) (by decide) hk hidle hguard

/-- PSET outside the boundary steps (R119, R128). -/
theorem slotArrive_pset (f : Byte) : slotArrive r (3 * 2 ^ 28 + f.toNat * 65536) k a = cmdPset r k f.toNat a :=
  schedArrive_slotCmd 3 f.toNat k (by decide) f.isLt hk hidle hguard

/-- PCLR outside the boundary steps (R119, R128). -/
theorem slotArrive_pclr (f : Byte) : slotArrive r (4 * 2 ^ 28 + f.toNat * 65536) k a = cmdPclr r k f.toNat a :=
  schedArrive_slotCmd 4 f.toNat k (by decide) f.isLt hk hidle hguard

/-- QUERY outside the boundary steps (R134, R128). -/
theorem slotArrive_query : slotArrive r (5 * 2 ^ 28) k a = cmdSlotQuery r k a :=
  schedArrive_slotCmd 5 0 k (by decide) (by decide) hk hidle hguard

end

/-! ### A CANCEL that meets another event -/

/-- The job on a bench can end now: one that samples waits while a slice holds the sampler (R129, R436). -/
def State.canEnd (s : State) (b : Nat) : Bool :=
  match (s.bench b).job with
  | some j => dKind j.desc != 2 || !s.sliceOn P.SAMPLER
  | none => false

/-- What a CANCEL of slot `k` meets, of what comes with it: an end that has not come due is not met (R127). -/
def State.cancelMeets (s : State) (k : Nat) : Option Meet → Option Meet
  | some .finish => if (s.benchOf k).any s.canEnd then some .finish else none
  | some (.other b) => if !s.canEnd b then none else if s.benchOf k = some b then some .finish else some (.other b)
  | some .delay => if (delayDueOp k s).slot k = s.slot k then none else some .delay
  | m => m

/-- When a CANCEL meets an event: the expiry of a delay comes at its tick (R121). -/
def State.meetTime (s : State) (k : Nat) (m : Meet) : State :=
  match (match m with | .delay => s.delayDue k | _ => none) with
  | some due => reach due s
  | none => s

/-- Nothing holds a write of SLOT_CMD back, and no injection takes it (R56, R128, R455). -/
def State.cancelPrompt (s : State) : Prop :=
  s.sched.holding = false ∧ s.mustWait P.SCHED = false ∧ bitOf (s.rd (H.PAGE_STAT P.SCHED)) 28 = false ∧
    s.injArmed P.SCHED 30 = false ∧ s.injArmed P.SCHED 31 = false ∧ s.injArmed P.HOST 1 = false

/-- A CANCEL and the event that it meets are taken as one (R119, R127). -/
theorem exec_slotCancel_meets {s u : State} {r : Req} {k : Nat} {meets : Option Meet} {m : Meet} (hruns : s.runs) (hk : k < 4096)
    (hprompt : s.cancelPrompt) (hmeets : s.cancelMeets k meets = some m) (hu : slotRace r k m (s.meetTime k m) = u) :
    exec (.slotCancel r k meets) s = .next (finish s (u.reply r .done)) := by
  obtain ⟨hidle, hwait, hstat, hstall, hguard, hhost⟩ := hprompt
  refine exec_of_gated (f := slotCancelOp r k meets) hruns rfl ?_
  subst hu
  unfold slotCancelOp
  rw [Nat.mod_eq_of_lt hk]
  change (match s.cancelMeets k meets with | none => _ | some m => _) = _
  rw [hmeets]
  simp only [hidle, hwait, hstat, hstall, hguard, hhost, Bool.or_self, Bool.false_eq_true, if_false]
  rfl

/-- A CANCEL that meets nothing is a CANCEL alone. -/
theorem exec_slotCancel_alone {s : State} {r : Req} {k : Nat} {meets : Option Meet} (hmeets : s.cancelMeets (k % 4096) meets = none) :
    exec (.slotCancel r k meets) s = exec (.slotCancel r k none) s := by
  have halone : slotCancelOp r k meets s = slotCancelOp r k none s := by
    unfold slotCancelOp
    change (match s.cancelMeets (k % 4096) meets with | none => _ | some m => _) = _
    rw [hmeets]
  change gated (slotCancelOp r k meets) s = gated (slotCancelOp r k none) s
  unfold gated running
  rw [halone]

section
variable {s : State} {r : Req} {k b : Nat} {j : RunJob}

/-- A job that does not sample can end at any time. -/
theorem State.canEnd_of_kind (hjob : (s.bench b).job = some j) (hkind : dKind j.desc ≠ 2) : s.canEnd b = true := by
  unfold State.canEnd
  simp [hjob, hkind]

/-- The slot's own job ends in the CANCEL's cycle. -/
theorem State.cancelMeets_finish (hbench : s.benchOf k = some b) (hjob : (s.bench b).job = some j) (hkind : dKind j.desc ≠ 2) :
    s.cancelMeets k (some .finish) = some .finish := by
  refine if_pos ?_
  rw [hbench]
  exact State.canEnd_of_kind hjob hkind

/-- No job of the slot can end where none runs. -/
theorem State.cancelMeets_finish_idle (hbench : s.benchOf k = none) : s.cancelMeets k (some .finish) = none := by
  refine if_neg ?_
  rw [hbench]
  exact Bool.false_ne_true

/-- Another job's end comes in the CANCEL's cycle. -/
theorem State.cancelMeets_other (hjob : (s.bench b).job = some j) (hkind : dKind j.desc ≠ 2) (hother : s.benchOf k ≠ some b) :
    s.cancelMeets k (some (.other b)) = some (.other b) :=
  (if_neg (by rw [State.canEnd_of_kind hjob hkind]; decide)).trans (if_neg hother)

/-- The slot's delay expires in the CANCEL's cycle. -/
theorem State.cancelMeets_delay (hexpires : (delayDueOp k s).slot k ≠ s.slot k) : s.cancelMeets k (some .delay) = some .delay :=
  if_neg hexpires

/-- Cancel wins against a PSET that would have made the job ready (R119, R127). -/
theorem slotRace_pset {q : Req} {f : Byte} (hwait : (s.slot k).st = .wait) (hen : s.schedEn = true)
    (hready : (s.setSlot k { s.slot k with pflags := (s.slot k).pflags ||| f.toNat }).waitHolds k = true) :
    slotRace r k (.pset q f) s = slotResult q 1 k (raceWon (cmdCancel r k s)) := by
  unfold slotRace
  simp only [hwait, hen] at hready ⊢
  rw [hready]
  rfl

/-- Cancel wins against a GSET that would have made the job ready (R119, R127). -/
theorem slotRace_gset {q : Req} {f : Cell} (hwait : (s.slot k).st = .wait) (hen : s.schedEn = true)
    (hready : (s.changeFlags 0 f.toNat).waitHolds k = true) :
    slotRace r k (.gset q f) s = raceWon (cmdGset f.toNat (cmdCancel r k s)) := by
  unfold slotRace
  simp only [hwait, hen, hready]
  rfl

/-- Cancel wins against the end of the slot's job, which has written its cells and takes no completion action (R127). -/
theorem slotRace_finish (hbench : s.benchOf k = some b) (hjob : (s.bench b).job = some j) :
    let t := (((runJob b j (s.slot k).fresh none false true s).2).benchIdle b).dropCopies b k
    let x := { t.slot k with st := SlotSt.idle, pflags := 0, status := 4, frameLast := j.frame, fresh := false, resume := none }
    slotRace r k .finish s = raceWon (slotResult r 1 k (schedKick (t.setSlot k x))) := by
  unfold slotRace
  simp only [hbench, hjob]

/-- Cancel wins against the expiry of a delay that would have made the job ready (R121, R127). -/
theorem slotRace_delay (hdue : (s.sched.delays.any fun e => e.slot == k && e.tick) = true) (hen : s.schedEn = true)
    (hready : s.waitHolds k = true) : slotRace r k .delay s = raceWon (cmdCancel r k s) := by
  unfold slotRace
  simp only [hdue, hen, hready, Bool.and_self, if_true]

/-- Cancel wins against another job's completion that arms the slot (R127, R129). -/
theorem slotRace_other (harms : ((jobEnds b s).slot k).st ≠ (s.slot k).st) :
    slotRace r k (.other b) s = raceWon (slotResult r 1 k (schedKick (evalWaits (cancelSlot k (jobEnds b s))))) := by
  unfold slotRace
  simp only [harms, decide_true, ne_eq, not_false_eq_true, Bool.true_or, if_true]

end

/-- Settles O33: each command by its own rule, and each race by what the CANCEL meets. -/
theorem slotCommandsTakeEffect : Obligations.SlotCommandsTakeEffect := by
  unfold Obligations.SlotCommandsTakeEffect
  constructor
  · intro s r k hk hobeys a x
    have hguard : a.injArmed P.SCHED 31 = false := hobeys.2
    constructor
    · intro hidle
      have harm {n : Nat} {t : State} (h : armSlot k a = (n, t)) :=
        exec_arm hobeys hk ((slotArrive_arm hk hguard hidle).trans (cmdArm_of h))
      have hcancel {t : State} (h : cancelSlot k a = t) :=
        exec_slotCancel hobeys hk ((slotArrive_cancel hk hguard hidle).trans (cmdCancel_of h))
      exact ⟨fun hempty hst => ⟨fun hdelay => harm (armSlot_waits hempty hst hdelay),
          fun hdelay => harm (armSlot_delays hempty hst hdelay)⟩,
        fun hempty hnidle hndone => harm (armSlot_busy hempty hnidle hndone), fun hbench => hcancel (cancelSlot_unlists hbench),
        fun b j hbench hjob => hcancel (cancelSlot_stops hbench hjob),
        fun f => ⟨exec_pset hobeys hk ((slotArrive_pset hk hguard hidle f).trans (cmdPset_byte f)),
          exec_pclr hobeys hk ((slotArrive_pclr hk hguard hidle f).trans (cmdPclr_byte f))⟩,
        exec_slotQuery hobeys hk (slotArrive_query hk hguard hidle)⟩
    · intro hholding later
      exact ⟨exec_arm hobeys hk (schedArrive_holding hholding), exec_slotCancel hobeys hk (schedArrive_holding hholding),
        fun f => ⟨exec_pset hobeys hk (schedArrive_holding hholding), exec_pclr hobeys hk (schedArrive_holding hholding)⟩,
        exec_slotQuery hobeys hk (schedArrive_holding hholding)⟩
  · intro s r k hk hobeys hidle hwait hstat hstall hguard hhost
    have hmeet {meets : Option Meet} {m : Meet} {u : State} :=
      exec_slotCancel_meets (r := r) (meets := meets) (m := m) (u := u) hobeys.1.1 hk ⟨hidle, hwait, hstat, hstall, hguard, hhost⟩
    refine ⟨fun q => hmeet rfl rfl, fun q f hst hen hready => hmeet rfl (slotRace_pset hst hen hready),
      fun q f hst hen hready => hmeet rfl (slotRace_gset hst hen hready),
      fun b j hbench hjob hkind => hmeet (State.cancelMeets_finish hbench hjob hkind) (slotRace_finish hbench hjob), ?_,
      fun b j hjob hkind hother harms => hmeet (State.cancelMeets_other hjob hkind hother) (slotRace_other harms),
      fun hbench => exec_slotCancel_alone ?_⟩
    · intro due hdue hexpires t hlisted hen hready
      have htime : s.meetTime k .delay = t := by
        unfold State.meetTime
        simp only [hdue]
        rfl
      exact hmeet (State.cancelMeets_delay hexpires) (by rw [htime]; exact slotRace_delay hlisted hen hready)
    · rw [Nat.mod_eq_of_lt hk]
      exact State.cancelMeets_finish_idle hbench

end Sys2Proof.Machine
end

section
/-!
PROOFS. Global flags, and the boundary steps of the scheduler (R119, R120, R128).
-/
namespace Sys2Proof.Machine

/-! ### A write of GSET or GCLR -/

/-- A 64-bit value is its two words. -/
theorem words_append (f : Cell) : f.extractLsb' 32 32 ++ f.extractLsb' 0 32 = f :=
  (BitVec.extractLsb'_append_extractLsb'_eq_extractLsb' rfl).trans BitVec.extractLsb'_eq_self

/-- GSET outside the boundary steps (R119). -/
theorem schedArrive_gset {s : State} {r : Req} {f : Cell} (hidle : s.sched.holding = false) :
    schedArrive ⟨r, A.SCHED_GSET_LO, f⟩ s = cmdGset f.toNat s := by
  have hother : A.SCHED_GSET_LO ≠ A.SCHED_SLOT_CMD := by decide
  unfold schedArrive schedWrite
  simp only [hidle, hother, Bool.false_eq_true, if_false, if_true]

/-- GCLR outside the boundary steps (R119). -/
theorem schedArrive_gclr {s : State} {r : Req} {f : Cell} (hidle : s.sched.holding = false) :
    schedArrive ⟨r, A.SCHED_GCLR_LO, f⟩ s = cmdGclr f.toNat s := by
  have hslot : A.SCHED_GCLR_LO ≠ A.SCHED_SLOT_CMD := by decide
  have hset : A.SCHED_GCLR_LO ≠ A.SCHED_GSET_LO := by decide
  unfold schedArrive schedWrite
  simp only [hidle, hslot, hset, Bool.false_eq_true, if_false]

/-- The device with the lower half of a flag word held (R48). -/
def State.flagsHeld (s : State) (r : Req) (f : Cell) : State :=
  ((s.arrive r P.SCHED).setBank (holdAt P.SCHED) 1 r (f.extractLsb' 0 32)).reply r .done

/-- The writes of the two halves of a pair of flag registers arrive as one write of 64 bits (R48, R119). -/
theorem regWrites_flags {s u : State} {r : Req} {f : Cell} {o addr : Nat} {lo hi : RegDef} (ho : 0x80 ≤ o) (ho' : o + 4 < 0x1000)
    (hlo : findReg (P.SCHED * 0x1000 + o) = some lo) (hloRo : lo.readOnly = false) (hloPair : lo.pair = .lo)
    (hhi : findReg (P.SCHED * 0x1000 + (o + 4)) = some hi)
    (hhiRo : hi.readOnly = false) (hhiPair : hi.pair = .hi) (hhiRws : hi.isRws = false)
    (hact : ∀ w t, actWrite r (P.SCHED * 0x1000 + (o + 4)) w t = some (schedArrive ⟨r, addr, w ++ t.bank (holdAt P.SCHED) 1 r⟩ t))
    (hlow : s.reaches r P.SCHED) (hhigh : (s.flagsHeld r f).reaches r P.SCHED) :
    let c := (s.flagsHeld r f).arrive r P.SCHED
    c.bank (holdAt P.SCHED) 1 r = f.extractLsb' 0 32 → schedArrive ⟨r, addr, f⟩ c = u →
      regWrite r P.SCHED (o + 4) (f.extractLsb' 32 32) (regWrite r P.SCHED o (f.extractLsb' 0 32) s) = u.reply r .done := by
  intro c hhold hu
  have hfirst : regWrite r P.SCHED o (f.extractLsb' 0 32) s = s.flagsHeld r f :=
    (running_runs hlow.1 _).symm.trans (regWrite_pairLow hlow ho (by omega) hlo hloRo hloPair)
  have harrives : actWrite r (P.SCHED * 0x1000 + (o + 4)) (f.extractLsb' 32 32) c = some u := by
    rw [hact, hhold, words_append, hu]
  rw [hfirst]
  exact (running_runs hhigh.1 _).symm.trans
    (regWrite_acts hhigh (o + 4) (by omega) ho' _ hhi hhiRo (by rw [hhiPair]; decide) hhiRws harrives)

section
variable {s u : State} {r : Req} {f : Cell} (hlow : s.reaches r P.SCHED) (hhigh : (s.flagsHeld r f).reaches r P.SCHED)
include hlow hhigh

/-- GSET is a write of GSET_LO and GSET_HI (R119). -/
theorem exec_gset : let c := (s.flagsHeld r f).arrive r P.SCHED
    c.bank (holdAt P.SCHED) 1 r = f.extractLsb' 0 32 → schedArrive ⟨r, A.SCHED_GSET_LO, f⟩ c = u →
      exec (.gset r f) s = .next (finish s (u.reply r .done)) := fun hhold hu =>
  exec_of_gated hlow.1 rfl (regWrites_flags (o := 0x0B0) (lo := ⟨0x0B0, 0, 1, .lo, [⟨31, 0, .w1s, 0⟩]⟩)
    (hi := ⟨0x0B4, 0, 1, .hi, [⟨31, 0, .w1s, 0⟩]⟩) (by decide) (by decide) rfl rfl rfl rfl rfl rfl rfl (fun _ _ => rfl)
    hlow hhigh hhold hu)

/-- GCLR is a write of GCLR_LO and GCLR_HI (R119). -/
theorem exec_gclr : let c := (s.flagsHeld r f).arrive r P.SCHED
    c.bank (holdAt P.SCHED) 1 r = f.extractLsb' 0 32 → schedArrive ⟨r, A.SCHED_GCLR_LO, f⟩ c = u →
      exec (.gclr r f) s = .next (finish s (u.reply r .done)) := fun hhold hu =>
  exec_of_gated hlow.1 rfl (regWrites_flags (o := 0x0B8) (lo := ⟨0x0B8, 0, 1, .lo, [⟨31, 0, .w1c, 0⟩]⟩)
    (hi := ⟨0x0BC, 0, 1, .hi, [⟨31, 0, .w1c, 0⟩]⟩) (by decide) (by decide) rfl rfl rfl rfl rfl rfl rfl (fun _ _ => rfl)
    hlow hhigh hhold hu)

end

/-! ### The boundary steps -/

/-- The boundary steps that follow the boundary event, in order (R128). -/
theorem frameSteps_holding {s : State} (h : s.sched.holding = true) :
    let a := twinStep1 (calApplyOp (step2 (s.time.due.foldl (fun t st => streamRecord st t) s)))
    frameSteps s = headFollow (headSend (roleChange (marverBegin (heldWritesApplyOp a)))) := if_pos h

/-- The boundary steps of the scheduler end with the writes that they held and the opening of the layers (R122, R128). -/
theorem heldWritesApplyOp_holding {s : State} (h : s.sched.holding = true) :
    let t := schedSteps (consoleDue s)
    let u := applyHeld t.sched.held { t with sched := { t.sched with held := [] } }
    heldWritesApplyOp s = schedKick (openLayers { u with sched := { u.sched with applying := false } }) := by
  intro t u
  unfold heldWritesApplyOp
  rw [if_neg (by rw [h]; decide)]

/-- Settles O34: the two halves of a flag write arrive as one, and the boundary steps are their parts in order. -/
theorem globalFlagsAndHeldWrites : Obligations.GlobalFlagsAndHeldWrites := by
  unfold Obligations.GlobalFlagsAndHeldWrites
  intro s
  refine ⟨?_, fun hruns hholding => exec_of_gated hruns rfl (frameSteps_holding hholding), heldWritesApplyOp_holding⟩
  intro r f hlow b hhigh c hhold
  have hset {u : State} (hu : schedArrive ⟨r, A.SCHED_GSET_LO, f⟩ c = u) := exec_gset hlow hhigh hhold hu
  have hclr {u : State} (hu : schedArrive ⟨r, A.SCHED_GCLR_LO, f⟩ c = u) := exec_gclr hlow hhigh hhold hu
  exact ⟨fun hidle => ⟨hset (schedArrive_gset hidle), hclr (schedArrive_gclr hidle)⟩,
    fun hholding => ⟨hset (schedArrive_holding hholding), hclr (schedArrive_holding hholding)⟩⟩

end Sys2Proof.Machine
end

section
/-!
PROOFS. Delays, affinity windows, jobs that end and layers that reach their deadline (R121, R123, R124, R126, R129, R132).
-/
namespace Sys2Proof.Machine

/-! ### Waiting for the time of an event -/

/-- Waiting leaves whether the scheduler runs. -/
@[simp] theorem reach_schedEn (due : Nat) (s : State) : (reach due s).schedEn = s.schedEn := by
  unfold State.schedEn
  rw [reach_actF]

/-- Waiting leaves the layers. -/
@[simp] theorem reach_layerSt (due i : Nat) (s : State) : (reach due s).layerSt i = s.layerSt i := by
  unfold State.layerSt
  rw [reach_sched]

/-- Waiting leaves the boundary in progress and its frame's length, and so the layers' deadline (R123). -/
@[simp] theorem reach_closeDue (due : Nat) (s : State) : (reach due s).closeDue = s.closeDue := by
  obtain ⟨k, htime⟩ := reach_form due s
  unfold State.closeDue
  rw [reach_actF, htime]

/-! ### Delays and windows -/

section
variable {s : State} {k due : Nat} (hen : s.schedEn = true) (hdue : s.delayDue k = some due)
include hen hdue

/-- A tick delay is judged at its tick (R121). -/
theorem delayDueOp_reaches : delayDueOp k s = delayExpireOp k (reach due s) := by
  unfold delayDueOp
  simp only [hdue, hen, if_true]

/-- A tick delay whose ticks have all passed makes its job wait (R121). -/
theorem delayDueOp_over : let t := countTicks (reach due s)
    (t.sched.delays.any fun e => e.slot == k && e.tick && e.left == 0) = true →
      delayDueOp k s = schedKick (evalWaits ((t.unlist k).setSlot k { t.slot k with st := .wait })) := by
  intro t hover
  rw [delayDueOp_reaches hen hdue]
  exact if_pos (by rw [countTicks_schedEn, reach_schedEn, hen, hover]; rfl)

/-- A tick delay that has ticks left goes on (R121). -/
theorem delayDueOp_left : let t := countTicks (reach due s)
    (t.sched.delays.any fun e => e.slot == k && e.tick && e.left == 0) = false → delayDueOp k s = t := by
  intro t hleft
  rw [delayDueOp_reaches hen hdue]
  exact if_neg (by rw [hleft, Bool.and_false]; decide)

end

section
variable {s : State} {k : Nat} {e : AffEntry} (he : (s.sched.affinity.find? fun e => e.slot == k) = some e)
include he

/-- A window that has passed frees its job for any bench (R126). -/
theorem affinityDueOp_over : let due := e.since + s.actF A.SCHED_AFF_WINDOW ⟨15, 0⟩
    due ≤ (reach due s).nowNs → affinityDueOp k s = affinityExpireOp k (reach due s) := by
  intro due hover
  unfold affinityDueOp
  rw [he]
  exact if_pos hover

/-- A window that the next boundary cuts short stays open (R126). -/
theorem affinityDueOp_left : let due := e.since + s.actF A.SCHED_AFF_WINDOW ⟨15, 0⟩
    (reach due s).nowNs < due → affinityDueOp k s = reach due s := by
  intro due hleft
  unfold affinityDueOp
  rw [he]
  exact if_neg (Nat.not_le.mpr hleft)

end

/-! ### Jobs that end -/

/-- What a job's completion does, up to the next dispatch: its state, its completion actions and its free bench (R129). -/
theorem jobEnds_some {s : State} {b : Nat} {j : RunJob} (hjob : (s.bench b).job = some j) :
    let t := ((runJob b j (s.slot j.slot).fresh none false true s).2.benchIdle b).dropCopies b j.slot
    let x := { t.slot j.slot with st := if dRepeat j.desc then SlotSt.spent else .done, status := 1, frameLast := j.frame,
                                  fresh := false, resume := none }
    jobEnds b s = completionActions j.desc (closeQuiet (t.setSlot j.slot x)) := by
  unfold jobEnds
  rw [hjob]

/-- A job completes, where it does not wait for the sampler (R129, R436). -/
theorem jobDoneOp_ends {s : State} {b : Nat} {j : RunJob} (hjob : (s.bench b).job = some j)
    (hfree : dKind j.desc ≠ 2 ∨ s.sliceOn P.SAMPLER = false) : jobDoneOp b s = schedKick (evalWaits (jobEnds b s)) := by
  have hsampler : ¬ (dKind j.desc == 2 && s.sliceOn P.SAMPLER) = true := by
    rcases hfree with h | h <;> simp [h]
  have hbusy : ¬ (s.bench b).job.isNone = true := by
    rw [hjob]
    exact Bool.false_ne_true
  unfold jobDoneOp jobCompleteOp
  rw [if_neg hbusy, hjob]
  exact if_neg hsampler

/-! ### Local-store errors -/

/-- An uncorrectable error leaves what every bench runs (R132). -/
@[simp] theorem benchUe_bench (b w c : Nat) (s : State) : (benchUe b w s).bench c = s.bench c := by
  unfold benchUe State.bench
  rw [State.setFault_sched, State.raise_sched, State.wr_sched]

/-- An uncorrectable error ends the job that meets it (R132). -/
theorem lsErrorOp_job {s : State} {b w : Nat} {j : RunJob} (hjob : (s.bench b).job = some j) :
    lsErrorOp b w true s =
      schedKick (faultSlot b j.slot (dRepeat j.desc) j.frame (stopJob b false false (benchUe b w s)).2) := by
  have hstop := stopJob_some (p := false) (w := false) ((congrArg Bench.job (benchUe_bench b w b s)).trans hjob)
  unfold lsErrorOp
  rw [if_neg (by decide)]
  dsimp only
  rw [hstop]

/-- An uncorrectable error in an idle bench is recorded (R132). -/
theorem lsErrorOp_idle {s : State} {b w : Nat} (hidle : (s.bench b).job = none) : lsErrorOp b w true s = benchUe b w s := by
  have hstop : stopJob b false false (benchUe b w s) = (none, benchUe b w s) := by
    unfold stopJob
    rw [benchUe_bench, hidle]
  unfold lsErrorOp
  rw [if_neg (by decide)]
  dsimp only
  rw [hstop]

/-! ### Layer deadlines -/

/-- The deadline of an open layer is waited for (R123). -/
theorem deadlineOp_early {s : State} {i : Nat} (hopen : (s.layerSt i).isOpen = true) (hearly : (reach s.closeDue s).nowNs < s.closeDue) :
    deadlineOp i s = reach s.closeDue s := by
  unfold deadlineOp
  rw [if_pos hopen]
  exact if_neg (by rw [reach_closeDue]; omega)

/-- At its deadline an open layer closes, and what it still held is deferred (R123, R124). -/
theorem deadlineOp_over {s : State} {i : Nat} (hopen : (s.layerSt i).isOpen = true) (hover : s.closeDue ≤ (reach s.closeDue s).nowNs) :
    deadlineOp i s = layerDeadlineOp i (reach s.closeDue s) := by
  unfold deadlineOp
  rw [if_pos hopen]
  exact if_pos (by rw [reach_closeDue]; exact hover)

/-- Settles O35: each event by its own rule, at the time it comes. -/
theorem jobsMoveThroughTheScheduler : Obligations.JobsMoveThroughTheScheduler := by
  unfold Obligations.JobsMoveThroughTheScheduler
  refine ⟨fun s hruns => ?_, fun s b i j hjob hlayer hvideo => lateOn_some hjob hlayer hvideo (stopJob_some hjob)⟩
  have hact {c : Instr} {f : State → State} {u : State} (hc : exec c s = gated f s) (hu : f s = u) :
      exec c s = .next (finish s u) := exec_of_gated hruns hc hu
  refine ⟨fun k due hen hdue => ⟨fun hover => hact rfl (delayDueOp_over hen hdue hover),
      fun hleft => hact rfl (delayDueOp_left hen hdue hleft)⟩,
    fun k e he => ⟨fun hover => hact rfl (affinityDueOp_over he hover), fun hleft => hact rfl (affinityDueOp_left he hleft)⟩,
    fun b j hjob hfree => hact rfl ?_, fun i hopen hearly => hact rfl (deadlineOp_early hopen hearly),
    fun i hopen hover => hact rfl ?_, fun b w => hact rfl rfl, fun b w j hjob => hact rfl (lsErrorOp_job hjob),
    fun b w hidle => hact rfl (lsErrorOp_idle hidle)⟩
  · exact (jobDoneOp_ends hjob hfree).trans (congrArg (fun t => schedKick (evalWaits t)) (jobEnds_some hjob))
  · exact (deadlineOp_over hopen hover).trans (layerDeadlineOp_open ((congrArg LayerSt.isOpen (reach_layerSt _ _ _)).trans hopen))

end Sys2Proof.Machine
end

section
/-!
PROOFS. Video packets and host posts (R139 to R143, R148, R164).
-/
namespace Sys2Proof.Machine

/-! ### Video packets -/

/-- A flow takes a packet: ingest is on, the flow is of type VIDEO, served, and has slots to fill, and the packet is of a progressive frame
and within the traffic allowed. Its bytes are counted with the video received (R139, R141, R143, R164). -/
structure State.TakesVideo (s : State) (f : Nat) (pk : VideoPacket) (t : State) : Prop where
  ingest : s.ingestEn = true
  video : s.flowType f = 1
  served : s.flowsServed.contains f = true
  slots : 2 ≤ s.slotsUsed f
  whole : pk.field = false
  within : pk.excess = false
  counted : t = { s with ingest := { s.ingest with videoBytes := s.ingest.videoBytes + pk.bytes } }

/-- A packet that its flow takes is not one of those without effect. -/
theorem State.TakesVideo.served_slots {s t : State} {f : Nat} {pk : VideoPacket} (h : s.TakesVideo f pk t) :
    ¬ (!s.ingestEn || s.flowType f != 1 || !s.flowsServed.contains f || decide (s.slotsUsed f < 2)) = true := by
  rw [h.ingest, h.video, h.served, decide_eq_false (Nat.not_lt.mpr h.slots)]
  decide

/-- A packet that its flow takes is not discarded. -/
theorem State.TakesVideo.whole_within {s t : State} {f : Nat} {pk : VideoPacket} (h : s.TakesVideo f pk t) :
    ¬ (pk.field || pk.excess) = true := by
  rw [h.whole, h.within]
  decide

section
variable {s t : State} {f : Nat} {pk : VideoPacket} {fi : Fill}

/-- The first arrival of a packet while no frame is in progress begins one (R140, R143). -/
theorem videoPacketOp_begins (h : s.TakesVideo f pk t) (hfill : (t.flow f).fill = none)
    (hnew : t.twoLegs f = false ∨ (t.flow f).prevSeen.contains pk.eseq = false) :
    videoPacketOp f pk s = videoTake f pk (t.newFill f pk) t := by
  unfold videoPacketOp
  rw [if_neg h.served_slots, ← h.counted]
  dsimp only
  rw [if_neg h.whole_within, hfill, Option.filter_none, Bool.and_eq_false_iff.mpr hnew]
  rfl

/-- The first arrival of a packet goes into the frame in progress, which another timestamp ends before (R141). -/
theorem videoPacketOp_first (h : s.TakesVideo f pk t) (hfill : (t.flow f).fill = some fi)
    (hnew : t.twoLegs f = false ∨ (fi.seen.contains pk.eseq = false ∧ (t.flow f).prevSeen.contains pk.eseq = false)) :
    videoPacketOp f pk s = if fi.ts = pk.ts then videoTake f pk fi t
      else let e := endFrame f (!fi.marker) t
        videoTake f pk (e.newFill f pk) e := by
  have hframe : (t.twoLegs f && fi.seen.contains pk.eseq) = false := Bool.and_eq_false_iff.mpr (hnew.imp_right And.left)
  have hprev : (t.twoLegs f && (t.flow f).prevSeen.contains pk.eseq) = false := Bool.and_eq_false_iff.mpr (hnew.imp_right And.right)
  unfold videoPacketOp
  rw [if_neg h.served_slots, ← h.counted]
  dsimp only
  rw [if_neg h.whole_within, hfill, Option.filter_some_neg (by rw [hframe]), hprev]
  rfl

/-- The second arrival of a packet of the frame in progress is noted with its leg, and the frame ends where nothing before its marker can
still arrive (R141). -/
theorem videoPacketOp_again (h : s.TakesVideo f pk t) (hfill : (t.flow f).fill = some fi)
    (hlegs : t.twoLegs f = true) (hseen : fi.seen.contains pk.eseq = true) :
    let g : Fill := { fi.arrive pk fi.lastAt with marker := fi.marker }
    let u := t.setFlow f { t.flow f with fill := some g }
    videoPacketOp f pk s = if u.frameEnds f g then endFrame f false u else u := by
  unfold videoPacketOp
  rw [if_neg h.served_slots, ← h.counted]
  dsimp only
  rw [if_neg h.whole_within, hfill, Option.filter_some_pos (by rw [hlegs, hseen]; rfl)]

/-- The second arrival of a packet of the frame before is dropped (R141). -/
theorem videoPacketOp_late (h : s.TakesVideo f pk t) (hlegs : t.twoLegs f = true)
    (hprev : (t.flow f).prevSeen.contains pk.eseq = true) (hnew : ∀ fi, (t.flow f).fill = some fi → fi.seen.contains pk.eseq = false) :
    videoPacketOp f pk s = t := by
  have hnone : ((t.flow f).fill.filter fun fi => t.twoLegs f && fi.seen.contains pk.eseq) = none :=
    Option.filter_eq_none_iff.mpr fun fi hfi => by rw [hnew fi hfi, Bool.and_false]; decide
  unfold videoPacketOp
  rw [if_neg h.served_slots, ← h.counted]
  dsimp only
  rw [if_neg h.whole_within, hnone, hlegs, hprev]
  rfl

end

/-! ### Host posts -/

/-- Sixteen flows stand in each page of the flow block (R165). -/
theorem blkOf_flow {f : Nat} (hf : f < 256) : blkOf (P.FLOW f) = some .flow :=
  (by decide : ∀ k, k < 16 → blkOf (0x60 + k) = some .flow) (f / 16) (by omega)

/-- HOST_POST stands in the page of its flow, is no half of a pair, is not shadowed and can be written (R48, R165). -/
theorem findReg_hostPost {f : Nat} (hf : f < 256) : findReg (P.FLOW f * 0x1000 + (0x840 + f % 16 * 0x80)) =
    some ⟨0x840, 0x80, 16, .single, [⟨31, 16, .rwi, 0⟩, ⟨1, 0, .rwi, 0⟩]⟩ := by
  have hscan : P.FLOW f ≠ 0xB0 := by unfold P.FLOW; omega
  rw [findReg_block (blkOf_flow hf) (by omega) (by omega) (by decide) hscan]
  exact (by decide : ∀ k, k < 16 → findIn Blk.flow.table (0x840 + k * 0x80) =
    some ⟨0x840, 0x80, 16, .single, [⟨31, 16, .rwi, 0⟩, ⟨1, 0, .rwi, 0⟩]⟩) (f % 16)
      (Nat.mod_lt _ (by decide))

/-- A write of HOST_POST posts in its flow (R148). -/
theorem actWrite_hostPost {r : Req} {f : Nat} {v : Word} {s : State} (hf : f < 256) :
    actWrite r (P.FLOW f * 0x1000 + (0x840 + f % 16 * 0x80)) v s = some (hostPostOp f v s) := by
  have hoff : 0x840 + f % 16 * 0x80 < 0x1000 := by omega
  have hflow : (P.FLOW f - 0x60) * 16 + (0x840 + f % 16 * 0x80 - 0x800) / 0x80 = f := by unfold P.FLOW; omega
  unfold actWrite
  dsimp only
  rw [page_of hoff, offset_of hoff, blkOf_flow hf]
  dsimp only
  rw [if_pos (by omega), hflow]

/-- HOST_POST by its requester (R148). -/
theorem exec_hostPost {s u : State} {r : Req} {f : Nat} {v : Word} (hf : f < 256) (h : s.reaches r (P.FLOW f))
    (hu : hostPostOp f v (s.arrive r (P.FLOW f)) = u) : exec (.hostPost r f v) s = .next (finish s (u.reply r .done)) :=
  gated_of ((regWrite_acts h _ (by omega) (by omega) v (findReg_hostPost hf) rfl (by decide) rfl (actWrite_hostPost hf)).trans
    (congrArg (State.reply · r .done) hu))

/-- A post of an IDLE host buffer that its flow's frames fit in gives up the post that waits and holds the buffer (R148). -/
theorem hostPostOp_posts {a : State} {f : Nat} {v : Word} (hi : a.injArmed (P.FLOW f) 31 = false) (hen : a.ingestEn = true)
    (htype : a.flowType f = 4) (hserved : a.flowsServed.contains f = true) :
    let n := fget v ⟨1, 0⟩
    let b := a.hostBuf f n
    b ≠ nullBuf → (a.flowPlanes f).size ≤ a.bufSize b → (a.flowPlanes f).w ≠ 0 → a.bufState b = 1 →
      let w := a.wr (A.FLOW_HOST_POST f) (v &&& 0xFFFF0003)
      let u := match (w.flow f).hostPost with
        | some old => (w.release (.post f old.1)).flowDiscard f
        | none => w
      let x := u.hold (.post f n) b
      let y := x.setFlow f { x.flow f with hostPost := some (n, fget v ⟨31, 16⟩) }
      hostPostOp f v a = (y.put (A.FLOW_STAT f) F.FLOW_STAT_NEWEST n).flowUnit f := by
  intro n b hbuf hfits hwide hidle w u x y
  have hfree : ¬ (false || a.bufState b != 1 || b == nullBuf || decide (a.bufSize b < (a.flowPlanes f).size) ||
      (a.flowPlanes f).w == 0) = true := by
    rw [hidle, beq_eq_false_iff_ne.mpr hbuf, decide_eq_false (Nat.not_lt.mpr hfits), beq_eq_false_iff_ne.mpr hwide]
    decide
  have hserves : ¬ (!a.ingestEn || a.flowType f != 4 || !a.flowsServed.contains f) = true := by
    rw [hen, htype, hserved]
    decide
  unfold hostPostOp
  rw [State.detect_unarmed hi]
  dsimp only
  exact (if_neg hfree).trans (if_neg hserves)

/-- Settles O36: a packet by its place in the frame, its taking by definition, and a post that nothing rejects. -/
theorem videoPacketsAndHostPosts : Obligations.VideoPacketsAndHostPosts := by
  unfold Obligations.VideoPacketsAndHostPosts
  refine fun s => ⟨fun hruns f pk hen htype hserved hslots hfield hexcess => ?_, fun _ _ _ _ => rfl, ?_⟩
  · intro t
    have htakes : s.TakesVideo f pk t := ⟨hen, htype, hserved, hslots, hfield, hexcess, rfl⟩
    have hpacket {u : State} (h : videoPacketOp f pk s = u) : exec (.videoPacket f pk) s = .next (finish s u) :=
      exec_of_gated hruns rfl h
    refine ⟨fun fi hfill hnew => ?_, fun hfill hnew => hpacket (videoPacketOp_begins htakes hfill hnew),
      fun fi hfill hlegs hseen => hpacket (videoPacketOp_again htakes hfill hlegs hseen),
      fun hlegs hprev hnew => hpacket (videoPacketOp_late htakes hlegs hprev hnew)⟩
    have hfirst := videoPacketOp_first htakes hfill hnew
    exact ⟨fun hts => hpacket (hfirst.trans (if_pos hts)), fun hts => hpacket (hfirst.trans (if_neg hts))⟩
  · intro r f v hf hobeys a n b hen htype hserved hbuf hfits hwide hidle w u x y
    obtain ⟨hreach, hguard⟩ := hobeys
    exact exec_hostPost hf hreach (hostPostOp_posts hguard hen htype hserved hbuf hfits hwide hidle)

end Sys2Proof.Machine
end

section
/-!
PROOFS. sACN units, their sources, and console datagrams (R149 to R155).
-/
namespace Sys2Proof.Machine

/-! ### sACN -/

/-- An E1.31 data packet that no check discards, alters or refuses: of the DMP property format with a start code 0, with a count of properties
up to 513 and a priority up to 200 (R149). -/
structure SacnWellFormed (p : SacnData) : Prop where
  rootVec : p.rootVec = 4
  frameVec : p.frameVec = 2
  dmpVec : p.dmpVec = 2
  addrType : p.addrType = 0xA1
  firstAddr : p.firstAddr = 0
  addrIncr : p.addrIncr = 1
  startCode : p.startCode = 0
  preview : p.preview = false
  propCount : p.propCount ≠ 0
  propLimit : p.propCount ≤ 513
  prioLimit : p.prio ≤ 200

/-- The unit that a well-formed packet carries (R149). -/
def sacnUnitOf (p : SacnData) : SacnUnit :=
  ⟨p.seq % 256, p.prio, (p.slots.take (p.propCount - 1)).take 512, p.syncAddr, p.terminated⟩

/-- A source with the sequence number and the end of stream of a packet (R150, R153). -/
def SacnSrc.follows (z : SacnSrc) (p : SacnData) : SacnSrc := { z with seq := p.seq % 256, live := z.live && !p.terminated }

section
variable {s : State} {f : Nat} {p : SacnData} {z : SacnSrc}

/-- A well-formed packet of a known source is judged by its sequence number, and waits where it names a sync address (R149 to R151). -/
theorem sacnDataOp_source (hen : s.ingestEn = true) (htype : s.flowType f = 2) (hp : SacnWellFormed p)
    (hi : s.injArmed (P.FLOW f) 31 = false) (hsrc : ((s.flow f).sources.find? fun x => x.is p.cid p.univ) = some z) :
    let d := (p.seq + 256 - z.seq % 256) % 256
    sacnDataOp f p s = if d = 0 ∨ 237 ≤ d then s.flowDiscard f
      else if p.syncAddr = 0 then sacnComplete f (z.follows p) (sacnUnitOf p) s
      else s.setFlow f { s.flow f with
        sources := (s.flow f).sources.map fun y => if y.is p.cid p.univ then { z.follows p with held := some (sacnUnitOf p) } else y } := by
  obtain ⟨hroot, hframe, hdmp, haddr, hfirst, hincr, hstart, hpreview, hcount, hprops, hprio⟩ := hp
  have hrefused : flowRefused f s = none := if_neg (by rw [hi]; decide)
  unfold sacnDataOp
  rw [if_neg (by rw [hen, htype, hroot]; simp),
    if_neg (by rw [hroot, hframe, hdmp, haddr, hfirst, hincr, hstart, hpreview]; simpa using hcount), hrefused]
  dsimp only
  rw [if_neg (Nat.not_lt.mpr hprops), if_neg (Nat.not_lt.mpr hprio), hsrc, Nat.min_eq_left hprops, Nat.min_eq_left hprio]
  rfl

/-- A universe discovery packet does nothing (R149). -/
theorem sacnDataOp_discovery (hroot : p.rootVec = 8) (hframe : p.frameVec = 2) : sacnDataOp f p s = s :=
  if_pos (by rw [hroot, hframe]; simp)

/-- A synchronisation packet completes the packets of its source that wait for its address (R151). -/
theorem sacnSyncOp_completes {p : SacnSync} (hen : s.ingestEn = true) (htype : s.flowType f = 2) (hroot : p.rootVec = 8)
    (hframe : p.frameVec = 1) :
    sacnSyncOp f p s = (s.flow f).sources.foldl (fun t z =>
      match z.held with
      | some u => if z.cid == p.cid && u.syncAddr == p.syncAddr then sacnComplete f z u t else t
      | none => t) s := by
  unfold sacnSyncOp
  exact (if_neg (by rw [hen, htype, hroot, hframe]; decide)).trans (if_neg (by rw [hroot, hframe]; decide))

end

/-! ### Console datagrams -/

section
variable {s : State} {f : Nat} {ws : List Word} {bytes : Nat}

/-- LEVELS that its flow hears writes slot values of its universe, clipped to the slots that there are (R155). -/
theorem levelsOp_heard (h : s.hears f 1 ws bytes) :
    let body := consoleBody ws bytes
    let first := fget (wordAt ws 4) ⟨15, 0⟩
    let count := fget (wordAt ws 5) ⟨31, 16⟩
    let vals := ((body.drop 8).take count).take (513 - first)
    let base := (f * 65536 + fget (wordAt ws 4) ⟨31, 16⟩) * 512 + (first - 1)
    let u := if 513 < first + count ∨ body.length < 8 + count then (s.heard f ws).flowGuard f 29 0x36 6 else s.heard f ws
    let m := ((List.range vals.length).zip vals).foldl (fun m x => amSet (fun _ => 0) m (base + x.1) x.2.toNat) u.ingest.conVals
    levelsOp f ws bytes s = { u with ingest := { u.ingest with conVals := m } } := by
  unfold levelsOp
  rw [conAccept_hears h]

/-- FLAGS that its flow hears waits for the boundary where FLAGS_EN is 1, and is discarded otherwise (R155). -/
theorem flagsOp_heard (h : s.hears f 2 ws bytes) :
    let t := s.heard f ws
    flagsOp f ws bytes s = if t.actF (A.FLOW_CFG f) F.FLOW_CFG_FLAGS_EN = 1 then
      { t with ingest := { t.ingest with conFlags := t.ingest.conFlags ++ [(wordAt ws 4 ++ wordAt ws 5, wordAt ws 6 ++ wordAt ws 7)] } }
      else t.flowDiscard f := by
  unfold flagsOp
  rw [conAccept_hears h]

/-- TIMECODE that its flow hears at the rate in use becomes its timecode (R155). -/
theorem timecodeOp_heard (h : s.hears f 3 ws bytes) :
    let t := s.heard f ws
    fget (wordAt ws 5) ⟨31, 30⟩ = t.actF A.SCHED_TC_CTRL F.SCHED_TC_CTRL_RATE →
      timecodeOp f ws bytes s = t.setFlow f { t.flow f with tc := some (wordAt ws 4) } := by
  intro t hrate
  unfold timecodeOp
  rw [conAccept_hears h]
  exact if_neg (not_not_intro hrate)

/-- The device with the arrival of a flow's oldest USER datagram taken (R155). -/
def State.userTaken (s : State) (f : Nat) : State :=
  { s with ingest := { s.ingest with userAt := s.ingest.userAt.eraseP fun u => u.1 == f } }

/-- Taking an arrival leaves what a flow hears. -/
theorem State.userTaken_hears {typ : Nat} (h : s.hears f typ ws bytes) : (s.userTaken f).hears f typ ws bytes := h

/-- USER that its flow hears goes whole to the flow's queue, with the time of its arrival (R155). -/
theorem userOp_heard (h : s.hears f 4 ws bytes) :
    let u := (s.userTaken f).heard f ws
    userOp f ws bytes s = queuePacket (u.actF (A.FLOW_CFG f) F.FLOW_CFG_QUEUE) 0xFF 1 0 f ((wordBytes ws).take bytes)
      (((s.ingest.userAt.find? fun u => u.1 == f).map (·.2)).getD s.nowNs) u := by
  have haccept := conAccept_hears (State.userTaken_hears h)
  unfold State.userTaken at haccept
  unfold userOp
  dsimp only
  rw [haccept]
  rfl

end

/-- Settles O37: a data packet by its sequence number and sync address, and a console datagram by its type, once its flow hears it. -/
theorem networkUnitsAreTaken : Obligations.NetworkUnitsAreTaken := by
  unfold Obligations.NetworkUnitsAreTaken
  constructor <;> intro s hruns
  all_goals
    have hact {c : Instr} {g : State → State} {u : State} (hc : exec c s = gated g s) (hu : g s = u) :
        exec c s = .next (finish s u) := exec_of_gated hruns hc hu
  · refine ⟨?_, fun f p hen htype hroot hframe => hact rfl (sacnSyncOp_completes hen htype hroot hframe),
      fun f cid univ => hact (g := sacnExpireOp f cid univ) rfl rfl,
      fun f p _ _ hroot hframe => hact rfl (sacnDataOp_discovery hroot hframe)⟩
    intro f p z hen htype hroot hframe hdmp haddr hfirst hincr hstart hpreview hcount hprops hprio hi hsrc d u z'
    have hdata := sacnDataOp_source hen htype ⟨hroot, hframe, hdmp, haddr, hfirst, hincr, hstart, hpreview, hcount, hprops, hprio⟩ hi hsrc
    have hlater (hd : d ≠ 0) (hd' : d < 237) : ¬ (d = 0 ∨ 237 ≤ d) := by omega
    exact ⟨fun hold => hact rfl (hdata.trans (if_pos hold)),
      fun hd hd' hnow => hact rfl ((hdata.trans (if_neg (hlater hd hd'))).trans (if_pos hnow)),
      fun hd hd' hsync => hact rfl ((hdata.trans (if_neg (hlater hd hd'))).trans (if_neg hsync))⟩
  · refine ⟨fun f ws bytes => ⟨fun hhears => hact rfl (levelsOp_heard hhears), fun hhears => ?_,
      fun hhears hrate => hact rfl (timecodeOp_heard hhears hrate), fun hhears => hact rfl (userOp_heard hhears)⟩,
      fun hholding => hact (g := consoleFlagsOp) rfl (if_pos hholding),
      fun hidle => hact (g := consoleFlagsOp) rfl (if_neg (by rw [hidle]; decide))⟩
    have hflags := flagsOp_heard hhears
    exact ⟨fun hon => hact rfl (hflags.trans (if_pos hon)), fun hoff => hact rfl (hflags.trans (if_neg hoff))⟩

end Sys2Proof.Machine
end

section
/-!
PROOFS. Ports, flow matching and links (R137, R298, R301 to R310, R313, R317).
-/
namespace Sys2Proof.Machine

/-! ### Frames received -/

section
variable {s t : State} {p : Nat} {f : RxFrame}

/-- A frame of a good length reaches an enabled port, which counts it; no injection is armed into the port's FCS check (R302, R455). -/
structure State.Receives (s : State) (p : Nat) (f : RxFrame) (t : State) : Prop where
  port : p < 71
  enabled : s.portOn p = true
  frame : f.kind = .frame
  assembled : f.asmErr = false ∨ 64 ≤ p
  counted : t = (s.add64 (A.PORT_RX_FRAMES_LO p) 1).add64 (A.PORT_RX_BYTES_LO p) (f.data.length + 4)
  noRunt : 14 ≤ f.data.length
  fits : f.data.length + 4 ≤ t.actF (A.PORT_MAC_CTRL p) F.PORT_MAC_CTRL_MAX_FRAME
  uninjected : t.injArmed (P.PORT p) 1 = false

/-- The FCS, the alignment and the length field of a frame are right (R302). -/
structure RxFrameGood (f : RxFrame) : Prop where
  fcs : f.fcsErr = false
  align : f.alignErr = false
  length : lenError f.data = false

/-- What becomes of a frame that its port has counted (R302, R303). -/
theorem State.Receives.judged (h : s.Receives p f t) : portReceiveOp p f s =
    if f.fcsErr || f.alignErr || lenError f.data then badFrame p f.data false f.fcsErr f.alignErr (lenError f.data) t
    else if !t.passesFilter p f.data then t.add64 (A.PORT_RX_FILTERED_LO p) 1
    else
      let q := t.detect (P.PORT p) 3 (rxCapacity p < (t.port p).rxBytes + f.data.length)
      if q.1 then (q.2.add64 (A.PORT_RX_OVF_LO p) 1).raise (P.PORT p) 3 else deliver p f.data q.2 :=
  portReceiveOp_frame h.port h.enabled h.frame h.assembled h.counted h.noRunt h.fits h.uninjected

/-- A frame with an error is a bad frame (R302). -/
theorem portReceiveOp_bad (h : s.Receives p f t) (hbad : f.fcsErr = true ∨ f.alignErr = true ∨ lenError f.data = true) :
    portReceiveOp p f s = badFrame p f.data false f.fcsErr f.alignErr (lenError f.data) t := by
  rw [h.judged]
  exact if_pos (by simpa only [Bool.or_eq_true, or_assoc] using hbad)

/-- A good frame whose address the filter does not pass is counted and dropped (R303). -/
theorem portReceiveOp_filtered (h : s.Receives p f t) (hgood : RxFrameGood f) (hpass : t.passesFilter p f.data = false) :
    portReceiveOp p f s = t.add64 (A.PORT_RX_FILTERED_LO p) 1 := by
  rw [h.judged, if_neg (by rw [hgood.fcs, hgood.align, hgood.length]; decide)]
  exact if_pos (by rw [hpass]; rfl)

/-- A good frame that passes the filter is delivered where its port's buffer has room, and is lost otherwise (R302, R304). -/
theorem portReceiveOp_passes (h : s.Receives p f t) (hgood : RxFrameGood f) (hpass : t.passesFilter p f.data = true)
    (hi : t.injArmed (P.PORT p) 3 = false) :
    portReceiveOp p f s = if rxCapacity p < (t.port p).rxBytes + f.data.length then (t.add64 (A.PORT_RX_OVF_LO p) 1).raise (P.PORT p) 3
      else deliver p f.data t := by
  rw [h.judged, if_neg (by rw [hgood.fcs, hgood.align, hgood.length]; decide), if_neg (by rw [hpass]; decide), State.detect_unarmed hi]
  dsimp only
  simp only [decide_eq_true_eq]

end

/-! ### Flow matching -/

/-- Counting and raising leave the active set. -/
theorem State.actF_raise_inc (s : State) (a p b : Nat) (c : Nat) (x : Fld) : ((s.inc a).raise p b).actF c x = s.actF c x := by
  obtain ⟨m, y, hlive⟩ := live_eq_trans (State.inc_eq s a) (State.raise_eq _ p b)
  rw [hlive]
  rfl

section
variable {s t : State} {p f : Nat} {fs : List Nat} {d : Datagram}

/-- A datagram that is no PTP message reaches flow matching: its port has it and is enabled, and ingest is on (R137, R164, R304). -/
structure State.Matches (s : State) (p : Nat) (d : Datagram) (t : State) : Prop where
  port : (64 ≤ p ∧ p < 68) ∨ p = 70
  enabled : s.portOn p = true
  event : d.dstPort ≠ 319
  general : d.dstPort ≠ 320
  taken : t = takeRx p s
  ingest : t.ingestEn = true

/-- The first context that a datagram matches takes it: a datagram cut short is discarded, a QUEUE flow's goes to its queue, and a USER
datagram waits for its command (R137, R155, R304). -/
theorem flowMatchOp_hit (h : s.Matches p d t) (hv4 : d.ipv6 = false)
    (hhit : (t.flowsLive.filter fun f => t.flowMatches f p d) = f :: fs) :
    flowMatchOp p d s = if d.trunc then t.flowDiscard f
      else if t.flowType f = 5 then
        queuePacket (t.actF (A.FLOW_CFG f) F.FLOW_CFG_QUEUE) p 1 0 f d.payload (s.rxAt p) (t.flowUnit f)
      else if t.flowType f = 3 ∧ beAt d.payload 3 1 = 4 then
        { t with ingest := { t.ingest with userAt := t.ingest.userAt ++ [(f, s.rxAt p)] } }
      else t := by
  obtain ⟨hport, hon, h319, h320, ht, hen⟩ := h
  unfold flowMatchOp
  rw [if_neg (by rw [hon]; simp; omega), ← ht]
  dsimp only
  rw [if_neg (by rw [hen]; simp [h319, h320]), hv4, hhit]
  rfl

/-- A datagram that no context matches is counted, and queued where DQ_EN is 1 (R137). -/
theorem flowMatchOp_unmatched (h : s.Matches p d t) (hnone : d.ipv6 = true ∨ (t.flowsLive.filter fun f => t.flowMatches f p d) = []) :
    let u := (t.inc A.INGEST_UNMATCHED).raise P.INGEST 0
    flowMatchOp p d s = if t.actF A.INGEST_CTRL F.INGEST_CTRL_DQ_EN = 1 then
      queuePacket (t.actF A.INGEST_CTRL F.INGEST_CTRL_DEFAULT_Q) p 1 (d.trunc.toNat * 2 ^ 14 + 4) 0xFF d.payload (s.rxAt p) u else u := by
  obtain ⟨hport, hon, h319, h320, ht, hen⟩ := h
  have hhit : (if d.ipv6 then none else (t.flowsLive.filter fun f => t.flowMatches f p d).head?) = none := by
    rcases hnone with h6 | hempty
    · exact if_pos h6
    · rw [hempty, List.head?_nil, ite_self]
  intro u
  unfold flowMatchOp
  rw [if_neg (by rw [hon]; simp; omega), ← ht]
  dsimp only
  rw [if_neg (by rw [hen]; simp [h319, h320]), hhit]
  dsimp only
  rw [State.actF_raise_inc, State.actF_raise_inc]

end

/-! ### Frames sent, and links -/

section
variable {s t : State} {p rate adv g : Nat}

/-- The frame in progress leaves its port, and the next begins (R305). -/
theorem portSentNow_some {f : TxFrame} (hcur : (s.port p).cur = some f) : portSentNow p s = portKick p (frameLeft p f s) := by
  unfold portSentNow
  rw [hcur]

/-- A link that is down comes up at a rate that its port allows, while the port and its lane are in service (R298, R404, R427). -/
structure State.ComesUp (s : State) (p rate adv : Nat) (t : State) : Prop where
  port : p < 71
  down : s.linkUp p = false
  allowed : s.rateOk p rate = true
  service : s.portOut p = false
  noted : t = s.setPort p { s.port p with partner := adv }

/-- A link that is no fixture link comes up (R298). -/
theorem linkUpOp_port (h : s.ComesUp p rate adv t) (hp : 64 ≤ p) : linkUpOp p rate adv s = linkIsUp p rate t := by
  obtain ⟨hport, hdown, hrate, hout, ht⟩ := h
  rw [linkUpOp_spec hport hdown hrate hout, ht]
  exact if_pos hp

/-- A fixture link comes up outside a renegotiation (R301, R313). -/
theorem linkUpOp_fixture (h : s.ComesUp p rate adv t) (hp : p < 64) (hreneg : t.inReneg p = false) :
    linkUpOp p rate adv s =
      linkIsUp p rate (rateState p rate (t.put (A.PORT_RATE_STAT p) F.PORT_RATE_STAT_RATE_MAX (t.rateMax p rate))) := by
  obtain ⟨hport, hdown, hrate, hout, ht⟩ := h
  rw [linkUpOp_spec hport hdown hrate hout, ← ht]
  exact (if_neg (Nat.not_le.mpr hp)).trans (if_neg (by rw [hreneg]; decide))

/-- A renegotiation ends with its link up: at its target it is a step, and it has failed otherwise (R317). -/
theorem linkUpOp_reneg (h : s.ComesUp p rate adv t) (hp : p < 64) (hreneg : t.inReneg p = true) (hg : (t.port p).target = some g) :
    let u := if rate == t.get (A.PORT_RATE_STAT p) F.PORT_RATE_STAT_RATE_MAX then t.inc (A.PORT_STEP_UP p) else t.inc (A.PORT_STEP_DOWN p)
    linkUpOp p rate adv s = if rate = g then
      (linkIsUp p rate (rateState p rate (u.setPort p { u.port p with target := none }))).raise (P.PORT p) 8 else renegFail p t := by
  obtain ⟨hport, hdown, hrate, hout, ht⟩ := h
  rw [linkUpOp_spec hport hdown hrate hout, ← ht]
  dsimp only
  rw [if_neg (Nat.not_le.mpr hp), if_pos hreneg, hg]

/-- A link that is up goes down (R301). -/
theorem linkDownOp_up (hp : p < 71) (hup : s.linkUp p = true) : linkDownOp p s = linkIsDown p s :=
  if_neg (by rw [hup]; simp; omega)

/-- The verify handshake tries again while fewer than three tries were made, and then fails (R310). -/
theorem verifyTimeoutOp_verifying (hp : p < 64) (hverify : s.get (A.PORT_PREEMPT_STAT p) F.PORT_PREEMPT_STAT_VERIFY = 2) :
    verifyTimeoutOp p s = if (s.port p).tries < 3 then s.setPort p { s.port p with tries := (s.port p).tries + 1 }
      else preemptState p 4 s := if_pos ⟨hp, hverify⟩

end

/-- Settles O46: each event of a port by its own rule. -/
theorem portsCarryFrames : Obligations.PortsCarryFrames := by
  unfold Obligations.PortsCarryFrames
  refine ⟨?_, ?_, ?_⟩ <;> intro s p hruns
  all_goals
    have hact {c : Instr} {g : State → State} {u : State} (hc : exec c s = gated g s) (hu : g s = u) :
        exec c s = .next (finish s u) := exec_of_gated hruns hc hu
  · intro hon
    constructor
    · intro f hp hkind hasm t hrunt hfits hfcs hovf
      have hrec : s.Receives p f t := ⟨hp, hon, hkind, hasm, rfl, hrunt, hfits, hfcs⟩
      refine ⟨fun hbad => hact rfl (portReceiveOp_bad hrec hbad),
        fun hf ha hl hdrop => hact rfl (portReceiveOp_filtered hrec ⟨hf, ha, hl⟩ hdrop), fun hf ha hl hpass => ?_⟩
      have hplaced := portReceiveOp_passes hrec ⟨hf, ha, hl⟩ hpass hovf
      exact ⟨fun hroom => hact rfl (hplaced.trans (if_neg (Nat.not_lt.mpr hroom))), fun hfull => hact rfl (hplaced.trans (if_pos hfull))⟩
    · intro d hp hp' h319 h320 t hen
      have hmatch : s.Matches p d t := ⟨by omega, hon, h319, h320, rfl, hen⟩
      constructor
      · intro f fs hv4 hhit
        have htakes := flowMatchOp_hit hmatch hv4 hhit
        refine ⟨fun hcut => hact rfl (htakes.trans (if_pos hcut)), ?_⟩
        have hwhole (hfull : d.trunc = false) := htakes.trans (if_neg (by rw [hfull]; decide))
        refine ⟨fun hfull hqueue => hact rfl ((hwhole hfull).trans (if_pos hqueue)), fun hfull hcon huser => ?_,
          fun hfull hqueue hother => hact rfl ((hwhole hfull).trans ((if_neg hqueue).trans (if_neg (by omega))))⟩
        exact hact rfl ((hwhole hfull).trans ((if_neg (by omega)).trans (if_pos ⟨hcon, huser⟩)))
      · intro hnone u
        have hunmatched := flowMatchOp_unmatched hmatch hnone
        exact ⟨fun hoff => hact rfl (hunmatched.trans (if_neg (by rw [hoff]; decide))), fun hq => hact rfl (hunmatched.trans (if_pos hq))⟩
  · exact ⟨fun f hcur => hact (g := portSentOp p) rfl (congrArg carriageAll (portSentNow_some hcur)),
      fun hheld => hact (g := pauseHoldEndOp p) rfl (if_pos hheld), fun hxoff => hact (g := xoffRefreshOp p) rfl (if_pos hxoff)⟩
  · refine ⟨?_, fun hp hup => hact rfl (linkDownOp_up hp hup), fun hp hverify => ?_,
      fun hp hreneg g hg => hact (g := renegTimeoutOp p) rfl (if_pos ⟨hp, hreneg, by rw [hg]; rfl⟩)⟩
    · intro rate adv hp hdown hrate hout t
      have hup : s.ComesUp p rate adv t := ⟨hp, hdown, hrate, hout, rfl⟩
      refine ⟨fun hp => hact rfl (linkUpOp_port hup hp), fun hp hno => hact rfl (linkUpOp_fixture hup hp hno),
        fun hp hreneg g hg => ?_⟩
      have hends := linkUpOp_reneg hup hp hreneg hg
      exact ⟨fun hat => hact rfl (hends.trans (if_pos hat)), fun hoff => hact rfl (hends.trans (if_neg hoff))⟩
    · have hverifies := verifyTimeoutOp_verifying hp hverify
      exact ⟨fun hmore => hact rfl (hverifies.trans (if_pos hmore)), fun hlast => hact rfl (hverifies.trans (if_neg (Nat.not_lt.mpr hlast)))⟩

end Sys2Proof.Machine
end

section
/-!
PROOFS. The scan engines: how an engine frame starts, its points and its end (R223 to R240, R264 to R270).
-/
namespace Sys2Proof.Machine

/-! ### An engine frame starts -/

section
variable {s t : State} {e : Nat} {f : EngFrame}

/-- An engine frame that has started after a change of authority goes on, or waits for its HEAD (R226, R368, R378). -/
theorem exec_engineFrameStart_go (h : s.runs) (hstart : engineStart e (roleChange s) = some t)
    (hcur : ((headSend t).engine e).cur = some f) : exec (.engineFrameStart e) s =
      .next (finish s (if f.wait then headFollow (headSend t) else engineGo e (headSend t))) :=
  exec_of_gated h rfl (engineStartOp_go hstart hcur)

/-- An engine that is due no frame may be one that its settings stop (R226). -/
theorem engineFrameStartOp_none (hstart : engineStart e (roleChange s) = none) :
    engineFrameStartOp e s = engineStop e (roleChange s) := by
  unfold engineFrameStartOp
  dsimp only
  rw [hstart]

/-- The last frame of an engine ends where the settings taken at its latch point stop the engine (R224, R229). -/
theorem engineStop_stopped (hserved : s.offline (P.SCAN e) = false) (hown : s.curOwn e = true) :
    let rd := amGet resetOf ((engineLatch e s).engine e).set
    (engOn rd e && ownRate rd e) = false → engineStop e s = lossEnd e (engineLatch e s) := by
  intro rd hoff
  have hruns : ¬ (s.offline (P.SCAN e) || !s.curOwn e) = true := by
    rw [hserved, hown]
    decide
  have hstopped : ¬ (engOn rd e && ownRate rd e) = true := by
    rw [hoff]
    decide
  unfold engineStop
  exact (if_neg hruns).trans (if_neg hstopped)

end

/-! ### A base that waits -/

/-- DIRECT_BASE stands in the page of its engine, is no half of a pair, is not shadowed and can be written (R230, R247). -/
theorem findReg_directBase {e : Nat} (he : e < 8) : findReg (P.SCAN e * 0x1000 + 0x098) =
    some ⟨0x098, 0, 1, .single, [⟨27, 16, .rwi, 4095⟩, ⟨11, 0, .rwi, 4095⟩]⟩ :=
  (by decide : ∀ k, k < 8 → findReg (P.SCAN k * 0x1000 + 0x098) =
    some ⟨0x098, 0, 1, .single, [⟨27, 16, .rwi, 4095⟩, ⟨11, 0, .rwi, 4095⟩]⟩) e he

/-- A write of DIRECT_BASE acts in its engine (R230). -/
theorem actWrite_directBase {r : Req} {e : Nat} (he : e < 8) (v : Word) (s : State) :
    actWrite r (P.SCAN e * 0x1000 + 0x098) v s = some (directBaseWrite e v s) := by
  have hblk : blkOf (P.SCAN e) = some .scan := (by decide : ∀ k, k < 8 → blkOf (P.SCAN k) = some .scan) e he
  have hengine : P.SCAN e - 0xB0 = e := by unfold P.SCAN; omega
  unfold actWrite
  dsimp only
  rw [page_of (by decide), offset_of (by decide), hblk, hengine]
  rfl

/-- DIRECT_BASE by its requester (R230). -/
theorem exec_directBase {s u : State} {r : Req} {e : Nat} {v : Word} (he : e < 8) (h : s.reaches r (P.SCAN e))
    (hu : directBaseWrite e v (s.arrive r (P.SCAN e)) = u) : exec (.directBase r e v) s = .next (finish s (u.reply r .done)) :=
  gated_of ((regWrite_acts h 0x098 (by decide) (by decide) v (findReg_directBase he) rfl (by decide) rfl
    (actWrite_directBase he v _)).trans (congrArg (State.reply · r .done) hu))

/-- A base that its checks let pass is written as it is, and waits (R21, R230). -/
theorem directBaseWrite_passes {a : State} {e : Nat} {v : Word} (hi : a.injArmed (P.SCAN e) 31 = false) :
    let w := v &&& 0x0FFF0FFF
    judgeWord (checksOf a (A.SCAN_DIRECT_BASE e) w) false w = ⟨some w, []⟩ →
    directBaseWrite e v a = directBaseOp e w (a.wr (A.SCAN_DIRECT_BASE e) w) := by
  intro w hpass
  have hpage : A.SCAN_DIRECT_BASE e / 0x1000 = P.SCAN e := by unfold A.SCAN_DIRECT_BASE P.SCAN; omega
  unfold directBaseWrite
  rw [judge_passes (by rw [hpage]; exact hi) hpass]

/-- Settles O39: each of the three starts by the lemma on what `engineStart` then answers, the stop by `engineStop_stopped`, and a base by
`directBaseWrite_passes`. -/
theorem engineFramesStart : Obligations.EngineFramesStart := by
  unfold Obligations.EngineFramesStart
  constructor
  · intro s₀ e hruns he s hserved x go
    refine ⟨?_, ?_, ?_, ?_⟩
    · intro num t hset hdevice hbnds hon hrate hnew f hcur
      exact exec_engineFrameStart_go hruns (engineStart_device he hserved hset hdevice hbnds hon hrate hnew) hcur
    · intro a rd t hframe hset hon hrate hon' hrate' f hcur
      exact exec_engineFrameStart_go hruns (engineStart_live he hserved hframe hset hon hrate hon' hrate') hcur
    · intro b a rd t hidle hrate hon hon' hrate' f hcur
      exact exec_engineFrameStart_go hruns (engineStart_new he hserved hidle hrate hon rfl hon' hrate') hcur
    · intro hnone hown a rd hoff
      exact exec_of_gated hruns rfl ((engineFrameStartOp_none hnone).trans (engineStop_stopped hserved hown hoff))
  · intro s r e v he hobeys a w x hpass t u
    obtain ⟨hreach, hguard⟩ := hobeys
    exact exec_directBase he hreach (directBaseWrite_passes hguard hpass)

/-! ### The points of an engine frame -/

section
variable {s : State} {e j : Nat} {f : EngFrame}

/-- A walk whose source the solver is solving goes on once the solver has passed its cell (R228). -/
theorem walkResumeOp_solving {c : Nat} (hcur : (s.engine e).cur = some f) (hwaits : (s.walk e j).waiting = some c)
    (hsrc : f.src = some s.solving.frame) (hbusy : s.solver.busy = true) :
    walkResumeOp e j s = carriageCheck e (walkRun e j (solverPass (max c (s.walkLead e j c)) s)) := by
  have hsolving : (f.src == some s.solving.frame && s.solver.busy) = true := by rw [hsrc, hbusy, beq_self_eq_true]; rfl
  rw [walkResumeOp_some hcur hwaits, if_pos hsolving]

/-- A walk whose source is solved, or that has none, goes on as it is (R228). -/
theorem walkResumeOp_solved {c : Nat} (hcur : (s.engine e).cur = some f) (hwaits : (s.walk e j).waiting = some c)
    (hsolved : f.src ≠ some s.solving.frame ∨ s.solver.busy = false) :
    walkResumeOp e j s = carriageCheck e (walkRun e j s) := by
  have hnot : ¬ (f.src == some s.solving.frame && s.solver.busy) = true := by
    rw [Bool.and_eq_true, beq_iff_eq]
    rintro ⟨hsrc, hbusy⟩
    rcases hsolved with hother | hidle
    · exact hother hsrc
    · rw [hidle] at hbusy
      cases hbusy
  rw [walkResumeOp_some hcur hwaits, if_neg hnot]

/-- The open LEVEL frame of a link is sent, and its CURRENT frame before it (R264). -/
theorem closeLevel_open {o : OpenFrame} (hopen : (s.walk e j).levF = some o) :
    closeLevel e j s = sendFrame e j 1 o ((closeCur e j s).onWalk e j fun w => { w with levF := none }) := by
  unfold closeLevel
  rw [hopen]

/-- Outside a pair a walk that has waited closes its LEVEL frame (R266, R370). -/
theorem levelFlushOp_waits {c : Nat} (halone : s.twinOn = false) (hwaits : (s.walk e j).waiting = some c) :
    levelFlushOp e j s = closeLevel e j s :=
  if_neg (by rw [halone, hwaits]; exact Bool.false_ne_true)

/-- The underrun point, once in an engine frame, takes what each link's walk finds available (R226). -/
theorem underrunOp_open (hcur : (s.engine e).cur = some f) (hfirst : f.urDone = false) (hopen : f.latched = false) :
    underrunOp e s =
      carriageCheck e (f.links.foldl (fun t l => walkRun e l.j t) (s.onFrame e fun f => { f with urDone := true })) := by
  unfold underrunOp
  rw [hcur]
  exact if_neg (by rw [hfirst, hopen]; decide)

/-- The send end of a link whose walk has not ended (R238, R267). -/
theorem sendEndOp_open (hcur : (s.engine e).cur = some f) (hopen : f.latched = false) (hgoes : (s.walk e j).ended = false)
    (hlink : (f.links.any fun l => l.j == j) = true) (hbegun : f.wait = false) :
    let r := withdraw e f.num (8 * e + j) s
    let w := r.2.walk e j
    let late := ((r.2.linkFixtures (r.2.curRd e) e j).1.filter fun x => !w.begun.contains x).length
    let begun := r.1.flatMap (fun t => match t.eng with | some x => x.conts | none => []) ++
      (match w.levF with | some o => o.tx.conts | none => []) ++ (match w.fixture with | some x => [x.fix] | none => [])
    let cut := (begun.eraseDups.filter fun x => w.begun.contains x).length
    let t := r.2.onWalk e j fun w => { w with ended := true, waiting := none }
    let u := if late = 0 ∨ (f.mute || w.muted) then t
      else ((t.add (A.SCAN_LATE_FIX e j) ⟨31, 0⟩ late).add (A.SCAN_LATE_CNT e) ⟨31, 0⟩ late).raise (P.SCAN e) 3
    let v := if cut = 0 ∨ (f.mute || w.muted) then u else (u.add A.TUIPER_SPLIT_CUT ⟨31, 0⟩ cut).raise P.TUIPER 2
    sendEndOp e j s = carriageCheck e v := by
  unfold sendEndOp
  rw [hcur]
  exact if_neg (by rw [hopen, hgoes, hlink, hbegun]; decide)

/-- The latch point, once in an engine frame (R226, R240, R270). -/
theorem engineLatch_open (hcur : (s.engine e).cur = some f) (hopen : f.latched = false) :
    let a := underrunOp e (s.onFrame e fun f => { f with wait := false, mute := f.mute || f.wait })
    let b := (carriageEnd e (f.links.foldl (fun t l => sendEndOp e l.j t) a)).onFrame e fun f => { f with latched := true }
    let t := (List.range 8).foldl (latchLink e f (s.curRd e)) (takeBase e ((f.num + 1) % 2 ^ 32) b)
    engineLatch e s = if s.curOwn e then ownFix e t else t := by
  unfold engineLatch
  rw [hcur]
  exact if_neg (by rw [hopen]; decide)

end

/-- Settles O40: each point of an engine frame by the lemma on its operation. -/
theorem engineFramesEnd : Obligations.EngineFramesEnd := by
  unfold Obligations.EngineFramesEnd
  refine ⟨?_, ?_⟩ <;> intro s e f hruns hcur
  all_goals
    have hact {c : Instr} {g : State → State} {u : State} (hc : exec c s = gated g s) (hu : g s = u) :
        exec c s = .next (finish s u) := exec_of_gated hruns hc hu
  · refine ⟨fun j c hwaits => ?_, fun j c o halone hwaits hlev => ?_, fun hfirst hopen => hact rfl (underrunOp_open hcur hfirst hopen)⟩
    · exact ⟨fun hsrc hbusy => hact rfl (walkResumeOp_solving hcur hwaits hsrc hbusy),
        fun hsolved => hact rfl (walkResumeOp_solved hcur hwaits hsolved)⟩
    · exact hact rfl ((levelFlushOp_waits halone hwaits).trans (closeLevel_open hlev))
  · intro hopen
    exact ⟨fun j hgoes hlink hbegun => hact rfl (sendEndOp_open hcur hopen hgoes hlink hbegun), hact rfl (engineLatch_open hcur hopen)⟩

end Sys2Proof.Machine
end

section
/-!
PROOFS. The upstream side of Tuiper: SYNC, DELAY_REQ, requests, telemetry, supervision and the fault queue (R274 to R289, R345, R346).
-/
namespace Sys2Proof.Machine

/-! ### Messages taken -/

section
variable {s t : State} {l : Nat} {ws : List Word}

/-- A message of link `l` reaches Tuiper, which is on and has no injection armed into its checks; `t`: its frame is taken (R255, R296, R455). -/
structure State.TakesUp (s : State) (l : Nat) (t : State) : Prop where
  taken : t = takeRx l s
  enabled : t.tuiperOn = true
  checks : t.injArmed P.TUIPER 4 = false
  guard : t.injArmed P.TUIPER 31 = false

/-- Such a message is taken where it passes its checks (R255, R285). -/
theorem upTake_ok {ok : Bool} (h : s.TakesUp l t) (hok : ok = true) : upTake l ok s = (true, t) := by
  obtain ⟨rfl, hon, hchecks, hguard⟩ := h
  rw [hok]
  exact upTake_good hon hchecks hguard

/-! ### SYNC and DELAY_REQ -/

/-- SYNC frames leave within one tick of a multiple of the interval at which none has left (R345). -/
theorem tuiperSyncOp_due {u : State} :
    let n := u.time.t / u.syncStep * u.syncStep
    u.tuiperOn = true → u.time.t < n + u.time.incr → u.time.syncN ≠ some n → tuiperSyncOp u =
      (List.range 64).foldl (fun t l => if t.linkUp l && t.portOn l then syncLink l t else t)
        { u with time := { u.time with syncN := some n } } := by
  intro n hon htick hnew
  have hreached : n ≤ u.time.t := Nat.div_mul_le_self _ _
  refine if_neg ?_
  rintro (hoff | hbefore | hpast | hsent)
  · rw [hon] at hoff
    exact absurd hoff (by decide)
  · exact absurd hreached (Nat.not_le.mpr hbefore)
  · exact absurd htick (Nat.not_lt.mpr hpast)
  · exact hnew hsent

/-- A DELAY_REQ is answered within the limits, and dropped beyond them (R275, R345). -/
theorem delayReqOp_taken (h : s.TakesUp l t) (hok : msgOk ws 36 = true) (htype : tuiperType ws = 9) (hop : bodyF ws 0 31 28 = 2) :
    let y := dreqAllowed l t
    delayReqOp l ws s = if y.1 then delayAnswer l ws (s.rxAt l) y.2 else (y.2.inc A.TIME_DREQ_DROP).raise P.TIME 2 := by
  unfold delayReqOp
  rw [upTake_ok h hok]
  exact if_neg (not_or.mpr ⟨fun hne => hne htype, fun hne => hne hop⟩)

/-- The DELAY_RESP to a DELAY_REQ `ws` that arrived at `t4`, after a SYNC that left at `t1`, leaves with the measurement `mpd` (R275). -/
def delayResp (l : Nat) (ws : List Word) (t4 t1 mpd : Nat) (s : State) : State :=
  let body := [w32 (3 * 2 ^ 28 + bodyF ws 0 15 0)] ++ timeWords t4 ++ timeWords t1 ++ [w32 (bodyF ws 7 17 0), w32 mpd]
  handOver l (plainFrame true (.tuiper l (plainHeader s 9 l 9 ++ body))) s

/-- The answer to a DELAY_REQ of a SYNC still known: its measurement counts where at most 64 SYNCs have left since and it is not negative
(R345, R346). -/
theorem delayAnswer_known {t1 t4 age : Nat} (hknown : s.syncTime l (bodyF ws 0 15 0) = some (t1, age)) :
    let d := roundEven ((delaySum ws t1 t4 : Rat) / 2)
    delayAnswer l ws t4 s = if age ≤ 64 ∧ 0 ≤ d then
        delayResp l ws t4 t1 (d.toNat % 2 ^ 32) ((pathTake (bodyF ws 7 17 0) (d.toNat % 2 ^ 32) s).inc A.TIME_DREQ_RX)
      else delayResp l ws t4 t1 0 ((s.inc A.TUIPER_TIME_NEG).inc A.TIME_DREQ_RX) := by
  intro d
  unfold delayAnswer
  dsimp only
  rw [hknown]
  by_cases hused : age ≤ 64 ∧ 0 ≤ d
  · have hcounts : (decide (age ≤ 64) && decide (0 ≤ d)) = true := by simpa using hused
    dsimp only
    rw [if_pos hused, hcounts]
    rfl
  · have hnot : (decide (age ≤ 64) && decide (0 ≤ d)) = false := by simpa using hused
    dsimp only
    rw [if_neg hused, hnot]
    rfl

/-! ### Requests -/

/-- TX_CMD of an accepted request of type ENUM or SET by its requester (R282). -/
theorem exec_txCmd {r : Req} {v : Word} {ty : Nat} {c : Instr} (h : s.obeys r P.TUIPER)
    (hc : exec c s = gated (regWrite r P.TUIPER 0x0B0 (fput v F.TUIPER_TX_CMD_TYPE ty)) s) (hty : ty = 7 ∨ ty = 8) :
    let a := s.arrive r P.TUIPER
    let w := fput v F.TUIPER_TX_CMD_TYPE ty
    let body := (List.range (fget w F.TUIPER_TX_CMD_WORDS)).map fun i => a.rd (A.TUIPER_TX_DATA i)
    1 ≤ fget v F.TUIPER_TX_CMD_WORDS → fget v F.TUIPER_TX_CMD_WORDS ≤ 256 → a.get A.TUIPER_TX_STAT F.TUIPER_TX_STAT_BUSY = 0 →
    a.tuiperOn = true → exec c s = .next (finish s (State.reply { a.put A.TUIPER_TX_STAT F.TUIPER_TX_STAT_BUSY 1 with
      tuiper := { a.tuiper with req := some (ty, fget w F.TUIPER_TX_CMD_LINK, body) } } r .done)) := by
  intro a w body hmin hmax hidle hon
  obtain ⟨hreach, hguard⟩ := h
  refine hc.trans (gated_of ((regWrite_acts hreach 0x0B0 (by decide) (by decide) _ rfl rfl (by decide) rfl rfl).trans ?_))
  exact congrArg (State.reply · r .done) (txCmd_accepted hty hguard hmin hmax hidle hon)

/-- The request waiting begins on its link before what waits there, or is handed to a link that is down (R282, R301). -/
theorem txBegunOp_waiting {ty : Nat} {body : List Word} (hreq : s.tuiper.req = some (ty, l, body)) (hon : s.tuiperOn = true) :
    let f : TxFrame := ⟨false, .tuiper l (plainHeader s ty l body.length ++ body), none, false, none, true⟩
    let t : State := { s with tuiper := { s.tuiper with req := none } }
    txBegunOp s = if !t.linkUp l || !t.portOn l then handOver l f t
      else portKick l (t.setPort l { t.port l with pre := f :: (t.port l).pre }) := by
  unfold txBegunOp
  rw [hreq]
  exact if_neg (by rw [hon]; decide)

/-- A read of FAULT_Q takes its oldest fault (R289). -/
theorem faultQTake_cons {w : Word} {q : List Word} (h : s.tuiper.faultQ = w :: q) :
    faultQTake s = (w, { s with tuiper := { s.tuiper with faultQ := q } }) := by
  unfold faultQTake
  rw [h]

end

/-- Settles O41: SYNC by `tuiperSyncOp_due`, a DELAY_REQ by `delayReqOp_taken` and its answer by `delayAnswer_known`, a request by
`exec_txCmd` and `txBegunOp_waiting`, and a fault by `faultQTake_cons`. -/
theorem theLinkKeepsTimeAndAsks : Obligations.TheLinkKeepsTimeAndAsks := by
  unfold Obligations.TheLinkKeepsTimeAndAsks
  refine ⟨fun s hruns => ⟨?_, ?_, ?_⟩, fun s => ⟨?_, ?_, ?_⟩⟩
  · exact fun hon htick hnew => exec_of_gated (f := fun s => tuiperSyncOp (reach (s.syncNext * s.syncStep / 2 ^ 32) s)) hruns rfl
      (tuiperSyncOp_due hon htick hnew)
  · intro l ws t y hon hchecks hguard hok htype hop
    have htaken := delayReqOp_taken (s := s) ⟨rfl, hon, hchecks, hguard⟩ hok htype hop
    exact ⟨fun hbeyond => exec_of_gated hruns rfl (htaken.trans (if_neg (by rw [hbeyond]; decide))),
      fun hwithin => exec_of_gated hruns rfl (htaken.trans (if_pos hwithin))⟩
  · intro l ws t1 t4 age tseq fix d hknown
    have hanswer := delayAnswer_known (t4 := t4) hknown
    exact ⟨fun hnew hpos => hanswer.trans (if_pos ⟨hnew, hpos⟩), fun hnot => hanswer.trans (if_neg (by omega))⟩
  · intro r v hobeys a taken hmin hmax hidle hon
    exact ⟨exec_txCmd hobeys rfl (.inl rfl) hmin hmax hidle hon, exec_txCmd hobeys rfl (.inr rfl) hmin hmax hidle hon⟩
  · intro hruns ty l body hreq hon f t
    have hbegins := txBegunOp_waiting hreq hon
    exact ⟨fun hup hport => exec_of_gated hruns rfl (hbegins.trans (if_neg (by rw [hup, hport]; decide))),
      fun hdown => exec_of_gated hruns rfl (hbegins.trans (if_pos (by simpa using hdown)))⟩
  · intro r w q hreach a hview hq
    exact gated_of (regRead_take hreach 0x0B8 (by decide) (by decide) rfl (by decide) hview (congrArg some (faultQTake_cons hq)))

/-! ### Telemetry and supervision -/

section
variable {s t : State} {l : Nat} {ws : List Word}

/-- A report that passes its checks is accepted, or counted where it is older than its fixture's last (R285, R286). -/
theorem telemetryOp_taken (h : s.TakesUp l t) (hok : msgOk ws (telNeed ws) = true) (hup : fget (wordAt ws 0) ⟨16, 16⟩ = 1)
    (hlink : fget (wordAt ws 2) ⟨13, 8⟩ = l) (hemit : bodyF ws 0 19 16 ≤ 8) (hfinite : (telTemps ws).all finite16 = true)
    (htype : tuiperType ws = 6) :
    let fix := l % 64 * 4096 + bodyF ws 0 31 20
    let older := match t.supEntry fix with
      | some a => bits (t.mem32 a) 31 31 == 1 && t.mem32 (a + 8) / 65536 == fget (wordAt ws 2) ⟨31, 16⟩
          && !later (wordAt ws 1).toNat (t.mem32 (a + 4))
      | none => false
    telemetryOp l ws s = if older then t.inc A.TUIPER_TEL_OLD else telAccept l fix ws (s.rxAt l) t := by
  intro fix older
  unfold telemetryOp
  dsimp only
  rw [upTake_ok h (by simp [hok, hup, hlink, hemit, hfinite])]
  exact if_neg (by simp [htype])

/-- A fixture whose last report is too old, or a set's member that has sent none, loses its telemetry once (R288). -/
theorem telLostOp_lost {fix : Nat} (hfix : fix < 2 ^ 18) :
    let st := s.supState fix
    bits st 30 30 = 0 → (bits st 31 31 = 1 ∧ s.telOld fix = true ∨ bits st 31 31 = 0 ∧ s.setMember fix = true) →
    telLostOp fix s = faultOnset 3 0 fix (supPut fix (st + 2 ^ 30) s) := by
  intro st hfirst hlost
  refine if_neg (not_or.mpr ⟨Nat.not_le.mpr hfix, not_or.mpr ⟨by rw [hfirst]; decide, ?_⟩⟩)
  rcases hlost with ⟨hseen, hold⟩ | ⟨hunseen, hmember⟩
  · rw [if_pos hseen, hold]
    decide
  · rw [if_neg (by rw [hunseen]; decide), hmember]
    decide

/-- A REPLY, ACK or NACK is placed in HK_Q, and the event is raised where it found room (R282). -/
theorem hkFrameOp_taken (h : s.TakesUp l t) :
    let op := bodyF ws 0 31 28
    (tuiperType ws = 7 ∧ op = 4 ∧ msgOk ws 32 = true ∨ tuiperType ws = 8 ∧ (op = 3 ∨ op = 4) ∧ msgOk ws 16 = true) →
    let q := t.actF A.TUIPER_QSEL F.TUIPER_QSEL_HK_Q
    let u := queuePacket q 0xFF 2 0 0xFF ((wordBytes ws).take (msgLen ws)) (s.rxAt l) t
    hkFrameOp l ws s = u.raiseIf (decide ((u.queue q).words.length ≠ (t.queue q).words.length)) P.TUIPER 5 := by
  intro op hgood q u
  have hok : msgOk ws (if tuiperType ws = 7 then (if op = 4 then 32 else 20) else 16) = true := by
    rcases hgood with ⟨htype, hop, hlong⟩ | ⟨htype, -, hlong⟩
    · rwa [if_pos htype, if_pos hop]
    · rwa [if_neg (by rw [htype]; decide)]
  have hanswer : ((tuiperType ws == 7 && op == 4) || (tuiperType ws == 8 && (op == 3 || op == 4))) = true := by
    simpa only [Bool.or_eq_true, Bool.and_eq_true, beq_iff_eq] using
      hgood.imp (fun ⟨htype, hop, _⟩ => ⟨htype, hop⟩) fun ⟨htype, hop, _⟩ => ⟨htype, hop⟩
  unfold hkFrameOp
  dsimp only
  rw [upTake_ok h hok]
  exact if_pos hanswer

/-- A fault onset is queued, or counted as lost, and raises the event; the enabled set of its fixture detects it where it counts the cause
(R289, R292). -/
theorem faultOnset_cases (kind emit fix : Nat) (s : State) :
    let w := w32 (2 ^ 31 + kind * 2 ^ 24 + emit * 2 ^ 21 + fix)
    let t : State := if s.tuiper.faultQ.length < 64 then { s with tuiper := { s.tuiper with faultQ := s.tuiper.faultQ ++ [w] } }
      else (s.add A.TUIPER_FAULT_LOST F.TUIPER_FAULT_LOST_COUNT 1).raise P.TUIPER 1
    let u := t.raise P.TUIPER 0
    (u.setOfFix fix = none → faultOnset kind emit fix s = u) ∧
    (∀ d, u.setOfFix fix = some d → faultOnset kind emit fix s =
      if u.setsOn && bits (d.words.getD 0 0) (23 + kind) (23 + kind) == 1 then
        { u with tuiper := { u.tuiper with detected := u.tuiper.detected ++ [(d.id, kind, fix, u.frameNum)] } }
      else u) := by
  intro w t u
  constructor
  · intro hnone
    unfold faultOnset
    dsimp only
    rw [show (State.raise (ite _ _ _) P.TUIPER 0).setOfFix fix = none from hnone]
  · intro d hset
    unfold faultOnset
    dsimp only
    rw [show (State.raise (ite _ _ _) P.TUIPER 0).setOfFix fix = some d from hset]

end

/-- Settles O42: a report by `telemetryOp_taken`, a loss by `telLostOp_lost`, an answer by `hkFrameOp_taken`, and an onset by
`faultOnset_cases`. -/
theorem telemetryAndFaults : Obligations.TelemetryAndFaults := by
  unfold Obligations.TelemetryAndFaults
  refine ⟨fun s hruns => ⟨?_, ?_, ?_⟩, fun s kind emit fix => ?_⟩
  · intro l ws t fix hon hchecks hguard hok hup hlink hemit hfinite htype older u
    have htaken : telemetryOp l ws s = u := telemetryOp_taken ⟨rfl, hon, hchecks, hguard⟩ hok hup hlink hemit hfinite htype
    have harrives : telemetryArriveOp l ws s = if 4096 ≤ u.loop.queue.length then sliceStopOn .service P.CLOOP u else u := by
      unfold telemetryArriveOp
      rw [htaken]
    exact ⟨fun hroom => exec_of_gated hruns rfl (harrives.trans (if_neg (Nat.not_le.mpr hroom))),
      fun hfull => exec_of_gated hruns rfl (harrives.trans (if_pos hfull))⟩
  · intro fix hfix st hfirst hlost
    exact exec_of_gated hruns rfl (telLostOp_lost hfix hfirst hlost)
  · intro l ws t op hon hchecks hguard hgood
    exact exec_of_gated hruns rfl (hkFrameOp_taken ⟨rfl, hon, hchecks, hguard⟩ hgood)
  · intro w t u
    obtain ⟨hfree, hmember⟩ := faultOnset_cases kind emit fix s
    exact ⟨hfree, fun d hset hon hcause => (hmember d hset).trans (if_pos (by rw [show u.setsOn = true from hon, hcause]; rfl))⟩

end Sys2Proof.Machine
end

section
/-!
PROOFS. Fail-together sets: their steps, holds and commands (R292, R295, R297).
-/
namespace Sys2Proof.Machine

/-! ### Steps of a boundary -/

/-- The faults detected in set `i` before the frame in progress, which its step takes (R292). -/
def State.setDue (s : State) (i : Nat) : List (Nat × Nat × Nat × Nat) :=
  (s.tuiper.detected.filter fun y => y.1 == i).filter fun y => y.2.2.2 != s.frameNum

/-- The members of set `i` whose faults were detected in the frame in progress: the next step takes them (R292). -/
def State.setNow (s : State) (i : Nat) : List Nat :=
  ((s.tuiper.detected.filter fun y => y.1 == i).filter fun y => y.2.2.2 == s.frameNum).map fun y => y.2.2.1

/-- The state in which set `i` takes its step: the faults and re-arms due are taken off their lists, and the step is noted (R292). -/
def State.setStep (s : State) (i : Nat) : State :=
  State.putSet { s with tuiper := { s.tuiper with
    detected := s.tuiper.detected.filter fun y => !(s.setDue i).contains y,
    rearms := s.tuiper.rearms.filter fun r => r.1 != i || r.2 == s.frameNum } } i { s.setOf i with stepped := some s.frameNum }

/-- The cause for which set `d` enters fallback in its step, and the fixture whose fault it is: a fault detected, or an unhealthy member
(R292). -/
def State.setCause (s : State) (d : SetDef) (i : Nat) : Option (Nat × Option Nat) :=
  match s.setDue i with
  | y :: _ => some (y.2.1, if y.2.1 = 6 then none else some y.2.2.1)
  | [] => ((s.setStep i).unhealthy d (s.setNow i)).map fun u => (u.1, some u.2)

section
variable {s : State} {i : Nat} {d : SetDef}

theorem State.setCause_detected {y : Nat × Nat × Nat × Nat} {ys : List (Nat × Nat × Nat × Nat)} (hdue : s.setDue i = y :: ys) :
    s.setCause d i = some (y.2.1, if y.2.1 = 6 then none else some y.2.2.1) := by
  unfold State.setCause
  rw [hdue]

theorem State.setCause_undetected (hdue : s.setDue i = []) :
    s.setCause d i = ((s.setStep i).unhealthy d (s.setNow i)).map fun u => (u.1, some u.2) := by
  unfold State.setCause
  rw [hdue]

/-- Set `i` takes a step: it is one of the sets, sets are enabled, and it has taken none in this frame (R292). -/
structure State.SetSteps (s : State) (i : Nat) (d : SetDef) : Prop where
  found : (s.tuiper.sets.find? fun d => d.id == i) = some d
  enabled : s.setsOn = true
  first : (s.setOf i).stepped ≠ some s.frameNum

/-- What a step does to a set in each of its states (R292). -/
theorem setStepOp_steps (h : s.SetSteps i d) : setStepOp i s =
    let u := s.setStep i
    if (s.setOf i).state = 1 then
      if (u.unhealthy d []).isNone then setMove i 2 (u.putSet i { u.setOf i with hold := 1 }) else u
    else match s.setCause d i with
      | some cause => setEnter i cause.1 cause.2 u
      | none =>
        if (s.setOf i).state = 2 then u.putSet i { u.setOf i with hold := min ((s.setOf i).hold + 1) d.restoreHold }
        else if (s.setOf i).state = 3 ∧ (s.tuiper.rearms.any fun r => r.1 == i && r.2 != s.frameNum) = true then setMove i 0 u
        else u := by
  obtain ⟨hfound, hon, hfirst⟩ := h
  unfold setStepOp
  rw [hfound]
  exact if_neg (not_or.mpr ⟨by rw [hon]; decide, hfirst⟩)

/-- A set that is not in fallback enters it where its step finds a cause (R292). -/
theorem setStepOp_enters (h : s.SetSteps i d) (hout : (s.setOf i).state ≠ 1) {c : Nat} {fix : Option Nat}
    (hcause : s.setCause d i = some (c, fix)) : setStepOp i s = setEnter i c fix (s.setStep i) := by
  rw [setStepOp_steps h, hcause]
  exact if_neg hout

/-- Health begins the hold of a set in fallback (R292). -/
theorem setStepOp_holds (h : s.SetSteps i d) (hin : (s.setOf i).state = 1) (hhealthy : (s.setStep i).unhealthy d [] = none) :
    setStepOp i s = setMove i 2 ((s.setStep i).putSet i { (s.setStep i).setOf i with hold := 1 }) := by
  rw [setStepOp_steps h]
  exact (if_pos hin).trans (if_pos (by rw [hhealthy]; rfl))

/-- Without a cause a HOLDING set counts, and a READY one that was rearmed is NORMAL again (R292). -/
theorem setStepOp_healthy (h : s.SetSteps i d) (hout : (s.setOf i).state ≠ 1) (hdue : s.setDue i = [])
    (hhealthy : (s.setStep i).unhealthy d (s.setNow i) = none) : setStepOp i s =
    if (s.setOf i).state = 2 then
      (s.setStep i).putSet i { (s.setStep i).setOf i with hold := min ((s.setOf i).hold + 1) d.restoreHold }
    else if (s.setOf i).state = 3 ∧ (s.tuiper.rearms.any fun r => r.1 == i && r.2 != s.frameNum) = true then
      setMove i 0 (s.setStep i)
    else s.setStep i := by
  rw [setStepOp_steps h, State.setCause_undetected hdue, hhealthy]
  exact if_neg hout

/-- A full hold ends in READY where the set waits for REARM, and else in NORMAL (R292). -/
theorem setHoldOp_full (hfound : (s.tuiper.sets.find? fun d => d.id == i) = some d) (hholding : (s.setOf i).state = 2)
    (hfull : (s.setOf i).hold = d.restoreHold) : setHoldOp i s = setMove i (if bits (d.words.getD 0 0) 29 29 = 1 then 3 else 0) s := by
  unfold setHoldOp
  rw [hfound]
  exact if_pos ⟨hholding, hfull⟩

end

/-! ### Commands -/

section
variable {s : State} {r : Req} {i : Nat}

/-- The fields of a command `op` for set `i`. -/
theorem setsCmd_fields {op : Nat} (hop : op < 16) (hi : i < 4096) :
    fget (w32 (op * 2 ^ 28 + i % 4096)) F.SETS_CMD_OP = op ∧ fget (w32 (op * 2 ^ 28 + i % 4096)) F.SETS_CMD_SET = i := by
  unfold fget w32 F.SETS_CMD_OP F.SETS_CMD_SET
  simp only [BitVec.toNat_ofNat]
  omega

/-- A write of SETS.CMD with one of its three operations, with no injection armed into its guard (R297). -/
theorem setsCmd_known {a : State} {op : Nat} (hop : 1 ≤ op) (hop' : op ≤ 3) (hi : i < 4096) (hguard : a.injArmed P.SETS 31 = false) :
    setsCmd r (w32 (op * 2 ^ 28 + i % 4096)) a =
      if op = 1 then setForce r i a else if op = 2 then setRearm r i a else setQuery r i a := by
  obtain ⟨hfieldOp, hfieldSet⟩ := setsCmd_fields (op := op) (by omega) hi
  have hgood : (op == 0 || decide (3 < op)) = false := by
    rw [Bool.or_eq_false_iff]
    exact ⟨beq_false_of_ne (by omega), decide_eq_false (by omega)⟩
  unfold setsCmd
  dsimp only
  rw [hfieldOp, hfieldSet, hgood, State.detect_unarmed hguard, if_neg Bool.false_ne_true]
  obtain rfl | rfl | rfl : op = 1 ∨ op = 2 ∨ op = 3 := by omega
  · rw [if_pos rfl]
    rfl
  · rw [if_neg (by decide), if_pos rfl]
    rfl
  · rw [if_neg (by decide), if_neg (by decide)]
    rfl

/-- A command of SETS.CMD by its requester (R297). -/
theorem exec_setsCmd {c : Instr} {op : Nat} {u : State} (hobeys : s.obeys r P.SETS) (hi : i < 4096)
    (hc : exec c s = gated (regWrite r P.SETS 0x090 (w32 (op * 2 ^ 28 + i % 4096))) s) (hop : 1 ≤ op) (hop' : op ≤ 3)
    (hu : (if op = 1 then setForce r i (s.arrive r P.SETS) else if op = 2 then setRearm r i (s.arrive r P.SETS)
      else setQuery r i (s.arrive r P.SETS)) = u) : exec c s = .next (finish s (u.reply r .done)) := by
  obtain ⟨hreach, hguard⟩ := hobeys
  refine hc.trans (gated_of ((regWrite_acts hreach 0x090 (by decide) (by decide) _ rfl rfl (by decide) rfl rfl).trans ?_))
  exact congrArg (State.reply · r .done) ((setsCmd_known hop hop' hi hguard).trans hu)

/-- FORCE in an enabled set is a fault of cause FORCED (R292). -/
theorem setForce_on (hon : s.setOn i = true) : setForce r i s =
    setsResult r 1 i { s with tuiper := { s.tuiper with detected := s.tuiper.detected ++ [(i, 6, 0, s.frameNum)] } } :=
  if_neg (by rw [hon]; decide)

theorem setForce_off (hoff : s.setOn i = false) : setForce r i s = setsResult r 3 i s := if_pos (by rw [hoff]; decide)

/-- REARM of an enabled set lets a READY one return (R292). -/
theorem setRearm_on (hon : s.setOn i = true) : setRearm r i s =
    if (s.setOf i).state ≠ 3 then setsResult r 2 i s
    else setsResult r 1 i { s with tuiper := { s.tuiper with rearms :=
      (i, s.frameNum) :: (s.tuiper.rearms.filter fun r => r.1 != i || r.2 != s.frameNum) } } :=
  if_neg (by rw [hon]; decide)

theorem setRearm_off (hoff : s.setOn i = false) : setRearm r i s = setsResult r 3 i s := if_pos (by rw [hoff]; decide)

/-- A read of TRANS_Q takes its oldest change of state (R295). -/
theorem transQTake_cons {w : Word} {q : List Word} (h : s.tuiper.transQ = w :: q) :
    transQTake s = (w, { s with tuiper := { s.tuiper with transQ := q } }) := by
  unfold transQTake
  rw [h]

end

/-- Settles O43: a step by the lemmas on what `setStepOp_steps` then answers, a full hold by `setHoldOp_full`, and each command by
`exec_setsCmd`. -/
theorem failTogetherSets : Obligations.FailTogetherSets := by
  unfold Obligations.FailTogetherSets
  constructor
  · intro s i d hruns hfound n x mine due now t u
    have hact {g : State} (h : setStepOp i s = g) : exec (.setStateChange i) s = .next (finish s g) := exec_of_gated hruns rfl h
    refine ⟨fun hon hfirst => ?_, fun hholding hfull => exec_of_gated hruns rfl (setHoldOp_full hfound hholding hfull)⟩
    have hsteps : s.SetSteps i d := ⟨hfound, hon, hfirst⟩
    refine ⟨fun hout y ys hdue => hact (setStepOp_enters hsteps hout (State.setCause_detected hdue)), fun hout hdue c f hfault => ?_,
      fun hin hhealthy => hact (setStepOp_holds hsteps hin hhealthy), fun hholding hdue hhealthy => ?_,
      fun hready hdue hhealthy hrearmed => ?_⟩
    · have hcause : s.setCause d i = some (c, some f) := (State.setCause_undetected hdue).trans (congrArg (Option.map _) hfault)
      exact hact (setStepOp_enters hsteps hout hcause)
    · have hout : (s.setOf i).state ≠ 1 := by rw [show (s.setOf i).state = 2 from hholding]; decide
      exact hact ((setStepOp_healthy hsteps hout hdue hhealthy).trans (if_pos hholding))
    · have hstate : (s.setOf i).state = 3 := hready
      have hhealthy := setStepOp_healthy hsteps (by rw [hstate]; decide) hdue hhealthy
      exact hact ((hhealthy.trans (if_neg (by rw [hstate]; decide))).trans (if_pos ⟨hready, hrearmed⟩))
  · intro s r i hi hobeys a
    have hforce {u : State} (h : setForce r i a = u) : exec (.force r i) s = .next (finish s (u.reply r .done)) :=
      exec_setsCmd hobeys hi rfl (by decide) (by decide) h
    have hrearm {u : State} (h : setRearm r i a = u) : exec (.rearm r i) s = .next (finish s (u.reply r .done)) :=
      exec_setsCmd hobeys hi rfl (by decide) (by decide) h
    refine ⟨fun hon => ⟨hforce (setForce_on hon), fun hready => ?_, fun hother => hrearm ((setRearm_on hon).trans (if_pos hother))⟩,
      fun hoff => ⟨hforce (setForce_off hoff), hrearm (setRearm_off hoff)⟩,
      exec_setsCmd (op := 3) hobeys hi rfl (by decide) (by decide) rfl, fun w ws hview hq => ?_⟩
    · exact hrearm ((setRearm_on hon).trans (if_neg fun hne => hne hready))
    · exact gated_of (regRead_take hobeys.1 0x0A0 (by decide) (by decide) rfl (by decide) hview (congrArg some (transQTake_cons hq)))

end Sys2Proof.Machine
end

section
/-!
PROOFS. The fixture: its frames, what it applies, and its clock (R257, R268 to R271, R276).
-/
namespace Sys2Proof.Machine

/-- Equal fixtures give equal states. -/
theorem withFixture_congr {s : State} {y z : Fixture} (h : y = z) : ({ s with fixture := y } : State) = { s with fixture := z } := by
  rw [h]

/-! ### Frames -/

/-- The records of a downstream message, by its type (R258 to R263); none where one runs past the body. -/
def frameRecs (ws : List Word) : Option (List FixRec) :=
  if tuiperType ws = 1 ∨ tuiperType ws = 2 then
    readRecs (tuiperType ws == 2) (fget (wordAt ws 7) ⟨31, 16⟩) ((ws.take (msgLen ws / 4)).drop 8)
  else some []

/-- A message is a good downstream frame of the fixture's link (R255, R257). -/
def Fixture.GoodFrame (x : Fixture) (ws : List Word) : Prop :=
  msgOk ws (recNeed (tuiperType ws) (fget (wordAt ws 7) ⟨31, 16⟩)) = true ∧ 1 ≤ tuiperType ws ∧ tuiperType ws ≤ 5 ∧ x.assigned = true ∧
    msgLink ws = x.link ∧ (frameRecs ws).isSome = true

/-- How far a frame lies ahead of the latest that a fixture has taken, and how far behind it (R257). -/
def Fixture.ahead (x : Fixture) (ws : List Word) : Nat := ((wordAt ws 1).toNat + 2 ^ 32 - x.high) % 2 ^ 32
def Fixture.behind (x : Fixture) (ws : List Word) : Nat := (x.high + 2 ^ 32 - (wordAt ws 1).toNat) % 2 ^ 32

section
variable {s : State} {x : Fixture} {ws : List Word} {src : Nat}

/-- A frame that is not ahead of the latest lies behind it or is the latest itself (R257). -/
theorem Fixture.not_ahead_of_behind (h : x.behind ws ≤ 63) : ¬ (1 ≤ x.ahead ws ∧ x.ahead ws < 2 ^ 31) := by
  have hseq := (wordAt ws 1).isLt
  unfold Fixture.behind at h
  unfold Fixture.ahead
  omega

/-- The first frame of a session is taken (R257). -/
theorem Fixture.judge_newSession (h : x.session ≠ some (fget (wordAt ws 2) ⟨31, 16⟩)) :
    x.judge ws = (true, x.newSession (fget (wordAt ws 2) ⟨31, 16⟩) (wordAt ws 1).toNat) := if_pos h

/-- In its session a frame is judged by its sequence number (R257). -/
theorem Fixture.judge_session (h : x.session = some (fget (wordAt ws 2) ⟨31, 16⟩)) : x.judge ws =
    if 1 ≤ x.ahead ws ∧ x.ahead ws < 2 ^ 31 then
      (true, { x with high := (wordAt ws 1).toNat, seen := (wordAt ws 1).toNat :: x.seen.filter fun q =>
        ((wordAt ws 1).toNat + 2 ^ 32 - q) % 2 ^ 32 ≤ 63 })
    else if 1 ≤ x.behind ws ∧ x.behind ws ≤ 63 ∧ !x.seen.contains (wordAt ws 1).toNat then
      (true, { x with seen := (wordAt ws 1).toNat :: x.seen })
    else (false, x) := if_neg fun hne => hne h

/-- A frame at most 63 behind that the fixture has not seen is taken (R257). -/
theorem Fixture.judge_behind (h : x.session = some (fget (wordAt ws 2) ⟨31, 16⟩)) (hlow : 1 ≤ x.behind ws) (hnear : x.behind ws ≤ 63)
    (hnew : x.seen.contains (wordAt ws 1).toNat = false) : x.judge ws = (true, { x with seen := (wordAt ws 1).toNat :: x.seen }) := by
  rw [Fixture.judge_session h, if_neg (Fixture.not_ahead_of_behind hnear)]
  exact if_pos ⟨hlow, hnear, by rw [hnew]; rfl⟩

/-- A frame too far behind, the latest again, or one seen before is discarded (R257). -/
theorem Fixture.judge_discards (h : x.session = some (fget (wordAt ws 2) ⟨31, 16⟩))
    (hold : 63 < x.behind ws ∧ 2 ^ 31 ≤ x.ahead ws ∨ x.behind ws = 0 ∨
      x.seen.contains (wordAt ws 1).toNat = true ∧ x.behind ws ≤ 63) : x.judge ws = (false, x) := by
  have hahead : ¬ (1 ≤ x.ahead ws ∧ x.ahead ws < 2 ^ 31) := by
    rcases hold with ⟨-, hfar⟩ | hsame | ⟨-, hnear⟩
    · omega
    · exact Fixture.not_ahead_of_behind (by omega)
    · exact Fixture.not_ahead_of_behind hnear
  rw [Fixture.judge_session h, if_neg hahead]
  refine if_neg ?_
  rintro ⟨hlow, hnear, hnew⟩
  rcases hold with ⟨hfar, -⟩ | hsame | ⟨hseen, -⟩
  · omega
  · omega
  · rw [hseen] at hnew
    exact absurd hnew (by decide)

/-- What a fixture `y` that has judged a frame does with it, at the time `clock` (R257, R271, R284). -/
def Fixture.takes (y : Fixture) (clock : Nat) (ws : List Word) (src : Nat) : Fixture :=
  let z := y.heardFrom ws src
  (if tuiperType ws = 5 then z else { z with lastRx := clock : Fixture }).takeBody ws ((frameRecs ws).getD [])

/-- A message that is no good frame of the fixture's link is discarded (R255, R257). -/
theorem fixtureFrameOp_bad (h : ¬ s.fixture.GoodFrame ws) : fixtureFrameOp ws src s = s := by
  unfold fixtureFrameOp
  dsimp only
  split
  · rfl
  · rename_i hheader
    have hrecs : frameRecs ws = none := by
      refine Option.not_isSome_iff_eq_none.mp fun hrecs => h ?_
      simp only [not_or, Bool.not_eq_true', Bool.not_eq_false, Nat.not_lt, ne_eq, Decidable.not_not] at hheader
      obtain ⟨hok, hmin, hmax, hassigned, hlink⟩ := hheader
      exact ⟨hok, hmin, hmax, hassigned, hlink, hrecs⟩
    unfold frameRecs at hrecs
    rw [hrecs]

/-- A good frame is taken where the fixture's sequence accepts it (R257). -/
theorem fixtureFrameOp_good (h : s.fixture.GoodFrame ws) : fixtureFrameOp ws src s =
    if (s.fixture.judge ws).1 then { s with fixture := (s.fixture.judge ws).2.takes s.fixture.clock ws src } else s := by
  obtain ⟨hok, hmin, hmax, hassigned, hlink, hrecs⟩ := h
  obtain ⟨recs, hrecs⟩ := Option.isSome_iff_exists.mp hrecs
  unfold fixtureFrameOp Fixture.takes
  rw [hrecs]
  unfold frameRecs at hrecs
  dsimp only
  rw [hrecs, if_neg (by simp [hok, hassigned, hlink]; omega)]
  dsimp only
  by_cases haccepts : (s.fixture.judge ws).1 = true
  · rw [if_pos haccepts, if_neg (c := (!_) = true) (by rw [haccepts]; decide)]
    rfl
  · rw [if_neg haccepts, if_pos (by simpa using haccepts)]

/-- FIXTURE_FRAME_ACCEPT of a good frame that the fixture's sequence accepts (R257). -/
theorem exec_fixtureFrameAccept {y : Fixture} (h : s.fixture.GoodFrame ws) (hjudge : s.fixture.judge ws = (true, y)) :
    exec (.fixtureFrameAccept ⟨ws, src⟩) s = .next (finish s { s with fixture := y.takes s.fixture.clock ws src }) :=
  exec_of_always rfl (by rw [fixtureFrameOp_good h, hjudge]; rfl)

/-- A frame that the fixture's sequence discards changes nothing (R257). -/
theorem fixtureFrameOp_discards (hjudge : s.fixture.judge ws = (false, s.fixture)) : fixtureFrameOp ws src s = s := by
  by_cases hgood : s.fixture.GoodFrame ws
  · rw [fixtureFrameOp_good hgood, hjudge]
    rfl
  · exact fixtureFrameOp_bad hgood

end

/-! ### Presentation times -/

section
variable {s : State} {pt : Nat}

theorem Fixture.pendAt_pt (x : Fixture) (pt : Nat) : (x.pendAt pt).pt = pt := by
  unfold Fixture.pendAt
  cases hfind : x.pend.find? fun p => p.pt == pt with
  | none => rfl
  | some p => exact beq_iff_eq.mp (List.find?_some (p := fun p : FixPend => p.pt == pt) hfind)

/-- The fixture once its clock has come to `pt` and what was held up to then is let go (R269). -/
def Fixture.passed (x : Fixture) (pt : Nat) : Fixture :=
  { x with clock := max x.clock pt, pend := x.pend.filter fun q => decide (pt < q.pt) }

/-- A presentation time is not later than the last one applied (R269). -/
def Fixture.isLate (x : Fixture) (pt : Nat) : Bool := match x.lastPt with | some l => decide (pt ≤ l) | none => false

theorem Fixture.isLate_of_le {x : Fixture} {l : Nat} (hlast : x.lastPt = some l) (hlate : pt ≤ l) : x.isLate pt = true := by
  unfold Fixture.isLate
  rw [hlast]
  exact decide_eq_true hlate

theorem Fixture.isLate_of_lt {x : Fixture} (hlater : ∀ l, x.lastPt = some l → l < pt) : x.isLate pt = false := by
  unfold Fixture.isLate
  cases hlast : x.lastPt with
  | none => rfl
  | some l => exact decide_eq_false (Nat.not_le.mpr (hlater l hlast))

/-- What the fixture becomes at a presentation time: what is ready for it is applied (R268 to R270). -/
def Fixture.presented (x : Fixture) (pt : Nat) : Fixture :=
  if x.ready (x.pendAt pt) then (x.passed pt).applied (x.pendAt pt) else x.passed pt

/-- At or before the last presentation time applied, nothing is applied (R269). -/
theorem fixtureApplyOp_late {l : Nat} (hlast : s.fixture.lastPt = some l) (hlate : pt ≤ l) :
    fixtureApplyOp pt s = { s with fixture := s.fixture.passed pt } := by
  have hnot : (!s.fixture.isLate pt && s.fixture.ready (s.fixture.pendAt pt)) = false := by
    rw [Fixture.isLate_of_le hlast hlate]
    rfl
  exact withFixture_congr (if_neg (ne_true_of_eq_false hnot))

/-- A presentation time later than the last applied is presented (R269). -/
theorem fixtureApplyOp_later (hlater : ∀ l, s.fixture.lastPt = some l → l < pt) :
    fixtureApplyOp pt s = { s with fixture := s.fixture.presented pt } := by
  have hready : (!s.fixture.isLate pt && s.fixture.ready (s.fixture.pendAt pt)) = s.fixture.ready (s.fixture.pendAt pt) := by
    rw [Fixture.isLate_of_lt hlater]
    rfl
  exact withFixture_congr (congrArg (fun c : Bool =>
    if c then (s.fixture.passed pt).applied (s.fixture.pendAt pt) else s.fixture.passed pt) hready)

theorem Fixture.ready_strike {x : Fixture} {p : FixPend} {k : List Nat × List (Nat × Cell) × Option Nat} (h : p.strike = some k) :
    x.ready p = covers k.2.1 k.2.2 := by
  unfold Fixture.ready
  rw [h]

theorem Fixture.ready_level {x : Fixture} {p : FixPend} (h : p.strike = none) : x.ready p = (!p.hold && x.complete p) := by
  unfold Fixture.ready
  rw [h]

/-- A complete STRIKE shows its values and its current codes (R270). -/
theorem Fixture.applied_strike {x : Fixture} {p : FixPend} {k : List Nat × List (Nat × Cell) × Option Nat} (h : p.strike = some k) :
    x.applied p = { x with cells := putCells x.cells k.2.1 (k.2.2.getD 0), codes := k.1, lastPt := some p.pt, frame := p.frame } := by
  unfold Fixture.applied
  rw [h]

/-- A complete LEVEL shows its values, and current codes that came with it (R268, R269). -/
theorem Fixture.applied_level {x : Fixture} {p : FixPend} (h : p.strike = none) :
    let z := { x with cells := putCells x.cells p.cells (p.last.getD 0), lastPt := some p.pt, frame := p.frame }
    (p.cur = none → x.applied p = z) ∧ (∀ c, p.cur = some c → x.applied p = { z with codes := c.2, gen := some c.1 }) := by
  unfold Fixture.applied
  rw [h]
  exact ⟨fun hcur => by rw [hcur], fun c hcur => by rw [hcur]⟩

end

/-! ### The fixture's clock -/

section
variable {s : State} {ws : List Word} {src : Nat}

/-- A SYNC makes its sender a master heard, and is followed where that is the preferred one (R276). -/
theorem fixtureSyncOp_good (hok : msgOk ws 36 = true) (htype : tuiperType ws = 9) (hop : bodyF ws 0 31 28 = 1) :
    let x := s.fixture
    let others := (x.heard.filter fun h => h.1 != src).map fun h => (h.1, h.2.1, h.2.2 + 1)
    let y := { x with heard := (src, bodyF ws 0 23 16, 0) :: others.filter fun h => decide (h.2.2 ≤ 3) }
    let t1 := (bodyAt ws 1 * 2 ^ 32 + bodyAt ws 2) * 10 ^ 9 + bodyAt ws 3
    fixtureSyncOp ws src s = if bestMaster y.heard = some src then
        { s with fixture := { y with sync := some (bodyF ws 0 15 0, t1, x.clock) }.discipline }
      else { s with fixture := y } :=
  if_neg (by rw [hok, htype, hop]; decide)

/-- A DELAY_REQ after the SYNC `q`, which came at `t2` (R276). -/
def Fixture.delayReq (x : Fixture) (q t2 : Nat) : List Word :=
  x.header 9 x.link 0 68 ++ [w32 (2 * 2 ^ 28 + q)] ++ timeWords t2 ++ timeWords x.clock ++ [w32 x.fixId, 0]

/-- After a SYNC a DELAY_REQ goes to the master that is followed, while the second leaves one (R276). -/
theorem fixtureDelayReqOp_followed {q t1 t2 m : Nat} (hsync : s.fixture.sync = some (q, t1, t2))
    (hmaster : bestMaster s.fixture.heard = some m) :
    let x := s.fixture
    fixtureDelayReqOp s = if !x.assigned ∨ x.dreqLeft = 0 then s
      else fixSend m (x.delayReq q t2) (onFix (fun x => { x with dreqs := (secOf x.clock, 17 - x.dreqLeft) }) s) := by
  unfold fixtureDelayReqOp
  dsimp only
  rw [hsync, hmaster]
  rfl

/-- An assigned fixture sends at most 16 DELAY_REQs in a second of its clock (R276). -/
theorem fixtureDelayReqOp_synced {q t1 t2 m : Nat} (hassigned : s.fixture.assigned = true) (hsync : s.fixture.sync = some (q, t1, t2))
    (hmaster : bestMaster s.fixture.heard = some m) :
    let x := s.fixture
    let n := if x.dreqs.1 = secOf x.clock then x.dreqs.2 else 0
    fixtureDelayReqOp s = if n < 16 then
        { s with fixture := { x with dreqs := (secOf x.clock, n + 1), out := x.out ++ [(m, x.delayReq q t2)] } }
      else s := by
  intro x n
  have hleft : s.fixture.dreqLeft = 16 - n := by
    unfold Fixture.dreqLeft
    simp only [n, x]
    split <;> rfl
  rw [fixtureDelayReqOp_followed hsync hmaster]
  by_cases hmore : n < 16
  · have hcount : 17 - s.fixture.dreqLeft = n + 1 := by omega
    rw [if_pos hmore, if_neg (by rw [hassigned, hleft]; simp; omega)]
    unfold fixSend onFix
    dsimp only
    rw [hcount]
  · rw [if_neg hmore, if_pos (Or.inr (by omega))]

/-- With a SYNC followed and its delay known, the clock is corrected by t2 − t1 − MPD (R276). -/
theorem Fixture.discipline_synced {x : Fixture} {q t1 t2 m : Nat} (hsync : x.sync = some (q, t1, t2)) (hmpd : x.mpd = some m) :
    let off : Int := (t2 : Int) - t1 - m
    x.discipline = { x with clock := ((x.clock : Int) - off).toNat, sync := some (q, t1, ((t2 : Int) - off).toNat) } := by
  unfold Fixture.discipline
  rw [hsync, hmpd]

/-- A DELAY_RESP to the fixture for the SYNC it follows tells it the delay (R276). -/
theorem fixtureDelayRespOp_synced {q t1 t2 : Nat} (hassigned : s.fixture.assigned = true) (hsync : s.fixture.sync = some (q, t1, t2))
    (hok : msgOk ws 36 = true) (htype : tuiperType ws = 9) (hop : bodyF ws 0 31 28 = 3) (hfix : bodyF ws 7 17 0 = s.fixture.fixId)
    (hseq : q = bodyF ws 0 15 0) :
    fixtureDelayRespOp ws s = { s with fixture := { s.fixture with mpd := some (bodyAt ws 8) }.discipline } := by
  unfold fixtureDelayRespOp
  dsimp only
  rw [if_neg (by simp [hok, htype, hop, hassigned, hfix])]
  split
  · rename_i hfollowed
    rw [hsync] at hfollowed
    cases hfollowed
    exact if_pos hseq
  · rename_i hnone
    rw [hsync] at hnone
    cases hnone

/-- Without frames for LOSS_DARK_MS every duty becomes 0 (R271). -/
theorem fixtureLossDarkOp_on (hon : s.fixture.lossDark ≠ 0) :
    let x := s.fixture
    fixtureLossDarkOp s = { s with fixture := { x with
      clock := max x.clock (x.lastRx + x.lossDark * 1000000)
      cells := x.cells.zipIdx.map fun c => if x.fmts.getD c.2 0 = 0 ∨ x.fmts.getD c.2 0 = 3 then 0 else c.1 } } := by
  unfold fixtureLossDarkOp dutyFmt
  simp only [hon, if_false, Bool.or_eq_true, beq_iff_eq]

end

/-- Settles O44: a frame by `Fixture.judge_session` and `exec_fixtureFrameAccept`, a presentation time by `fixtureApplyOp_later`, and the
rest by the lemma on each operation. -/
theorem fixturesFollowTheirFrames : Obligations.FixturesFollowTheirFrames := by
  unfold Obligations.FixturesFollowTheirFrames
  intro s x
  refine ⟨?_, ?_, fun hon => exec_of_always rfl (fixtureLossDarkOp_on hon), fun hoff => exec_of_always (f := fixtureLossDarkOp) rfl (if_pos hoff),
    ?_, ?_, ?_⟩
  · intro ws src ty count recs good sess seq ahead behind takes
    refine ⟨fun hgood hnew => exec_fixtureFrameAccept hgood (Fixture.judge_newSession hnew), fun hgood hsame hmin hmax => ?_,
      fun hgood hsame hlow hnear hnew => exec_fixtureFrameAccept hgood (Fixture.judge_behind hsame hlow hnear hnew),
      fun hsame hold => exec_of_always rfl (fixtureFrameOp_discards (Fixture.judge_discards hsame hold)),
      fun hbad => exec_of_always rfl (fixtureFrameOp_bad hbad)⟩
    exact exec_fixtureFrameAccept hgood ((Fixture.judge_session hsame).trans (if_pos ⟨hmin, hmax⟩))
  · intro pt p y
    have hact {u : State} (h : fixtureApplyOp pt s = u) : exec (.fixtureApply pt) s = .next (finish s u) := exec_of_always rfl h
    refine ⟨fun l hlast hlate => hact (fixtureApplyOp_late hlast hlate), fun hlater => ?_⟩
    have hpt : p.pt = pt := x.pendAt_pt pt
    have happly := fixtureApplyOp_later hlater
    have hpresents {z : Fixture} (hz : x.presented pt = z) : exec (.fixtureApply pt) s = .next (finish s { s with fixture := z }) :=
      hact (happly.trans (withFixture_congr hz))
    have hshows (h : x.ready p = true) {z : Fixture} (hz : y.applied p = z) :
        exec (.fixtureApply pt) s = .next (finish s { s with fixture := z }) := hpresents ((if_pos h).trans hz)
    have hkeeps (h : x.ready p = false) : exec (.fixtureApply pt) s = .next (finish s { s with fixture := y }) :=
      hpresents (if_neg (ne_true_of_eq_false h))
    refine ⟨fun k hstrike hfull => ?_, fun k hstrike hshort => hkeeps ((Fixture.ready_strike hstrike).trans hshort),
      fun hnone => ⟨fun hnot => hkeeps ((Fixture.ready_level hnone).trans ?_), ?_⟩⟩
    · refine hshows ((Fixture.ready_strike hstrike).trans hfull) ?_
      rw [← hpt]
      exact Fixture.applied_strike hstrike
    · rcases hnot with hhold | hpart
      · rw [hhold]
        rfl
      · rw [hpart, Bool.and_false]
    · intro hhold hcomplete z
      have hready : x.ready p = true := (Fixture.ready_level hnone).trans (by rw [hhold, hcomplete]; rfl)
      obtain ⟨hplain, hcodes⟩ := Fixture.applied_level (x := y) hnone
      rw [hpt] at hplain hcodes
      exact ⟨fun hcur => hshows hready (hplain hcur), fun c hcur => hshows hready (hcodes c hcur)⟩
  · intro ws src hok htype hop others y t1
    have hsync := fixtureSyncOp_good (s := s) (src := src) hok htype hop
    exact ⟨fun hbest => exec_of_always rfl (hsync.trans (if_pos hbest)), fun hother => exec_of_always rfl (hsync.trans (if_neg hother))⟩
  · intro hassigned q t1 t2 m hsync hmaster n
    have hasks := fixtureDelayReqOp_synced hassigned hsync hmaster
    exact ⟨fun hmore => exec_of_always rfl (hasks.trans (if_pos hmore)),
      fun hlimit => exec_of_always rfl (hasks.trans (if_neg (Nat.not_lt.mpr hlimit)))⟩
  · intro hassigned q t1 t2 ws hsync hok htype hop hfix hseq off
    exact exec_of_always rfl ((fixtureDelayRespOp_synced hassigned hsync hok htype hop hfix hseq).trans
      (withFixture_congr (Fixture.discipline_synced (x := { x with mpd := some (bodyAt ws 8) }) hsync rfl)))

end Sys2Proof.Machine
end

section
/-!
PROOFS. The fixture: discovery, parameters, telemetry and power-up (R257, R277 to R281, R283, R284).
-/
namespace Sys2Proof.Machine

/-! ### Requests -/

section
variable {s : State} {y z : Fixture} {ws : List Word} {src : Nat}

/-- A DISCOVER is answered by a fixture that is not muted and in its range (R279). -/
theorem discoverOp_taken (h : fixRequest 7 1 20 ws src s = (true, { s with fixture := y })) : discoverOp ws src s =
    if !y.muted && decide (bodyUid ws 1 ≤ y.uid.toNat) && decide (y.uid.toNat ≤ bodyUid ws 3) then
      { s with fixture := { y with replies := y.replies ++ [(msgLink ws, src)] } }
    else { s with fixture := y } := by
  unfold discoverOp
  rw [h]
  rfl

theorem muteOp_taken (h : fixRequest 7 2 20 ws src s = (true, { s with fixture := y })) : muteOp ws src s =
    if bodyUid ws 1 = y.uid.toNat then { s with fixture := { y with muted := true } } else { s with fixture := y } := by
  unfold muteOp
  rw [h]
  simp only [Bool.true_and, beq_iff_eq]
  rfl

theorem unmuteOp_taken (h : fixRequest 7 3 20 ws src s = (true, { s with fixture := y })) : unmuteOp ws src s =
    if bodyUid ws 1 = y.uid.toNat ∨ bodyUid ws 1 = 2 ^ 64 - 1 then { s with fixture := { y with muted := false } }
    else { s with fixture := y } := by
  unfold unmuteOp
  rw [h]
  simp only [Bool.true_and, Bool.or_eq_true, beq_iff_eq]
  rfl

/-- A SET WRITE to another fixture writes nothing (R280). -/
theorem setWriteOp_other (h : fixRequest 8 1 16 ws src s = (true, { s with fixture := y })) (hone : bodyUid ws 1 ≠ 2 ^ 64 - 1)
    (hother : bodyUid ws 1 ≠ y.uid.toNat) : setWriteOp ws src s = { s with fixture := y } := by
  unfold setWriteOp
  rw [h]
  exact if_pos (by simp only [beq_false_of_ne hone, beq_false_of_ne hother]; rfl)

/-- A SET WRITE to every fixture is not answered (R280). -/
theorem setWriteOp_all (h : fixRequest 8 1 16 ws src s = (true, { s with fixture := y })) (hall : bodyUid ws 1 = 2 ^ 64 - 1) :
    setWriteOp ws src s = match y.setParam (bodyF ws 0 15 0) (bodyAt ws 3) (msgLink ws) with
      | .inr _ => { s with fixture := y }
      | .inl z => { s with fixture := z } := by
  have hevery : (bodyUid ws 1 == 2 ^ 64 - 1) = true := beq_iff_eq.mpr hall
  unfold setWriteOp
  rw [h]
  dsimp only
  rw [hevery, if_neg (by simp)]
  rfl

section
variable (h : fixRequest 8 1 16 ws src s = (true, { s with fixture := y })) (hone : bodyUid ws 1 ≠ 2 ^ 64 - 1)
  (hme : bodyUid ws 1 = y.uid.toNat)
include h hone hme

/-- A SET WRITE to the fixture alone is answered by an ACK or a NACK (R280). -/
theorem setWriteOp_me : setWriteOp ws src s = match y.setParam (bodyF ws 0 15 0) (bodyAt ws 3) (msgLink ws) with
    | .inr reason => setAnswer ws src 4 reason { s with fixture := y }
    | .inl z =>
      if bodyF ws 0 15 0 = 6 then
        let u := setAnswer ws src 3 (bodyAt ws 3) { s with fixture := y }
        { u with fixture := { z with out := u.fixture.out } }
      else setAnswer ws src 3 ((z.getParam (bodyF ws 0 15 0) 0).getD 0) { s with fixture := z } := by
  have hevery : (bodyUid ws 1 == 2 ^ 64 - 1) = false := beq_false_of_ne hone
  have hmine : (bodyUid ws 1 == y.uid.toNat) = true := beq_iff_eq.mpr hme
  unfold setWriteOp
  rw [h]
  dsimp only
  rw [hevery, hmine, if_neg (by simp)]
  rfl

/-- What is written is acknowledged with the value in force, and a RESTART before it acts (R280, R281). -/
theorem setWriteOp_written (hwritten : y.setParam (bodyF ws 0 15 0) (bodyAt ws 3) (msgLink ws) = .inl z) :
    let u := setAnswer ws src 3 (bodyAt ws 3) { s with fixture := y }
    setWriteOp ws src s = if bodyF ws 0 15 0 = 6 then { u with fixture := { z with out := u.fixture.out } }
      else setAnswer ws src 3 ((z.getParam (bodyF ws 0 15 0) 0).getD 0) { s with fixture := z } := by
  rw [setWriteOp_me h hone hme, hwritten]

theorem setWriteOp_refused {reason : Nat} (hrefused : y.setParam (bodyF ws 0 15 0) (bodyAt ws 3) (msgLink ws) = .inr reason) :
    setWriteOp ws src s = setAnswer ws src 4 reason { s with fixture := y } := by
  rw [setWriteOp_me h hone hme, hrefused]

end

/-- A SET READ to the fixture alone is answered with the value in force, or a NACK where there is none (R280). -/
theorem setReadOp_taken (h : fixRequest 8 2 16 ws src s = (true, { s with fixture := y })) :
    let t : State := { s with fixture := y }
    let q := t.fresh (2 ^ 32)
    setReadOp ws src s = if bodyUid ws 1 = y.uid.toNat then
        match y.getParam (bodyF ws 0 15 0) q.1 with
        | some v => setAnswer ws src 3 v q.2
        | none => setAnswer ws src 4 1 q.2
      else t := by
  unfold setReadOp
  rw [h]
  simp only [Bool.true_and, beq_iff_eq]
  rfl

end

/-- The body of a REPLY (R278). -/
def Fixture.replyBody (x : Fixture) : List Word :=
  [w32 (4 * 2 ^ 28), w32 (x.uid.toNat / 2 ^ 32), w32 x.uid.toNat, w32 (x.model * 65536), x.fw,
    w32 (x.nEmit * 2 ^ 28 + x.sensor.toNat * 2 ^ 27 + x.sensXyz.toNat * 2 ^ 26 + x.preempt.toNat * 2 ^ 25 +
      x.assigned.toNat * 2 ^ 24 + (if x.assigned then x.fixId else 0)),
    w32 (x.curStep * 65536 + x.ncells), w32 (x.pendMax * 2 ^ 24 + x.rxMax)]

/-- A REPLY due is sent to the source of its request (R278, R279). -/
theorem fixtureReplyOp_due {s : State} {l src : Nat}
    (hdue : s.fixture.replies[(s.fresh s.fixture.replies.length).1]? = some (l, src)) :
    let x := s.fixture
    let p := s.fresh x.replies.length
    let q := p.2.fresh (2 ^ 32)
    fixtureReplyOp s = { q.2 with fixture :=
      { x with replies := x.replies.eraseIdx p.1, out := x.out ++ [(src, x.header 7 l q.1 64 ++ x.replyBody)] } } := by
  unfold fixtureReplyOp
  dsimp only
  rw [hdue]
  rfl

/-! ### Telemetry -/

theorem freshWords_fixture (n : Nat) (s : State) : (freshWords n s).2.fixture = s.fixture := by
  induction n generalizing s with
  | zero => rfl
  | succ n ih => exact ih _

/-- Sending a message to each of some addresses queues it once for each. -/
theorem foldl_fixSend_fixture (m : List Word) (dsts : List Nat) (s : State) :
    (dsts.foldl (fun t d => fixSend d m t) s).fixture = { s.fixture with out := s.fixture.out ++ dsts.map fun d => (d, m) } := by
  induction dsts generalizing s with
  | nil => rw [List.map_nil, List.append_nil]; rfl
  | cons d dsts ih =>
    exact (ih _).trans (congrArg (fun l => { s.fixture with out := l }) (List.append_cons _ _ _).symm)

/-- A report goes to the home source, and to the partner's where that was heard within the last second (R284). -/
theorem Fixture.mem_reportTo (x : Fixture) (d : Nat) :
    d ∈ x.reportTo ↔ x.home = some d ∨ ∃ t, x.partner = some (d, t) ∧ x.clock ≤ t + 10 ^ 9 := by
  unfold Fixture.reportTo
  rw [List.mem_append, Option.mem_toList]
  refine or_congr_right ?_
  cases x.partner with
  | none => simp
  | some p =>
    obtain ⟨e, t⟩ := p
    have hmem : d ∈ (if x.clock ≤ t + 10 ^ 9 then [e] else []) ↔ x.clock ≤ t + 10 ^ 9 ∧ d = e := by simp
    refine hmem.trans ⟨fun ⟨hrecent, hd⟩ => ⟨t, by rw [hd], hrecent⟩, ?_⟩
    rintro ⟨_, heq, hrecent⟩
    cases heq
    exact ⟨hrecent, rfl⟩

/-- The fixture when it reports: its clock has come to a millisecond after its last report (R284). -/
def Fixture.reporting (x : Fixture) : Fixture :=
  { x with clock := max x.clock ((x.telAt.map fun t => t + 1000000).getD 0) }

/-- The words of a report with the free words `r` (R283). -/
def Fixture.report (z : Fixture) (r : List Nat) : List Word :=
  let h := z.header 6 z.link z.telSeq (32 + 4 * (z.reportBody r).length)
  (((h.set 3 (w32 (secOf z.clock / 2 ^ 32))).set 4 (w32 (secOf z.clock))).set 5 (w32 (nsOf z.clock))).set 6 z.frame ++ z.reportBody r

/-- Without an address for it no report is sent (R284). -/
theorem fixtureTelemetryOp_unaddressed {s : State} (h : s.fixture.reportTo = []) : fixtureTelemetryOp s = s := if_pos (Or.inr h)

/-- A report that is sent (R283, R284). -/
theorem fixtureTelemetryOp_fixture {s : State} (hassigned : s.fixture.assigned = true) (hdst : s.fixture.reportTo ≠ []) :
    ∃ r : List Nat,
      let z := s.fixture.reporting
      (fixtureTelemetryOp s).fixture = { z with out := z.out ++ z.reportTo.map fun d => (d, z.report r), telSeq := (z.telSeq + 1) % 2 ^ 32,
                                                overflow := false, telAt := some z.clock } := by
  let t := onFix Fixture.reporting s
  let r := freshWords (5 + s.fixture.nEmit) t
  let u := s.fixture.reporting.reportTo.foldl (fun t d => fixSend d (s.fixture.reporting.report r.1) t) r.2
  have hop : fixtureTelemetryOp s = onFix (fun x => { x with telSeq := (x.telSeq + 1) % 2 ^ 32, overflow := false, telAt := some x.clock }) u :=
    if_neg (by rw [hassigned]; simpa using hdst)
  have hsent : u.fixture = _ := (foldl_fixSend_fixture _ _ _).trans (by rw [freshWords_fixture])
  refine ⟨r.1, ?_⟩
  rw [hop]
  unfold onFix
  dsimp only
  rw [hsent]
  rfl

/-- A fixture has no address to report to exactly where no home source is known and the partner's was heard too long ago (R284). -/
theorem Fixture.reportTo_eq_nil (x : Fixture) :
    x.reportTo = [] ↔ x.home = none ∧ ∀ d t, x.partner = some (d, t) → t + 10 ^ 9 < x.clock := by
  rw [List.eq_nil_iff_forall_not_mem]
  simp only [Fixture.mem_reportTo, not_or, not_exists, not_and, Nat.not_le, forall_and, Option.eq_none_iff_forall_ne_some, ne_eq]

/-- Settles O45: each request by the lemma on a request that is taken, a reply by `fixtureReplyOp_due`, a report by
`fixtureTelemetryOp_fixture`. -/
theorem fixturesAnswerRequests : Obligations.FixturesAnswerRequests := by
  unfold Obligations.FixturesAnswerRequests
  intro s x
  refine ⟨?_, fun l src hdue => exec_of_always rfl (fixtureReplyOp_due hdue), ?_, exec_of_always (f := fixtureUpOp) rfl rfl⟩
  · intro ws src y hy t dst me
    refine ⟨fun hok htype => ⟨fun hop => ?_, fun hop => ?_, fun hop => ?_⟩, ?_⟩
    · have htaken := discoverOp_taken (fixRequest_good (src := src) hok htype hop hy)
      refine ⟨fun hfree hmin hmax => exec_of_always rfl (htaken.trans (if_pos ?_)), fun hnot => exec_of_always rfl (htaken.trans (if_neg ?_))⟩
      · rw [hfree, decide_eq_true hmin, decide_eq_true hmax]
        rfl
      · rw [Bool.and_eq_true, Bool.and_eq_true, decide_eq_true_iff, decide_eq_true_iff]
        rintro ⟨⟨hfree, hmin⟩, hmax⟩
        rcases hnot with hmuted | hbelow | habove
        · rw [hmuted] at hfree
          exact absurd hfree (by decide)
        · exact absurd hmin (Nat.not_le.mpr hbelow)
        · exact absurd hmax (Nat.not_le.mpr habove)
    · have htaken := muteOp_taken (fixRequest_good (src := src) hok htype hop hy)
      exact ⟨fun hme => exec_of_always rfl (htaken.trans (if_pos hme)), fun hother => exec_of_always rfl (htaken.trans (if_neg hother))⟩
    · have htaken := unmuteOp_taken (fixRequest_good (src := src) hok htype hop hy)
      exact ⟨fun hme => exec_of_always rfl (htaken.trans (if_pos hme)),
        fun hother hone => exec_of_always rfl (htaken.trans (if_neg (not_or.mpr ⟨hother, hone⟩)))⟩
    · intro hok htype param v
      refine ⟨fun hop => ?_, fun hop => ?_⟩
      · have hreq := fixRequest_good (src := src) hok htype hop hy
        have hevery (hall : dst = 2 ^ 64 - 1) := setWriteOp_all hreq hall
        refine ⟨fun hone hother => exec_of_always rfl (setWriteOp_other hreq hone hother), fun z hwritten => ?_, fun reason hrefused => ?_⟩
        · refine ⟨fun hall => exec_of_always rfl ((hevery hall).trans (by rw [show y.setParam _ _ _ = .inl z from hwritten])),
            fun hone hme hparam => ?_, fun hone hme hrestart => ?_⟩
          all_goals
            have hanswer := setWriteOp_written hreq hone hme hwritten
          · exact exec_of_always rfl (hanswer.trans (if_neg hparam))
          · exact exec_of_always rfl (hanswer.trans (if_pos hrestart))
        · exact ⟨fun hall => exec_of_always rfl ((hevery hall).trans (by rw [show y.setParam _ _ _ = .inr reason from hrefused])),
            fun hone hme => exec_of_always rfl (setWriteOp_refused hreq hone hme hrefused)⟩
      · have htaken := setReadOp_taken (fixRequest_good (src := src) hok htype hop hy)
        have hreads (hme : dst = me) := htaken.trans (if_pos hme)
        exact ⟨fun hother => exec_of_always rfl (htaken.trans (if_neg hother)),
          fun hme k hvalue => exec_of_always rfl ((hreads hme).trans (by rw [show y.getParam _ _ = some k from hvalue])),
          fun hme hnone => exec_of_always rfl ((hreads hme).trans (by rw [show y.getParam _ _ = none from hnone]))⟩
  · intro hassigned sens now z dst
    refine ⟨fun hnowhere => exec_of_always rfl (fixtureTelemetryOp_unaddressed (x.reportTo_eq_nil.mpr hnowhere)), fun hsomewhere => ?_⟩
    obtain ⟨d, hd⟩ := hsomewhere
    have haddressed : x.reportTo ≠ [] := List.ne_nil_of_mem ((x.mem_reportTo d).mpr hd)
    obtain ⟨r, hreport⟩ := fixtureTelemetryOp_fixture hassigned haddressed
    exact ⟨fun i => r.getD i 0, z.reportTo, fixtureTelemetryOp s, rfl, fun d => z.mem_reportTo d, hreport⟩

end Sys2Proof.Machine
end

section
/-!
PROOFS. The cullet queues (R321 to R323).
-/
namespace Sys2Proof.Machine

/-! ### The registers of a queue that act -/

section
variable {s u : State} {r : Req} {q : Nat}

/-- Each of the 16 queues has a page (R331). -/
theorem blkOf_queue (hq : q < 16) : blkOf (P.Q q) = some .q := (by decide : ∀ k, k < 16 → blkOf (P.Q k) = some .q) q hq

/-- A page of the queues names its queue. -/
theorem queue_of_page (q : Nat) : P.Q q - 0x150 = q := Nat.add_sub_cancel_left 0x150 q

/-- A read of DATA_LO takes a word of its queue (R321). -/
theorem takeReg_dataLo (hq : q < 16) (s : State) :
    takeReg r (P.Q q * 0x1000 + 0x098) s = some ((queuePop r q s).1, xoffSync (queuePop r q s).2) := by
  have hother {a : Nat} (ha : a % 0x1000 ≠ 0x098) : P.Q q * 0x1000 + 0x098 ≠ a := by omega
  unfold takeReg
  rw [if_neg (hother (by decide)), if_neg (hother (by decide)), if_neg (hother (by decide)), if_neg (hother (by decide)),
    if_neg (hother (by decide)), page_of (by decide), offset_of (by decide), blkOf_queue hq, queue_of_page]
  rfl

/-- DATA_LO read by a requester outside the SNAP view (R34, R321). -/
theorem exec_dataLoPop {v : Word} (hq : q < 16) (h : s.reaches r (P.Q q)) (hview : (s.arrive r (P.Q q)).viewOf r (P.Q q) ≠ 2)
    (hpop : queuePop r q (s.arrive r (P.Q q)) = (v, u)) :
    exec (.dataLoPop r q) s = .next (finish s ((xoffSync u).reply r (.data v))) := by
  have hreg : findReg (P.Q q * 0x1000 + 0x098) = some ⟨0x098, 0, 1, .single, [⟨31, 0, .rc, 0⟩]⟩ :=
    findReg_queue q hq 0x098 (by decide) (by decide)
  have htake : takeReg r (P.Q q * 0x1000 + 0x098) (s.arrive r (P.Q q)) = some (v, xoffSync u) := by
    rw [takeReg_dataLo hq, hpop]
  exact gated_of (regRead_take h 0x098 (by decide) (by decide) hreg (by decide) hview htake)

/-- A write of CMD is a command of its queue (R323). -/
theorem actWrite_queueCmd (hq : q < 16) (v : Word) (s : State) :
    actWrite r (P.Q q * 0x1000 + 0x0A4) v s = some (xoffSync (queueCmd r q v s)) := by
  unfold actWrite
  dsimp only
  rw [page_of (by decide), offset_of (by decide), blkOf_queue hq, queue_of_page]
  rfl

/-- A command of Q.CMD by its requester (R323). -/
theorem exec_queueCmd {c : Instr} {v : Word} (hq : q < 16) (h : s.reaches r (P.Q q))
    (hc : exec c s = gated (regWrite r (P.Q q) 0x0A4 v) s) (hu : queueCmd r q v (s.arrive r (P.Q q)) = u) :
    exec c s = .next (finish s ((xoffSync u).reply r .done)) := by
  have hreg : findReg (P.Q q * 0x1000 + 0x0A4) = some ⟨0x0A4, 0, 1, .single, [⟨3, 0, .wo, 0⟩]⟩ :=
    findReg_queue q hq 0x0A4 (by decide) (by decide)
  refine hc.trans (gated_of ((regWrite_acts h 0x0A4 (by decide) (by decide) v hreg rfl (by decide) rfl (actWrite_queueCmd hq v _)).trans ?_))
  rw [hu]

end

/-! ### Words taken and commands -/

section
variable {a : State} {r : Req} {q : Nat}

/-- A requester that does not own the queue reads 0, and its read is a guard action (R321). -/
theorem queuePop_other (hother : a.ownsQueue r q = false) : queuePop r q a = (0, a.guard1 (P.Q q) 31 0xC0 (some 0)) :=
  if_pos (by rw [hother]; rfl)

/-- The owner takes the oldest word, with its tag and its upper half in the holds of its view (R321, R322). -/
theorem queuePop_cons {w : QWord} {ws : List QWord} (hown : a.ownsQueue r q = true) (hwords : (a.queue q).words = w :: ws) :
    let pp := w.bad || (!w.sop && (a.queue q).poisoned)
    let tag := w32 (2 ^ 31 + w.sop.toNat * 2 ^ 30 + w.eop.toNat * 2 ^ 29 + w.bad.toNat * 2 ^ 28 + pp.toNat * 2 ^ 27)
    let t := (a.setBank (A.Q_TAG q) 0 r tag).setBank (A.Q_DATA_HI q) 0 r (w.w.extractLsb' 32 32)
    let u := if w.bad then (t.inc (A.Q_POISON_CNT q)).raise (P.Q q) 4 else t
    queuePop r q a = (w.w.extractLsb' 0 32,
      u.setQueue q { a.queue q with words := ws, popped := !w.eop, poisoned := pp && !w.eop }) := by
  intro pp tag t u
  unfold queuePop
  rw [if_neg (by rw [hown]; decide)]
  dsimp only
  rw [hwords]

/-- Every command of a requester that does not own the queue is rejected (R321, R323). -/
theorem queueCmd_other {v : Word} (hguard : a.injArmed (P.Q q) 31 = false) (hother : a.ownsQueue r q = false) :
    queueCmd r q v a = queueResult q 3 0 (a.guard1 (P.Q q) 31 0xC0 (some 0)) := by
  unfold queueCmd
  rw [hguard]
  exact if_pos (by simp [hother])

/-- The owner's commands: OP 1 drops a packet, and OP 2 flushes the queue (R323). -/
theorem queueCmd_owner {v : Word} (hguard : a.injArmed (P.Q q) 31 = false) (hown : a.ownsQueue r q = true)
    (hop : fget v ⟨3, 0⟩ = 1 ∨ fget v ⟨3, 0⟩ = 2) :
    queueCmd r q v a = if fget v ⟨3, 0⟩ = 1 then queueDrop q a else queueFlush q a := by
  unfold queueCmd
  rw [hguard]
  exact if_neg (by rcases hop with h | h <;> simp [hown, h])

/-- DROP_PKT discards the rest of the packet whose first word was taken (R323). -/
theorem queueDrop_begun (hbegun : (a.queue q).popped = true) :
    let x := a.queue q
    let ws := (x.words.dropWhile fun w => !w.eop).drop 1
    queueDrop q a = queueResult q 1 (x.words.length - ws.length)
      (a.setQueue q { x with words := ws, popped := false, poisoned := false }) := by
  unfold queueDrop
  dsimp only
  rw [if_neg (by rw [hbegun]; decide)]

/-- DROP_PKT finds nothing to discard where no packet has been begun (R323). -/
theorem queueDrop_none (hnone : (a.queue q).popped = false) : queueDrop q a = queueResult q 2 0 a := if_pos (by rw [hnone]; rfl)

end

/-- Settles O47: a read by `exec_dataLoPop` and the lemmas on `queuePop`, and a command by `exec_queueCmd` and the lemmas on
`queueCmd`. -/
theorem queuesAnswerTheirOwner : Obligations.QueuesAnswerTheirOwner := by
  unfold Obligations.QueuesAnswerTheirOwner
  intro s r q hq hobeys a x
  obtain ⟨hreach, hguard⟩ := hobeys
  have hdrop {u : State} (h : queueCmd r q 1 a = u) := exec_queueCmd (c := .dropPkt r q) hq hreach rfl h
  have hflush {u : State} (h : queueCmd r q 2 a = u) := exec_queueCmd (c := .flush r q) hq hreach rfl h
  constructor
  · intro hown
    have hdrops : queueCmd r q 1 a = queueDrop q a := (queueCmd_owner hguard hown (.inl rfl)).trans (if_pos rfl)
    have hflushes : queueCmd r q 2 a = queueFlush q a := (queueCmd_owner hguard hown (.inr rfl)).trans (if_neg (by decide))
    exact ⟨fun w ws hview hwords => exec_dataLoPop hq hreach hview (queuePop_cons hown hwords),
      fun hbegun => hdrop (hdrops.trans (queueDrop_begun hbegun)), fun hnone => hdrop (hdrops.trans (queueDrop_none hnone)),
      hflush hflushes⟩
  · intro hother t
    exact ⟨fun hview => exec_dataLoPop hq hreach hview (queuePop_other hother), hdrop (queueCmd_other hguard hother),
      hflush (queueCmd_other hguard hother)⟩

end Sys2Proof.Machine
end

section
/-!
PROOFS. DMX packets and RDM transactions (R325 to R328).
-/
namespace Sys2Proof.Machine

/-! ### Packets -/

section
variable {s : State} {n : Nat} {p : DmxPacket}

/-- An OUTPUT port whose line is free starts a packet with the slots of the frame that is being presented (R325, R326). -/
theorem dmxStartOp_presents {y : Nat × Nat × List Nat} (hon : s.dmxOn n 0 = true) (hidle : (s.dmxPort n).sending = false)
    (hfree : s.rdmOn n = false) (hshown : (s.dmxPort n).latest s.nowNs = some y) :
    let k := s.dmxCfg n F.DMX_CFG_SLOTS
    let t := s.setDmx n { s.dmxPort n with sending := true, slots := (List.range k).map fun i => y.2.2.getD i 0 }
    dmxStartOp n s = ((t.inc (A.DMX_PKTS n)).put (A.DMX_STAT n) F.DMX_STAT_LAST_SLOTS k).wr (A.DMX_LAST_FRAME n) (w32 y.1) := by
  intro k t
  unfold dmxStartOp
  dsimp only
  rw [if_neg (by rw [hon, hidle, hfree]; decide), hshown]

/-- A packet ends (R325). -/
theorem dmxEndOp_alone (hsending : (s.dmxPort n).sending = true) (hnone : s.net.rdm = none) :
    dmxEndOp n s = s.setDmx n { s.dmxPort n with sending := false } := by
  unfold dmxEndOp
  rw [if_neg (by rw [hsending]; decide)]
  dsimp only
  rw [show (s.setDmx n _).net.rdm = none from hnone]

/-- A request that waits for its port's line is sent after the packet (R328). -/
theorem dmxEndOp_request {x : RdmSt} (hsending : (s.dmxPort n).sending = true) (hx : s.net.rdm = some x) (hport : x.port = n)
    (hwaits : x.phase = 0) :
    let t := s.setDmx n { s.dmxPort n with sending := false }
    dmxEndOp n s = { t with net := { t.net with rdm := some { x with phase := 1 } } } := by
  intro t
  unfold dmxEndOp
  rw [if_neg (by rw [hsending]; decide)]
  dsimp only
  rw [show (s.setDmx n _).net.rdm = some x from hx]
  exact if_pos (by simp [hport, hwaits])

/-- A packet with an error is counted, and raises the event (R327). -/
theorem dmxInputOp_bad (hon : s.dmxOn n 1 = true) (hi : s.injArmed P.DMX 18 = false)
    (hbad : p.framingError = true ∨ p.shortBreak = true) : dmxInputOp n p s = (s.inc (A.DMX_ERR n)).raise P.DMX 18 :=
  (dmxInputOp_spec hon hi).trans (if_pos (Bool.or_eq_true_iff.mpr hbad))

/-- A packet of another start code is counted and not used (R327). -/
theorem dmxInputOp_otherStart (hon : s.dmxOn n 1 = true) (hi : s.injArmed P.DMX 18 = false) (hframed : p.framingError = false)
    (hbreak : p.shortBreak = false) (hcode : p.startCode ≠ 0) : dmxInputOp n p s = s.inc (A.DMX_ALT_SC n) :=
  (dmxInputOp_spec hon hi).trans ((if_neg (by rw [hframed, hbreak]; decide)).trans (if_pos hcode))

/-- A good packet is a unit of its port, which ends a timeout (R23, R327). -/
theorem dmxInputOp_unit (hon : s.dmxOn n 1 = true) (hi : s.injArmed P.DMX 18 = false) (hframed : p.framingError = false)
    (hbreak : p.shortBreak = false) (hcode : p.startCode = 0) :
    let slots := (p.slots.take 512).map (·.toNat)
    let t := dmxRecord n
      (((s.inc (A.DMX_PKTS n)).put (A.DMX_STAT n) F.DMX_STAT_VALID 1).put (A.DMX_STAT n) F.DMX_STAT_LAST_SLOTS slots.length)
    let u := t.setDmx n { t.dmxPort n with slots := slots, lastUnit := t.nowNs, newUnit := true, polK := none }
    dmxInputOp n p s = if (t.dmxPort n).timedOut then
      ((dmxResume n u).put (A.DMX_STAT n) F.DMX_STAT_FADING 0).raise P.DMX 16 else u :=
  (dmxInputOp_spec hon hi).trans ((if_neg (by rw [hframed, hbreak]; decide)).trans (if_neg fun hne => hne hcode))

end

/-! ### RDM transactions -/

section
variable {s : State} {x : RdmSt}

/-- RDM_CMD by its requester (R328). -/
theorem exec_rdmSend {u : State} {r : Req} {v : Word} (h : s.reaches r P.DMX) (hu : rdmCmd v (s.arrive r P.DMX) = u) :
    exec (.rdmSend r v) s = .next (finish s (u.reply r .done)) :=
  gated_of ((regWrite_acts h 0x084 (by decide) (by decide) v
    (d := ⟨0x084, 0, 1, .single, [⟨31, 28, .wo, 0⟩, ⟨19, 16, .wo, 0⟩, ⟨8, 0, .wo, 0⟩]⟩) rfl rfl (by decide) rfl rfl).trans
    (congrArg (State.reply · r .done) hu))

/-- A request of 24 to 255 bytes, as many as it says, for an enabled OUTPUT port with RDM on (R328). -/
structure State.TakesRdm (s : State) (v : Word) : Prop where
  op : fget v F.DMX_RDM_CMD_OP = 1
  long : 24 ≤ fget v F.DMX_RDM_CMD_BYTES
  short : fget v F.DMX_RDM_CMD_BYTES ≤ 255
  counted : (s.rdmByte 2).toNat = fget v F.DMX_RDM_CMD_BYTES
  enabled : s.dmxOn (fget v F.DMX_RDM_CMD_PORT) 0 = true
  rdmEnabled : s.dmxCfg (fget v F.DMX_RDM_CMD_PORT) F.DMX_CFG_RDM_EN = 1
  idle : s.net.rdm = none

/-- SEND takes such a request, which waits for a packet in progress, while the port's Jack core is not being reloaded (R328, R422). -/
theorem rdmCmd_taken {v : Word} (hi : s.injArmed P.DMX 31 = false) (h : s.TakesRdm v) :
    let n := fget v F.DMX_RDM_CMD_PORT
    let k := fget v F.DMX_RDM_CMD_BYTES
    bitOf (s.rd A.GAFFER_JACK_STAT) (8 + n / 2) = false →
      let phase := if (s.dmxPort n).sending then 0 else 1
      let t : State := { s with net := { s.net with rdm := some ⟨n, rdmWithSum ((List.range k).map s.rdmByte), phase⟩ } }
      rdmCmd v s = t.wr A.DMX_RDM_STAT (w32 (2 ^ 31)) := by
  obtain ⟨hop, hlong, hshort, hcounted, hon, hrdm, hidle⟩ := h
  intro n k hjack phase t
  have hnoJack : ¬ bitOf (t.rd A.GAFFER_JACK_STAT) (8 + n / 2) = true := by
    rw [show t.rd A.GAFFER_JACK_STAT = s.rd A.GAFFER_JACK_STAT from rfl, hjack]
    decide
  unfold rdmCmd
  rw [hi]
  dsimp only
  rw [if_neg (by simp [hop, hlong, hshort, hcounted, hon, hrdm, hidle])]
  exact if_neg hnoJack

/-- A request that has been sent ends its transaction where it is to all devices, and awaits its response otherwise (R328). -/
theorem rdmRequestEndOp_sent (hx : s.net.rdm = some x) (hsent : x.phase = 1) :
    rdmRequestEndOp s = if (x.data.drop 3).take 6 = List.replicate 6 0xFF then rdmEnd 3 s
      else { s with net := { s.net with rdm := some { x with phase := 2 } } } := by
  unfold rdmRequestEndOp
  rw [hx]
  dsimp only
  rw [if_neg (by rw [hsent]; decide)]
  simp only [beq_iff_eq]

/-- A response that is awaited is queued whole, and ends its transaction (R319, R328). -/
theorem rdmResponseEndOp_awaited {d : List Byte} {collision : Bool} {took : Nat} (hx : s.net.rdm = some x) (hawaits : x.phase = 2) :
    rdmResponseEndOp d collision took s = rdmEnd 1 (queuePacket (s.dmxCfg x.port F.DMX_CFG_RDM_Q) (80 + x.port) 3
      ((!rdmSumOk d).toNat * 2 + collision.toNat) 0xFF d (s.nowNs - took) s) := by
  unfold rdmResponseEndOp
  rw [hx]
  exact if_neg (by rw [hawaits]; decide)

/-- A response that is awaited times out (R328). -/
theorem rdmTimeoutOp_awaited (hx : s.net.rdm = some x) (hawaits : x.phase = 2) : rdmTimeoutOp s = rdmEnd 2 s := by
  unfold rdmTimeoutOp
  rw [hx]
  exact if_pos (by rw [hawaits]; rfl)

end

/-- Settles O48: a packet's start and end and an input packet each by its own rule, SEND by `exec_rdmSend` and `rdmCmd_taken`, and the
points of a transaction by their phases. -/
theorem dmxAndRdmRun : Obligations.DmxAndRdmRun := by
  unfold Obligations.DmxAndRdmRun
  refine ⟨fun s n hruns => ⟨?_, ?_, ?_⟩, fun s => ⟨?_, ?_⟩⟩
  · intro y hon hidle hfree hshown
    exact exec_of_gated hruns rfl (dmxStartOp_presents hon hidle hfree hshown)
  · intro hsending
    exact ⟨fun hnone => exec_of_gated hruns rfl (dmxEndOp_alone hsending hnone),
      fun x hx hport hwaits => exec_of_gated hruns rfl (dmxEndOp_request hsending hx hport hwaits)⟩
  · intro p hon hi
    exact ⟨fun hbad => exec_of_gated hruns rfl (dmxInputOp_bad hon hi hbad),
      fun hframed hbreak hcode => exec_of_gated hruns rfl (dmxInputOp_otherStart hon hi hframed hbreak hcode),
      fun hframed hbreak hcode => exec_of_gated hruns rfl (dmxInputOp_unit hon hi hframed hbreak hcode)⟩
  · intro r v hobeys a n k hop hlong hshort hcounted hon hrdm hidle hjack
    exact exec_rdmSend hobeys.1 (rdmCmd_taken hobeys.2 ⟨hop, hlong, hshort, hcounted, hon, hrdm, hidle⟩ hjack)
  · intro hruns x hx
    refine ⟨fun hsent hall => ?_, fun hsent hone => ?_, fun hawaits => ⟨fun d collision took => ?_, ?_⟩⟩
    · exact exec_of_gated hruns rfl ((rdmRequestEndOp_sent hx hsent).trans (if_pos hall))
    · exact exec_of_gated hruns rfl ((rdmRequestEndOp_sent hx hsent).trans (if_neg hone))
    · exact exec_of_gated hruns rfl (rdmResponseEndOp_awaited hx hawaits)
    · exact exec_of_gated hruns rfl (rdmTimeoutOp_awaited hx hawaits)

end Sys2Proof.Machine
end

section
/-!
PROOFS. Krafohel time: the tick on an empty queue, CAPTURE, transmit stamps and captures (R333, R334, R344, R357, R401).
-/
namespace Sys2Proof.Machine

/-! ### A step on an empty queue -/

section
variable {s : State}

/-- A step on an empty queue is an idle tick (log entry 3). -/
theorem step_empty (h : s.pending = []) : step s = .next (idleTick s) := by
  unfold step
  rw [h]

/-- In an idle tick of a device that runs the time advances by the increment in use, and the sensor held follows (R333, R401). -/
theorem idleTick_runs (h : s.runs) : idleTick s =
    calHold { s with time := { s.time with t := s.time.t + s.time.incr, ticks := s.time.ticks + 1 } } := if_pos h

/-- A device that does not run stands still in an idle tick. -/
theorem idleTick_stopped (h : ¬ s.runs) : idleTick s = s := if_neg h

/-- A sensor that is held as it should be stays as it is (R401). -/
theorem calHold_followed (h : s.calHeld = s.cal.held) : calHold s = s := if_pos h

end

/-- Settles O2: the step is an idle tick, which `calHold` ends, and `calHold` moves nothing where the sensor held is the right one. -/
theorem emptyQueuePassesOneTick : Obligations.EmptyQueuePassesOneTick := by
  unfold Obligations.EmptyQueuePassesOneTick
  intro s hempty t
  have hstep := step_empty hempty
  refine ⟨fun hruns => ?_, fun hstopped => by rw [hstep, idleTick_stopped hstopped]⟩
  have htick : step s = .next (calHold t) := by rw [hstep, idleTick_runs hruns]
  exact ⟨htick, fun hheld => by rw [htick, calHold_followed hheld]⟩

/-! ### Times captured and taken -/

section
variable {s : State} {r : Req} {c : Nat}

/-- CAPTURE by its requester (R334). -/
theorem exec_timeCapture (h : s.reaches r P.TIME) :
    exec (.timeCapture r) s = .next (finish s ((timeCaptureOp (s.arrive r P.TIME)).reply r .done)) :=
  gated_of (regWrite_acts h 0x0A8 (by decide) (by decide) 1 (d := ⟨0x0A8, 0, 1, .single, [⟨0, 0, .w1s, 0⟩]⟩) rfl rfl (by decide) rfl rfl)

/-- CAPTURE copies the time into NOW (R334). -/
theorem timeCaptureOp_eq (s : State) : timeCaptureOp s = ((s.wr64 A.TIME_NOW_SEC_LO (s.nowNs / 10 ^ 9)).wr A.TIME_NOW_NS
    (w32 (s.nowNs % 10 ^ 9))).wr A.TIME_NOW_FRAC (w32 s.time.t) := rfl

/-- TSQ_POP read outside the SNAP view gives up what its port's queue holds first (R34, R344). -/
theorem exec_tsqPop (h : s.reaches r P.TIME) (hview : (s.arrive r P.TIME).viewOf r P.TIME ≠ 2) {w : Word} {u : State}
    (htake : tsqTake r (s.arrive r P.TIME) = (w, u)) : exec (.tsqPop r) s = .next (finish s (u.reply r (.data w))) :=
  gated_of (regRead_take h 0x188 (by decide) (by decide) rfl (by decide) hview (congrArg some htake))

/-- No stamp is given up where none waits (R344). -/
theorem tsqTake_nil (h : (s.port (s.tsqPort r)).tsq = []) : tsqTake r s = (0, s) := by
  unfold tsqTake
  dsimp only
  rw [h]

/-- The oldest stamp is given up, with its time in TSQ_SEC and TSQ_NS (R344). -/
theorem tsqTake_cons {x : Nat × Nat × Nat} {xs : List (Nat × Nat × Nat)} (h : (s.port (s.tsqPort r)).tsq = x :: xs) :
    let t := s.setPort (s.tsqPort r) { s.port (s.tsqPort r) with tsq := xs }
    tsqTake r s = (w32 (2 ^ 31 + x.1 % 65536), (t.wr A.TIME_TSQ_SEC (w32 x.2.1)).wr A.TIME_TSQ_NS (w32 x.2.2)) := by
  intro t
  unfold tsqTake
  dsimp only
  rw [h]

/-- Each of the eight capture inputs has a POP, whose read clears it (R357). -/
theorem findReg_capturePop (hc : c < 8) : findReg (P.TRIG * 0x1000 + (0x404 + c * 0x20)) =
    some ⟨0x404, 0x20, 8, .single, [⟨31, 31, .rc, 0⟩, ⟨30, 30, .rc, 0⟩]⟩ :=
  (by decide : ∀ k, k < 8 → findReg (P.TRIG * 0x1000 + (0x404 + k * 0x20)) =
    some ⟨0x404, 0x20, 8, .single, [⟨31, 31, .rc, 0⟩, ⟨30, 30, .rc, 0⟩]⟩) c hc

/-- A read of POP takes a record of its capture input (R357). -/
theorem takeReg_capturePop (hc : c < 8) (s : State) :
    takeReg r (P.TRIG * 0x1000 + (0x404 + c * 0x20)) s = some (captureTake c s) := by
  have hoff : 0x404 + c * 0x20 < 0x1000 := by omega
  have hother {a : Nat} (ha : a / 0x1000 ≠ P.TRIG) : P.TRIG * 0x1000 + (0x404 + c * 0x20) ≠ a := fun h => ha (h ▸ page_of hoff)
  have hpop : 0x400 ≤ 0x404 + c * 0x20 ∧ 0x404 + c * 0x20 < 0x500 ∧ (P.TRIG * 0x1000 + (0x404 + c * 0x20)) % 0x20 = 4 := by
    rw [show P.TRIG = 0x162 from rfl]
    omega
  have hinput : (0x404 + c * 0x20 - 0x400) / 0x20 = c := by omega
  unfold takeReg
  rw [if_neg (hother (by decide)), if_neg (hother (by decide)), if_neg (hother (by decide)), if_neg (hother (by decide)),
    if_neg (hother (by decide)), page_of hoff, offset_of hoff,
    show blkOf P.TRIG = some .trig from rfl]
  dsimp only
  rw [if_pos hpop, hinput]

/-- POP of a capture input read outside the SNAP view gives up what its queue holds first (R34, R357). -/
theorem exec_capturePop (hc : c < 8) (h : s.reaches r P.TRIG) (hview : (s.arrive r P.TRIG).viewOf r P.TRIG ≠ 2) {w : Word} {u : State}
    (htake : captureTake c (s.arrive r P.TRIG) = (w, u)) : exec (.capturePop r c) s = .next (finish s (u.reply r (.data w))) := by
  have hoff : 0x404 + c % 8 * 0x20 = 0x404 + c * 0x20 := by omega
  refine gated_of (f := regRead r P.TRIG (0x404 + c % 8 * 0x20)) ?_
  rw [hoff]
  exact regRead_take h _ (by omega) (by omega) (findReg_capturePop hc) (by decide) hview
    ((takeReg_capturePop hc _).trans (congrArg some htake))

/-- No record is given up where none waits (R357). -/
theorem captureTake_nil (h : s.capQ c = []) : captureTake c s = (0, s) := by
  unfold captureTake
  rw [h]

/-- The oldest record is given up, with its time in CSEC and CNS (R357). -/
theorem captureTake_cons {x : Bool × Nat} {xs : List (Bool × Nat)} (h : s.capQ c = x :: xs) :
    let t := (s.setCap c xs).wr64 (A.TRIG_CSEC_LO c) (x.2 / 10 ^ 9)
    captureTake c s = (w32 (2 ^ 31 + x.1.toNat * 2 ^ 30), t.wr (A.TRIG_CNS c) (w32 (x.2 % 10 ^ 9))) := by
  intro t
  unfold captureTake
  rw [h]
  rfl

/-- What an edge on an enabled capture input does that its EDGE selects (R357). -/
theorem captureEdgeOp_selected {rising : Bool} (hc : c < 8) (hen : s.actF (A.TRIG_CCFG c) F.TRIG_CCFG_EN ≠ 0)
    (hi : s.injArmed P.TRIG 31 = false) (hrise : s.actF (A.TRIG_CCFG c) F.TRIG_CCFG_EDGE = 1 → rising = true)
    (hfall : s.actF (A.TRIG_CCFG c) F.TRIG_CCFG_EDGE = 2 → rising = false) :
    captureEdgeOp c rising s = if 16 ≤ (s.capQ c).length then (s.inc (A.TRIG_LOST c)).raise P.TRIG 9
      else (s.setCap c (s.capQ c ++ [(rising, s.edgeTime (s.actF (A.TRIG_CCFG c) F.TRIG_CCFG_GLITCH_NS) / 2 ^ 32)])).raise P.TRIG c := by
  have hselected : ¬ (false = true ∨ (s.actF (A.TRIG_CCFG c) F.TRIG_CCFG_EDGE = 1 ∧ (!rising) = true) ∨
      (s.actF (A.TRIG_CCFG c) F.TRIG_CCFG_EDGE = 2 ∧ rising = true)) := by
    rintro (hremoved | ⟨hedge, hfalls⟩ | ⟨hedge, hrises⟩)
    · exact Bool.noConfusion hremoved
    · rw [hrise hedge] at hfalls
      exact Bool.noConfusion hfalls
    · rw [hfall hedge] at hrises
      exact Bool.noConfusion hrises
  unfold captureEdgeOp
  rw [pinRemoved_unarmed hi]
  dsimp only
  rw [if_neg (not_or.mpr ⟨Nat.not_le.mpr hc, hen⟩), if_neg hselected]

end

/-- Settles O49: CAPTURE, TSQ_POP and POP by their requester's access, and an edge by `captureEdgeOp_selected`. -/
theorem timesAreCapturedAndTaken : Obligations.TimesAreCapturedAndTaken := by
  unfold Obligations.TimesAreCapturedAndTaken
  intro s
  refine ⟨?_, ?_, ?_⟩
  · intro r hreach a q
    rw [← timeCaptureOp_eq]
    refine ⟨exec_timeCapture hreach, fun hview => ⟨fun hnone => ?_, fun x xs hq => ?_⟩⟩
    · exact exec_tsqPop hreach hview (tsqTake_nil hnone)
    · exact exec_tsqPop hreach hview (tsqTake_cons hq)
  · intro r c hc hreach a hview
    refine ⟨fun hnone => ?_, fun x xs hq => ?_⟩
    · exact exec_capturePop hc hreach hview (captureTake_nil hnone)
    · exact exec_capturePop hc hreach hview (captureTake_cons hq)
  · intro hruns c rising hc hen hi hrise hfall e
    have hedge := captureEdgeOp_selected hc hen hi hrise hfall
    exact ⟨fun hroom => exec_of_gated hruns rfl (hedge.trans (if_neg (Nat.not_le.mpr hroom))),
      fun hfull => exec_of_gated hruns rfl (hedge.trans (if_pos hfull))⟩

end Sys2Proof.Machine
end

section
/-!
PROOFS. The PTP domains: a domain's master, its samples and its path delay, the loss of its parent and the authority (R336, R337, R339).
-/
namespace Sys2Proof.Machine

/-! ### Announce -/

section
variable {s t : State} {d : Nat} {m : PtpAnnounce}

/-- The domain hears an Announce, which is counted, and no injection is armed into the domain (R336, R455). -/
structure State.HearsAnnounce (s : State) (d : Nat) (m : PtpAnnounce) (t : State) : Prop where
  counted : t = (takeRx m.port s).inc (A.PTP_ANN_RX d)
  hears : (takeRx m.port s).ptpHears d m.port m.domain m.ether = true
  unarmed : t.injArmed P.PTP (1 + d) = false

/-- An Announce wakes a LOST domain (R337). -/
theorem ptpAnnounceOp_lost (h : s.HearsAnnounce d m t) (hlost : t.domState d = 4) : ptpAnnounceOp d m s = domTake d 1 t :=
  (ptpAnnounceOp_spec rfl h.hears h.counted h.unarmed).trans (if_pos hlost)

/-- A domain without a parent follows the Announce's sender (R336). -/
theorem ptpAnnounceOp_first (h : s.HearsAnnounce d m t) (hwake : t.domState d ≠ 4) (hnone : (t.dom d).parent = none) :
    ptpAnnounceOp d m s = govSync (chooseParent d m t) := by
  rw [ptpAnnounceOp_spec rfl h.hears h.counted h.unarmed, if_neg hwake, hnone]

/-- A parent gives way to its own Announce and to a better master (R336). -/
theorem ptpAnnounceOp_parent {p : PtpAnnounce} (h : s.HearsAnnounce d m t) (hwake : t.domState d ≠ 4) (hp : (t.dom d).parent = some p) :
    ptpAnnounceOp d m s =
      if (p.source = m.source ∧ p.port = m.port) ∨ better m p then govSync (chooseParent d m t) else t := by
  rw [ptpAnnounceOp_spec rfl h.hears h.counted h.unarmed, if_neg hwake, hp]

end

/-! ### Sync and Follow_Up -/

section
variable {s t : State} {d : Nat}

/-- The domain hears a Sync, and no injection is armed into the domain (R336, R455). -/
structure State.HearsSync (s : State) (d : Nat) (m : PtpSync) (t : State) : Prop where
  taken : t = takeRx m.port s
  hears : t.ptpHears d m.port m.domain m.ether = true
  unarmed : t.injArmed P.PTP (1 + d) = false

/-- A Sync that a domain hears wakes it where it is LOST; the parent's is used at once, or waits for its Follow_Up (R336, R337). -/
theorem ptpSyncOp_heard {m : PtpSync} (h : s.HearsSync d m t) :
    let arrival : Int := ((s.rxT m.port / 65536 : Nat) : Int)
    let v := syncHeard d m.interval t
    (t.domState d = 4 → ptpSyncOp d m s = domTake d 1 t) ∧
    (t.domState d ≠ 4 → t.fromParent d m.port m.source = true → ptpSyncOp d m s =
      if m.twoStep then v.setDom d { v.dom d with pending := some (m.seqId, arrival, m.corr) }
      else syncUsed d (v.ptpTime m.originSec m.originNs + m.corr) arrival v) := by
  intro arrival v
  obtain ⟨rfl, hhears, hunarmed⟩ := h
  unfold ptpSyncOp
  dsimp only
  rw [if_neg (by rw [hhears]; decide), domInject_unarmed hunarmed]
  exact ⟨fun hlost => if_pos hlost, fun hwake hparent => (if_neg hwake).trans (if_neg (by rw [hparent]; decide))⟩

/-- The Follow_Up of the parent's Sync that waits completes it (R336). -/
theorem ptpFollowUpOp_awaited {m : PtpFollowUp} {q : Nat} {arrival corr : Int} :
    let t := takeRx m.port s
    (t.dom d).pending = some (q, arrival, corr) → t.ptpHears d m.port m.domain m.ether = true →
      t.fromParent d m.port m.source = true → q = m.seqId →
      ptpFollowUpOp d m s = syncUsed d (t.ptpTime m.originSec m.originNs + m.corr + corr) arrival t := by
  intro t hwaits hhears hparent hseq
  unfold ptpFollowUpOp
  dsimp only
  rw [show ((takeRx m.port s).dom d).pending = _ from hwaits]
  exact if_pos (by rw [hhears, hparent, hseq, beq_self_eq_true]; rfl)

end

/-! ### Delay requests, loss and authority -/

section
variable {s : State} {d : Nat}

/-- A Delay_Req that its interval allows leaves for the parent (R336, R344). -/
theorem ptpDelayReqSendOp_due {p : PtpAnnounce} (hp : (s.dom d).parent = some p) (hparent : s.fromParent d p.port p.source = true)
    (hdue : s.dreqDue d ≤ s.nowNs) :
    let x := s.dom d
    let t := s.setDom d { x with dreq := some (x.dseq, none), dseq := (x.dseq + 1) % 65536, dreqAt := some s.nowNs }
    let body : TxBody := .delayReq p.domain x.dseq p.ether (bitOf (s.act (A.PTP_CFG d)) 28)
    ptpDelayReqSendOp d s = handOver p.port { plainFrame false body with ptp := some (d, x.dseq) } (t.inc (A.PTP_DREQ_TX d)) := by
  intro x t body
  unfold ptpDelayReqSendOp
  rw [hp]
  exact if_pos ⟨hparent, hdue⟩

/-- A domain that follows a parent is LOST once the parent has been silent for too long (R337). -/
theorem ptpLostOp_due (hon : s.domOn d = true) (hfollows : s.domState d = 2 ∨ s.domState d = 3) (hdue : s.lostDue d ≤ s.nowNs) :
    ptpLostOp d s = govSync (dropParent d (domTake d 4 s)) :=
  if_pos (by simp [hon, hfollows, hdue])

/-- Under AUTO the governing domain is chosen anew where TB governs and TA is VALID (R339). -/
theorem ptpRevertOp_due (hauto : s.actF A.PTP_CTRL F.PTP_CTRL_GOV = 2) (hgov : s.time.gov = some 1) (hvalid : s.domValid 0 = true) :
    ptpRevertOp s = govSync s := if_pos ⟨hauto, hgov, hvalid⟩

end

/-- Settles O50: each message by the lemma on its operation, and what a domain sends or does by itself at the time that is reached. -/
theorem domainsFollowTheirMasters : Obligations.DomainsFollowTheirMasters := by
  unfold Obligations.DomainsFollowTheirMasters
  intro s d hruns
  have hact {c : Instr} {g : State → State} {u : State} (hc : exec c s = gated g s) (hu : g s = u) :
      exec c s = .next (finish s u) := exec_of_gated hruns hc hu
  refine ⟨?_, ?_, ?_, ?_, ?_, ?_, ?_⟩
  · intro m u t hhears hunarmed
    have hheard : s.HearsAnnounce d m t := ⟨rfl, hhears, hunarmed⟩
    refine ⟨fun hlost => hact rfl (ptpAnnounceOp_lost hheard hlost),
      fun hwake => ⟨fun hnone => hact rfl (ptpAnnounceOp_first hheard hwake hnone), fun p hp => ?_⟩⟩
    have hparent := ptpAnnounceOp_parent hheard hwake hp
    refine ⟨fun hsource hport => hact rfl (hparent.trans (if_pos (.inl ⟨hsource, hport⟩))),
      fun hbetter => hact rfl (hparent.trans (if_pos (.inr hbetter))), fun hother hworse => hact rfl (hparent.trans (if_neg ?_))⟩
    rintro (⟨hsource, hport⟩ | hbetter)
    · exact hother.elim (· hsource) (· hport)
    · exact Bool.noConfusion (hworse.symm.trans hbetter)
  · intro m t arrival hhears hunarmed
    obtain ⟨hlost, hused⟩ := ptpSyncOp_heard (s := s) (m := m) ⟨rfl, hhears, hunarmed⟩
    refine ⟨fun h => hact rfl (hlost h), fun hwake hparent => ?_⟩
    intro v
    exact ⟨fun htwo => hact rfl ((hused hwake hparent).trans (if_pos htwo)),
      fun hone => hact rfl ((hused hwake hparent).trans (if_neg (by rw [hone]; decide)))⟩
  · intro m q arrival corr t hwaits hhears hparent hseq
    exact hact rfl (ptpFollowUpOp_awaited hwaits hhears hparent hseq)
  · intro p u hp hparent hdue
    exact hact (g := fun s => ptpDelayReqSendOp d (reach (s.dreqDue d) s)) rfl (ptpDelayReqSendOp_due hp hparent hdue)
  · intro m q t3 t1 t2 t x hhears hparent hdreq hlast hseq mpd
    have hresp := ptpDelayRespOp_spec (s := s) rfl hhears hparent hdreq hlast hseq
    exact ⟨fun hneg => hact rfl (hresp.trans (if_pos hneg)), fun hpos => hact rfl (hresp.trans (if_neg (Int.not_lt.mpr hpos)))⟩
  · intro t hon hfollows hdue
    exact hact (g := fun s => ptpLostOp d (reach (s.lostDue d) s)) rfl (ptpLostOp_due hon hfollows hdue)
  · intro t hauto hgov hvalid
    exact hact (g := fun s => ptpRevertOp (reach s.revertDue s)) rfl (ptpRevertOp_due hauto hgov hvalid)

end Sys2Proof.Machine
end

section
/-!
PROOFS. The inputs of time and the triggers: genlock, LTC and the pulses (R350, R353 to R356).
-/
namespace Sys2Proof.Machine

/-! ### Genlock -/

section
variable {s : State}

/-- What an edge of GENLOCK_IN does that neither a filter nor an injection takes: the first counts; in lock it counts near the
prediction; out of lock where its distance is a period, and it is a new start where it comes too late (R350). -/
theorem genlockEdgeOp_passes (hfilter : s.injArmed P.SYNC 31 = false) (hmiss : s.injArmed P.SYNC 6 = false) :
    let e := s.edgeTime (s.actF A.SYNC_GL_CFG F.SYNC_GL_CFG_GL_GLITCH_NS)
    let g := s.time.gl
    (g.edge = none → genlockEdgeOp s = glAccept e { s with time := { s.time with gl := { g with row := 0 } } }) ∧
    (∀ p, g.edge = some p →
      (s.glLocked = true → genlockEdgeOp s =
        if 16 * ((e : Int) - ((p + s.pAvg : Nat) : Int)).natAbs ≤ s.pAvg then glAccept e s else s.inc A.SYNC_GL_SPUR) ∧
      (s.glLocked = false → genlockEdgeOp s =
        if (e - p) * 240 < 10 ^ 9 * 2 ^ 32 then (s.inc A.SYNC_GL_SPUR).setGl { g with row := 0 }
        else if 1001 * 10 ^ 9 * 2 ^ 32 < (e - p) * 24000 then
          (s.inc A.SYNC_GL_SPUR).setGl { g with row := 0, edge := some e, periods := [] }
        else glAccept e s)) := by
  intro e g
  unfold genlockEdgeOp
  rw [pinRemoved_unarmed hfilter]
  dsimp only
  rw [if_neg Bool.false_ne_true, State.detect_unarmed hmiss]
  dsimp only
  rw [if_neg Bool.false_ne_true]
  refine ⟨fun hnone => ?_, fun p hp => ⟨fun hlocked => ?_, fun hfree => ?_⟩⟩
  · rw [show s.time.gl.edge = none from hnone]
  · rw [show s.time.gl.edge = some p from hp]
    exact if_pos hlocked
  · rw [show s.time.gl.edge = some p from hp]
    exact if_neg (by rw [hfree]; decide)

/-- The flywheel marks an edge that is missing in lock, and gives the lock up with the fourth in a row (R350). -/
theorem genlockFlywheelOp_missing {e : Nat} (hlocked : s.glLocked = true) (he : s.time.gl.edge = some e)
    (hdue : s.glDue.getD 0 ≤ s.nowNs) :
    let g := s.time.gl
    let t := ((s.inc A.SYNC_GL_MISS).raise P.SYNC 6).setGl
      { g with edge := some (e + s.pAvg), misses := g.misses + 1, fly := true, row := 0 }
    (g.misses < 3 → genlockFlywheelOp s = t) ∧
    (3 ≤ g.misses → genlockFlywheelOp s = t.put A.SYNC_GL_STAT F.SYNC_GL_STAT_LOCKED 0) := by
  intro g t
  have hmissing := genlockFlywheelOp_spec hlocked he hdue
  exact ⟨fun hfew => hmissing.trans (if_neg (Nat.not_le.mpr (Nat.succ_lt_succ hfew))),
    fun hmany => hmissing.trans (if_pos (Nat.succ_le_succ hmany))⟩

end

/-! ### LTC -/

section
variable {s : State} {f : LtcFrame}

/-- The decoder is on, and no injection is armed into the filter of its pin (R353, R455). -/
structure State.DecodesLtc (s : State) : Prop where
  on : s.actF A.SYNC_LTC_CFG F.SYNC_LTC_CFG_EN ≠ 0
  unarmed : s.injArmed P.SYNC 31 = false

/-- A frame read backwards is counted and not used (R353). -/
theorem ltcFrameOp_reversed (h : s.DecodesLtc) (hreversed : f.reversed = true) : ltcFrameOp f s = s.inc A.SYNC_LTC_REVERSE := by
  rw [ltcFrameOp_spec h.on h.unarmed, if_pos hreversed]

/-- A frame at no rate is an error (R353). -/
theorem ltcFrameOp_noRate (h : s.DecodesLtc) (hforward : f.reversed = false) (hrate : ltcRate f.bitRate f.dropFlag = none) :
    ltcFrameOp f s = s.inc A.SYNC_LTC_ERR := by
  rw [ltcFrameOp_spec h.on h.unarmed, if_neg (by rw [hforward]; decide), hrate]

/-- A frame at a rate is an error, a frame at the wrong rate, or a unit (R353). -/
theorem ltcFrameOp_rate {rate : Nat} (h : s.DecodesLtc) (hforward : f.reversed = false)
    (hrate : ltcRate f.bitRate f.dropFlag = some rate) :
    let t := (s.put A.SYNC_LTC_STAT F.SYNC_LTC_STAT_DF f.dropFlag.toNat).put A.SYNC_LTC_STAT F.SYNC_LTC_STAT_RATE rate
    let tc := if t.actF A.SYNC_LTC_CFG F.SYNC_LTC_CFG_ADVANCE = 1 then tcNext f.tc rate else f.tc
    ltcFrameOp f s = if f.bitError ∨ !bcdOk f.tc (tcFps rate) then s.inc A.SYNC_LTC_ERR
      else if rate ≠ t.actF A.SCHED_TC_CTRL ⟨29, 28⟩ then t.inc A.SYNC_LTC_RATE_ERR
      else ltcUnit tc 0 (t.wr A.SYNC_LTC_USER f.user) := by
  intro t tc
  rw [ltcFrameOp_spec h.on h.unarmed, if_neg (by rw [hforward]; decide), hrate]

/-- The decoder, on and with a unit to continue, at the time its next unit is due (R354). -/
theorem ltcFlywheelOp_due (hon : s.actF A.SYNC_LTC_CFG F.SYNC_LTC_CFG_EN ≠ 0)
    (hvalid : s.get A.SYNC_LTC_STAT F.SYNC_LTC_STAT_VALID ≠ 0) (hdue : s.ltcFlyDue ≤ s.nowNs) :
    ltcFlywheelOp s = if s.actF A.SYNC_LTC_CFG F.SYNC_LTC_CFG_LTC_FLY ≤ s.time.ltc.fly then
        s.put A.SYNC_LTC_STAT F.SYNC_LTC_STAT_FLYWHEEL 0
      else ltcUnit (tcNext (s.rd A.SYNC_LTC_VAL) (s.get A.SYNC_LTC_STAT F.SYNC_LTC_STAT_RATE)) (s.time.ltc.fly + 1) s :=
  if_neg (not_or.mpr ⟨hon, not_or.mpr ⟨hvalid, Nat.not_lt.mpr hdue⟩⟩)

end

/-! ### Triggers -/

section
variable {s : State} {n d : Nat}

/-- An armed trigger with a pulse in its list is due at the first of them (R355, R356). -/
theorem State.trigDue_listed {ds : List Nat} (hn : n < 16) (harmed : (s.trig n).armed = true) (hdue : (s.trig n).due = d :: ds) :
    s.trigDue n = some d := by
  unfold State.trigDue
  dsimp only
  rw [if_neg (by rw [harmed, not_or]; exact ⟨Nat.not_le.mpr hn, Bool.false_ne_true⟩), hdue]

/-- An armed PERIODIC trigger is due a whole number of periods after its start (R356). -/
theorem State.trigDue_periodic {start j : Nat} (hn : n < 16) (harmed : (s.trig n).armed = true) (hnone : (s.trig n).due = [])
    (hnext : (s.trig n).next = some (start, j)) : s.trigDue n = some (start + j * s.trigPeriod n) := by
  unfold State.trigDue
  dsimp only
  rw [if_neg (by rw [harmed, not_or]; exact ⟨Nat.not_le.mpr hn, Bool.false_ne_true⟩), hnone, hnext]

/-- The pulse due first starts once its time has come, and is the only one of a ONCE trigger (R355, R356). -/
theorem triggerPulseOp_listed {ds : List Nat} (hn : n < 16) (harmed : (s.trig n).armed = true) (hdue : (s.trig n).due = d :: ds)
    (hcome : d ≤ s.time.t) : triggerPulseOp n s =
      s.setTrig n { s.trig n with
        due := ds, active := some s.time.t, armed := !(s.actF (A.TRIG_TCFG n) F.TRIG_TCFG_MODE == 1) } := by
  unfold triggerPulseOp
  rw [State.trigDue_listed hn harmed hdue]
  dsimp only
  rw [if_neg (Nat.not_lt.mpr hcome), hdue]

/-- A PERIODIC trigger's pulse starts once its time has come, and its next is due a period later (R355, R356). -/
theorem triggerPulseOp_periodic {start j : Nat} (hn : n < 16) (harmed : (s.trig n).armed = true) (hnone : (s.trig n).due = [])
    (hnext : (s.trig n).next = some (start, j)) (hcome : start + j * s.trigPeriod n ≤ s.time.t) :
    triggerPulseOp n s = s.setTrig n { s.trig n with next := some (start, j + 1), active := some s.time.t } := by
  unfold triggerPulseOp
  rw [State.trigDue_periodic hn harmed hnone hnext]
  dsimp only
  rw [if_neg (Nat.not_lt.mpr hcome), hnone, hnext]

/-- A pulse ends once it has lasted WIDTH (R355). -/
theorem triggerPulseEndOp_over {b : Nat} (hactive : (s.trig n).active = some b)
    (hover : b + s.actF (A.TRIG_WIDTH n) F.TRIG_WIDTH_NS * 2 ^ 32 ≤ s.time.t) :
    triggerPulseEndOp n s = s.setTrig n { s.trig n with active := none } := by
  have hdue : s.trigEndDue n = some (b + s.actF (A.TRIG_WIDTH n) F.TRIG_WIDTH_NS * 2 ^ 32) := by
    unfold State.trigEndDue
    rw [hactive]
    rfl
  unfold triggerPulseEndOp
  rw [hdue]
  exact if_neg (Nat.not_lt.mpr hover)

end

/-- Settles O51: an edge by `genlockEdgeOp_passes`, a missing one by `genlockFlywheelOp_missing`, LTC by the lemmas on `ltcFrameOp` and
`ltcFlywheelOp`, and a pulse by what it is due by. -/
theorem inputsAndTriggersKeepTime : Obligations.InputsAndTriggersKeepTime := by
  unfold Obligations.InputsAndTriggersKeepTime
  constructor <;> intro s
  · intro hruns
    have hact {c : Instr} {g : State → State} {u : State} (hc : exec c s = gated g s) (hu : g s = u) :
        exec c s = .next (finish s u) := exec_of_gated hruns hc hu
    refine ⟨?_, ?_, ?_, ?_⟩
    · intro hfilter hmiss e g
      obtain ⟨hfirst, hlater⟩ := genlockEdgeOp_passes hfilter hmiss
      refine ⟨fun hnone => hact rfl (hfirst hnone), fun p hp => ?_⟩
      obtain ⟨hlocked, hfree⟩ := hlater p hp
      constructor
      · intro hlock off
        exact ⟨fun hnear => hact rfl ((hlocked hlock).trans (if_pos hnear)),
          fun hfar => hact rfl ((hlocked hlock).trans (if_neg (Nat.not_le.mpr hfar)))⟩
      · intro hlock
        have hedge := hfree hlock
        refine ⟨fun hshort hlong => hact rfl ?_, fun hearly => hact rfl (hedge.trans (if_pos hearly)), fun hlate => hact rfl ?_⟩
        · exact hedge.trans ((if_neg (Nat.not_lt.mpr hshort)).trans (if_neg (Nat.not_lt.mpr hlong)))
        · exact hedge.trans ((if_neg (by omega)).trans (if_pos hlate))
    · intro u hlocked hdue e he
      have hwaits {v : State} (hv : genlockFlywheelOp u = v) : exec .genlockFlywheel s = .next (finish s v) :=
        hact (g := fun s => genlockFlywheelOp (reach (s.glDue.getD 0) s)) rfl hv
      obtain ⟨hholds, hdrops⟩ := genlockFlywheelOp_missing hlocked he hdue
      exact ⟨fun hfew => hwaits (hholds hfew), fun hmany => hwaits (hdrops hmany)⟩
    · intro f hon hunarmed
      have hdecodes : s.DecodesLtc := ⟨hon, hunarmed⟩
      refine ⟨fun hreversed => hact rfl (ltcFrameOp_reversed hdecodes hreversed),
        fun hforward => ⟨fun hnone => hact rfl (ltcFrameOp_noRate hdecodes hforward hnone), fun rate hrate => ?_⟩⟩
      intro t
      have hframe := ltcFrameOp_rate hdecodes hforward hrate
      refine ⟨fun hbad => hact rfl (hframe.trans (if_pos ?_)), fun hwhole hcode => ?_⟩
      · exact hbad.imp id fun hcode => by rw [hcode]; rfl
      · have hgood : ¬ (f.bitError = true ∨ (!bcdOk f.tc (tcFps rate)) = true) := by
          rw [hwhole, hcode]
          decide
        exact ⟨fun hother => hact rfl (hframe.trans ((if_neg hgood).trans (if_pos hother))),
          fun hsame => hact rfl (hframe.trans ((if_neg hgood).trans (if_neg (fun hother => hother hsame))))⟩
    · intro u hon hvalid hdue
      have hfly := ltcFlywheelOp_due hon hvalid hdue
      have hwaits {v : State} (hv : ltcFlywheelOp u = v) : exec .ltcFlywheel s = .next (finish s v) :=
        hact (g := fun s => ltcFlywheelOp (reach s.ltcFlyDue s)) rfl hv
      exact ⟨fun hmore => hwaits (hfly.trans (if_neg (Nat.not_le.mpr hmore))), fun hlast => hwaits (hfly.trans (if_pos hlast))⟩
  · intro n hruns
    constructor
    · intro hn t x harmed
      have hwaits {v : State} (hv : triggerPulseOp n t = v) : exec (.triggerPulse n) s = .next (finish s v) :=
        exec_of_gated (f := fun s => triggerPulseOp n (reachT (s.trigDue n) s)) hruns rfl hv
      constructor
      · intro d ds hdue hcome
        have hpulse := triggerPulseOp_listed hn harmed hdue hcome
        constructor <;> intro hmode
        · refine hwaits (hpulse.trans ?_)
          rw [hmode]
          rfl
        · refine hwaits (hpulse.trans ?_)
          rw [beq_eq_false_iff_ne.mpr hmode]
          rfl
      · intro start j hnone hnext hcome
        exact hwaits (triggerPulseOp_periodic hn harmed hnone hnext hcome)
    · intro b t hactive hover
      exact exec_of_gated (f := fun s => triggerPulseEndOp n (reachT (s.trigEndDue n) s)) hruns rfl
        (triggerPulseEndOp_over hactive hover)

end Sys2Proof.Machine
end

section
/-!
PROOFS. The messages of the pair, and how its devices see, lose and seek each other (R366, R377 to R379, R381).
-/
namespace Sys2Proof.Machine

/-! ### Messages and roles -/

section
variable {s t : State} {pl type need n : Nat} {ws : List Word}

/-- A choice depends on whether its condition holds, not on how it is said. -/
theorem ite_of_iff {α : Type} {p q : Prop} [Decidable p] [Decidable q] (h : p ↔ q) {a b : α} :
    (if p then a else b) = if q then a else b := by
  by_cases hq : q
  · rw [if_pos hq, if_pos (h.mpr hq)]
  · rw [if_neg hq, if_neg (mt h.mp hq)]

/-- A punty message of a type, with a body of a length, that the device takes part in; `t`: its frame is taken (R366). -/
structure State.TakesPunty (s : State) (pl type need : Nat) (ws : List Word) (n : Nat) (t : State) : Prop where
  taken : t = takeRx (68 + pl) s
  good : t.puntyGood pl type need ws n

/-- Such a message is taken. -/
theorem State.TakesPunty.take (h : s.TakesPunty pl type need ws n t) : puntyTake pl type need ws n s = (true, t) :=
  puntyTake_good h.taken h.good

/-- Two states hold authority (R377). -/
theorem State.holdsAuthority_iff : s.holdsAuthority = true ↔ s.twinSt = 2 ∨ s.twinSt = 3 := by
  unfold State.holdsAuthority
  rw [Bool.or_eq_true, beq_iff_eq, beq_iff_eq]

end

/-! ### HELLO -/

section
variable {s t : State} {pl : Nat} {ws : List Word}

/-- HELLO leaves once it is due (R366). -/
theorem helloSendOp_due {t : State} (ht : t = reach s.twin.helloAt s) (hon : s.twinOn = true) (hst : s.twinSt ≠ 0)
    (hdue : s.twin.helloAt ≤ t.nowNs) :
    helloSendOp s = puntyAll (t.puntyHeader 1 0 (t.pairNum t.frameNum) 0)
      { t with twin := { t.twin with helloAt := t.nowNs + 1000000 } } := by
  subst ht
  exact (if_neg (by rw [hon]; simp [hst])).trans (if_neg (by rw [reach_twin]; exact Nat.not_lt.mpr hdue))

/-- Whether a message comes from a device that holds authority (R366, R377). -/
def fromHome (ws : List Word) : Bool := fget (wordAt ws 1) ⟨14, 14⟩ == 0 && (peerState ws == 2 || peerState ws == 3)

/-- A home device says so by its role and its state. -/
theorem fromHome_iff : fromHome ws = true ↔ fget (wordAt ws 1) ⟨14, 14⟩ = 0 ∧ (peerState ws = 2 ∨ peerState ws = 3) := by
  unfold fromHome
  rw [Bool.and_eq_true, Bool.or_eq_true, beq_iff_eq, beq_iff_eq, beq_iff_eq]

/-- An event raised unless a condition holds. -/
theorem State.raiseIf_not (s : State) (c : Bool) (p b : Nat) : s.raiseIf (!c) p b = if c then s else s.raise p b := by
  cases c <;> rfl

/-- A HELLO that arrived at `at_` shows the peer (R366). -/
def State.showsPeer (t : State) (at_ : Nat) : State :=
  ({ t.put A.TWIN_STAT F.TWIN_STAT_PEER_SEEN 1 with twin := { t.twin with heardAt := max t.twin.heardAt at_ } } : State).raiseIf
    (!t.peerSeen) P.TWIN 0

/-- PEER is raised where the peer was not seen. -/
theorem State.showsPeer_eq (t : State) (at_ : Nat) :
    let u : State := { t.put A.TWIN_STAT F.TWIN_STAT_PEER_SEEN 1 with twin := { t.twin with heardAt := max t.twin.heardAt at_ } }
    t.showsPeer at_ = if t.peerSeen then u else u.raise P.TWIN 0 := State.raiseIf_not _ _ _ _

/-- The failover of a partner in MIRROR is over where its peer, in state `st`, is HOMED (R381). -/
def State.endsFailover (w : State) (st : Nat) : State :=
  if decide (st = 3) && w.twinSt == 5 then twinFault (w.put A.TWIN_STAT F.TWIN_STAT_FAILOVER 0) else w

/-- Both states decide it. -/
theorem State.endsFailover_eq (w : State) (st : Nat) : w.endsFailover st =
    if st = 3 ∧ w.twinSt = 5 then twinFault (w.put A.TWIN_STAT F.TWIN_STAT_FAILOVER 0) else w :=
  ite_of_iff (by rw [Bool.and_eq_true, decide_eq_true_eq, beq_iff_eq])

/-- Once it sees its peer, a device takes the role that its own state and the peer's leave it (R377, R379). -/
def State.settles (v : State) (ws : List Word) : State :=
  if v.twinSt == 1 then
    if fromHome ws then twinEnter 4 v else if peerState ws = 1 ∧ v.side = 0 then twinEnter 2 v else v
  else if v.holdsAuthority && fromHome ws then
    if (v.raise P.TWIN 8).side = 1 then twinEnter 4 (v.raise P.TWIN 8) else v.raise P.TWIN 8
  else v

/-- A HELLO shows the peer, and roles are settled. -/
theorem helloOp_taken (h : s.TakesPunty pl 1 0 ws 0 t) :
    helloOp pl ws s = ((t.showsPeer (s.rxAt (68 + pl))).endsFailover (peerState ws)).settles ws := by
  unfold helloOp
  rw [h.take]
  exact if_neg Bool.false_ne_true

/-- A device that seeks joins a home device, and side A becomes one where both seek. -/
theorem State.settles_seeking {v : State} (hst : v.twinSt = 1) : v.settles ws =
    if fromHome ws then twinEnter 4 v else if peerState ws = 1 ∧ v.side = 0 then twinEnter 2 v else v :=
  if_pos (by rw [hst]; rfl)

/-- Of two home devices side B joins. -/
theorem State.settles_home {v : State} (hst : v.twinSt = 2 ∨ v.twinSt = 3) : v.settles ws =
    if fromHome ws then if (v.raise P.TWIN 8).side = 1 then twinEnter 4 (v.raise P.TWIN 8) else v.raise P.TWIN 8 else v := by
  unfold State.settles
  rw [State.holdsAuthority_iff.mpr hst, Bool.true_and]
  exact if_neg (by rcases hst with h | h <;> rw [h] <;> decide)

/-- A partner's role is settled. -/
theorem State.settles_partner {v : State} (hst : 4 ≤ v.twinSt) : v.settles ws = v := by
  have hhome : v.holdsAuthority = false := by
    rw [← Bool.not_eq_true, State.holdsAuthority_iff]
    omega
  unfold State.settles
  rw [hhome]
  exact if_neg (by rw [beq_iff_eq]; omega)

/-- The peer is lost where it has not been heard for 10 ms: a HOMED device is HOME, and authority is due to a partner without links
(R366, R377, R378). -/
theorem peerLostOp_due {w t : State} (hw : w = reach (s.twin.heardAt + 10000000) s)
    (ht : t = (w.put A.TWIN_STAT F.TWIN_STAT_PEER_SEEN 0).raise P.TWIN 1)
    (hon : s.twinOn = true) (hseen : s.peerSeen = true) (hdue : s.twin.heardAt + 10000000 ≤ w.nowNs) :
    let u := if t.twinSt = 3 then twinEnter 2 t else t
    peerLostOp s = if u.isPartner && u.puntyUp.isEmpty then { u with twin := { u.twin with takeover := true } } else u := by
  subst hw ht
  exact (if_neg (by rw [hon, hseen]; decide)).trans (if_neg (by rw [reach_twin]; exact Nat.not_lt.mpr hdue))

/-- A device that has sought for SEEK_MS in vain is the home device (R377). -/
theorem seekTimeoutOp_due {due : Nat} (hdue : due = s.twin.seekAt + s.actF A.TWIN_WAIT F.TWIN_WAIT_SEEK_MS * 1000000)
    (hon : s.twinOn = true) (hst : s.twinSt = 1) (hpast : due ≤ (reach due s).nowNs) :
    seekTimeoutOp s = twinEnter 2 (reach due s) := by
  subst hdue
  exact (if_pos (by rw [hon, hst]; rfl)).trans (if_neg (Nat.not_lt.mpr hpast))

end

/-- Settles O52: HELLO leaves by `helloSendOp_due`; one that arrives shows the peer and settles roles (`helloOp_taken`); the two timeouts by
what is due. -/
theorem twinsSeekEachOther : Obligations.TwinsSeekEachOther := by
  unfold Obligations.TwinsSeekEachOther
  intro s hruns
  have hact {c : Instr} {g : State → State} {u : State} (hc : exec c s = gated g s) (hu : g s = u) :
      exec c s = .next (finish s u) := exec_of_gated hruns hc hu
  refine ⟨?_, ?_, ?_, ?_⟩
  · intro hon hst t u hdue
    exact hact rfl (helloSendOp_due rfl hon hst hdue)
  · intro pl ws t hgood st home u w v
    have hsees : (t.showsPeer (s.rxAt (68 + pl))).endsFailover (peerState ws) = v :=
      (congrArg (State.endsFailover · (peerState ws)) (State.showsPeer_eq t _)).trans (State.endsFailover_eq w st)
    have hhello {x : State} (hx : v.settles ws = x) : exec (.hello pl ws) s = .next (finish s x) :=
      hact rfl ((helloOp_taken ⟨rfl, hgood⟩).trans (by rw [hsees, hx]))
    have hfrom : fromHome ws = true ↔ home := fromHome_iff
    refine ⟨fun hseeking => ?_, fun hhome => ?_, fun hpartner _ => hhello (State.settles_partner hpartner)⟩
    · have hsettles := State.settles_seeking (ws := ws) hseeking
      refine ⟨fun hpeer => hhello (hsettles.trans (if_pos (hfrom.mpr hpeer))), fun hseeks hside => ?_, fun hpeer hother => ?_⟩
      · have hpeer : ¬ home := by
          rintro ⟨-, h | h⟩ <;> omega
        exact hhello (hsettles.trans ((if_neg (mt hfrom.mp hpeer)).trans (if_pos ⟨hseeks, hside⟩)))
      · exact hhello (hsettles.trans ((if_neg (mt hfrom.mp hpeer)).trans (if_neg hother)))
    · have hsettles := State.settles_home (ws := ws) hhome
      exact ⟨fun hpeer hside => hhello (hsettles.trans ((if_pos (hfrom.mpr hpeer)).trans (if_pos hside))),
        fun hpeer hside => hhello (hsettles.trans ((if_pos (hfrom.mpr hpeer)).trans (if_neg hside))),
        fun hpeer => hhello (hsettles.trans (if_neg (mt hfrom.mp hpeer)))⟩
  · intro hon hseen w t u hdue
    have hlost := peerLostOp_due rfl rfl hon hseen hdue
    refine ⟨fun hpartner hdown => hact rfl (hlost.trans (if_pos ?_)), fun hstays => hact rfl (hlost.trans (if_neg ?_))⟩
    · rw [Bool.and_eq_true, List.isEmpty_iff]
      exact ⟨hpartner, hdown⟩
    · rw [Bool.and_eq_true, List.isEmpty_iff]
      rintro ⟨hpartner, hdown⟩
      exact hstays.elim (fun h => absurd (hpartner.symm.trans h) (by decide)) (fun h => h hdown)
  · intro hon hst due hpast
    exact hact rfl (seekTimeoutOp_due rfl hon hst hpast)

end Sys2Proof.Machine
end


section
/-!
PROOFS. A partner and its HEADs (R367 to R372).
-/
namespace Sys2Proof.Machine

/-! ### HEADs judged -/

section
variable {s t : State} {pl : Nat} {ws : List Word}

/-- A HEAD that is neither a copy nor late reaches a partner, with no loss injected; `t`: its frame is taken (R367, R368). -/
structure State.TakesHead (s : State) (pl : Nat) (ws : List Word) (t : State) : Prop where
  taken : t = takeRx (68 + pl) s
  good : t.puntyGood pl 2 808 ws 0
  partner : t.isPartner = true
  fresh : t.headOld ws = false
  unlost : t.injArmed P.TWIN 6 = false

/-- The boundary that a HEAD names (R368). -/
def headBoundary (ws : List Word) : Int :=
  let b := puntyBody ws
  ((b 5 * 2 ^ 32 + b 6) * 10 ^ 9 + b 7 : Nat)

/-- Whether a HEAD is of the next engine frame: its boundary is the newest, and not the one before (R367, R368). -/
def State.HeadNext (t : State) (ws : List Word) : Prop :=
  let tol := t.actF A.TWIN_FAIL F.TWIN_FAIL_BND_TOL_NS
  (headBoundary ws - (t.time.boundary : Nat)).natAbs ≤ tol ∧ tol < (headBoundary ws - (t.time.prevBoundary : Nat)).natAbs

/-- A HEAD of the next engine frame is held, after one that is held already. -/
theorem headOp_next (h : s.TakesHead pl ws t) (hnext : t.HeadNext ws) :
    headOp pl ws s = { t with twin := { t.twin with nextHead := t.twin.nextHead.or (some ws) } } :=
  (headOp_spec h.taken h.good h.partner h.fresh h.unlost).trans (if_pos hnext)

/-- A HEAD of the engine frame in progress that comes before the wait for it ends is judged. -/
theorem headOp_now (h : s.TakesHead pl ws t) (hnow : ¬ t.HeadNext ws) (hstarted : 2 ≤ t.time.bnds)
    (hearly : s.rxAt (68 + pl) ≤ t.headDue) : headOp pl ws s = headJudge ws t :=
  (headOp_spec h.taken h.good h.partner h.fresh h.unlost).trans ((if_neg hnow).trans
    (if_neg (not_or.mpr ⟨Nat.not_lt.mpr hstarted, Nat.not_lt.mpr hearly⟩)))

/-- How far the boundary that a HEAD names is from the device's own (R368). -/
def State.headDiff (t : State) (ws : List Word) : Int := headBoundary ws - (t.time.prevBoundary : Nat)

/-- A HEAD that is judged is shown by its difference, and no HEAD is missing any more (R368, R378). -/
def State.headSeen (t : State) (ws : List Word) : State :=
  { t.wr A.TWIN_BND_DIFF (sat32 (t.headDiff ws)) with twin := { t.twin with miss := 0 } }

/-- The reason for which a HEAD differs from the device's own frame, whose digests are `own`; 0 where it agrees (R368, R371). -/
def State.headReason (t : State) (ws : List Word) (own : Option (Nat × Nat)) : Nat :=
  let b := puntyBody ws
  if own.map (·.1) ≠ some (b 1 * 2 ^ 32 + b 2) then 1
  else if own.map (·.2) ≠ some (b 3 * 2 ^ 32 + b 4) then 2
  else if t.actF A.TWIN_FAIL F.TWIN_FAIL_BND_TOL_NS < (t.headDiff ws).natAbs then 3 else 0

/-- Another configuration digest comes first. -/
theorem State.headReason_config {c i : Nat} (hc : c ≠ puntyBody ws 1 * 2 ^ 32 + puntyBody ws 2) : t.headReason ws (some (c, i)) = 1 :=
  if_pos (fun h => hc (Option.some.inj h))

/-- Under one configuration the inputs, and then the boundaries, decide. -/
theorem State.headReason_inputs {c i : Nat} (hc : c = puntyBody ws 1 * 2 ^ 32 + puntyBody ws 2) : t.headReason ws (some (c, i)) =
    if i ≠ puntyBody ws 3 * 2 ^ 32 + puntyBody ws 4 then 2
    else if t.actF A.TWIN_FAIL F.TWIN_FAIL_BND_TOL_NS < (t.headDiff ws).natAbs then 3 else 0 :=
  (if_neg (fun hne => hne (congrArg some hc))).trans (ite_of_iff (not_congr Option.some_inj))

/-- A HEAD that differs makes its partner DIVERGED for the reason, and its engines send nothing (R371). -/
theorem headJudge_differs {r : Nat} (hnew : t.twinFrame t.engFrameNum = none)
    (hreason : t.headReason ws (t.digestsOf t.engFrameNum) = r) (hr : r ≠ 0) :
    headJudge ws t = releaseEngines none true (diverge r (noteFrame ⟨t.engFrameNum, false, none⟩ (t.headSeen ws))) := by
  subst hreason
  exact (if_neg (by rw [hnew]; decide)).trans (if_neg hr)

/-- A partner accepts a HEAD: its pair frame number follows it, and the frame has its HEAD (R365, R370). -/
def State.headAccepted (t : State) (ws : List Word) : State :=
  let u := t.headSeen ws
  noteFrame ⟨t.engFrameNum, true, none⟩ (setOfs (w32 ((wordAt ws 2).toNat + 2 ^ 32 - t.engFrameNum))
    { u with twin := { u.twin with lastHead := some (wordAt ws 2).toNat } })

/-- The engines of a partner in MIRROR follow a HEAD that agrees; those of another partner send nothing (R369, R370). -/
theorem headJudge_agrees (hnew : t.twinFrame t.engFrameNum = none)
    (hreason : t.headReason ws (t.digestsOf t.engFrameNum) = 0) :
    let b := puntyBody ws
    let v := t.headAccepted ws
    headJudge ws t = if v.twinSt = 5 then
        let w := mergeSeq (fun l => b (10 + l)) (fallbackSync { v with twin := { v.twin with usedHead := some ws } })
        releaseEngines (some ((headBoundary ws).toNat + b 8)) false (w.put A.TUIPER_SESSION F.TUIPER_SESSION_SESSION (b 9))
      else releaseEngines none true v := by
  intro b v
  exact (if_neg (by rw [hnew]; decide)).trans (if_pos hreason)

end

/-! ### HEADs missed -/

/-! Waiting leaves what the twin block reads of the device. -/

@[simp] theorem reach_twinOn (due : Nat) (s : State) : (reach due s).twinOn = s.twinOn := by
  unfold State.twinOn
  rw [reach_actF]

@[simp] theorem reach_isPartner (due : Nat) (s : State) : (reach due s).isPartner = s.isPartner := by
  unfold State.isPartner State.twinSt State.get State.rd
  rw [reach_rf]

@[simp] theorem reach_bnds (due : Nat) (s : State) : (reach due s).time.bnds = s.time.bnds := by
  obtain ⟨k, hform⟩ := reach_form due s
  rw [hform]

@[simp] theorem reach_frameNum (due : Nat) (s : State) : (reach due s).frameNum = s.frameNum := by
  obtain ⟨k, hform⟩ := reach_form due s
  rw [hform]
  rfl

@[simp] theorem reach_engFrameNum (due : Nat) (s : State) : (reach due s).engFrameNum = s.engFrameNum := by
  unfold State.engFrameNum
  rw [reach_frameNum]

@[simp] theorem reach_twinFrame (due : Nat) (s : State) (n : Nat) : (reach due s).twinFrame n = s.twinFrame n := by
  unfold State.twinFrame
  rw [reach_twin]

section
variable {s w : State}

/-- Clearing the count of clean frames leaves the twin block. -/
@[simp] theorem notClean_twin (s : State) : (notClean s).twin = s.twin := rfl

/-- Noting a frame leaves the take-back that is asked. -/
@[simp] theorem noteFrame_take (x : TwinFrame) (s : State) : (noteFrame x s).twin.take = s.twin.take := rfl

/-- A head miss of the engine frame in progress is counted (R372). -/
def State.countsMiss (w : State) : State :=
  notClean (noteFrame ⟨w.engFrameNum, false, none⟩ ((w.inc A.TWIN_HEAD_MISS).raise P.TWIN 6))

/-- Counting it leaves the take-back that is asked. -/
theorem State.countsMiss_take (w : State) : w.countsMiss.twin.take = w.twin.take := by
  unfold State.countsMiss
  rw [notClean_twin, noteFrame_take, State.raise_twin, State.inc_twin]

/-- What a head miss of pair frame `p` leaves of a take-back: one that is near lapses (R380). -/
def takeLeft (p : Nat) (take : Option (Nat × Bool)) : Option (Nat × Bool) :=
  match take with
  | some (x, _) => if (x + 2 ^ 32 - p) % 2 ^ 32 ≤ 2 then none else take
  | none => none

/-- After a head miss the device goes on without a HEAD, with `take` of a take-back, and authority is due after FAIL_MISS misses in a row
(R372, R378). -/
def State.missesHead (w : State) (take : Option (Nat × Bool)) : State :=
  let t := w.countsMiss
  let m := t.twin.miss + 1
  let failed := decide (t.actF A.TWIN_FAIL F.TWIN_FAIL_FAIL_MISS ≤ m)
  { t with twin := { t.twin with miss := m, takeover := t.twin.takeover || failed, usedHead := none, take := take } }

/-- In MIRROR the engines go on from the partner's own state, 2^20 sequence numbers on; otherwise they send nothing (R372). -/
def State.goesOnAlone (u : State) : State :=
  if u.twinSt == 5 then
    releaseEngines none false (fallbackSync ((List.range 64).foldl (fun (t : State) l => t.setSeq l (t.seqOf l + 2 ^ 20)) u))
  else releaseEngines none true u

/-- The HEAD of a partner's engine frame in progress has not come when the wait for it ends; `w`: that time is reached (R372). -/
structure State.LacksHead (s w : State) : Prop where
  waited : w = reach s.headDue s
  enabled : w.twinOn = true
  partner : w.isPartner = true
  started : 2 ≤ w.time.bnds
  fresh : w.twinFrame w.engFrameNum = none
  past : w.headDue ≤ w.nowNs

/-- Such a partner is ready for a head miss. -/
theorem State.LacksHead.ready (h : s.LacksHead w) :
    ¬ (!w.twinOn || !w.isPartner || decide (w.time.bnds < 2) || (w.twinFrame w.engFrameNum).isSome) = true := by
  obtain ⟨-, hon, hpartner, hstarted, hfresh, -⟩ := h
  rw [hon, hpartner, hfresh, decide_eq_false (Nat.not_lt.mpr hstarted)]
  decide

/-- The head miss is noted, and the device goes on alone. -/
theorem headMissOp_lacks (h : s.LacksHead w) :
    headMissOp s = (w.missesHead (takeLeft (w.countsMiss.pairNum w.engFrameNum) w.twin.take)).goesOnAlone := by
  have hready := h.ready
  obtain ⟨hw, -, -, -, -, hpast⟩ := h
  have hready' := hready
  rw [hw, reach_twinOn, reach_isPartner, reach_bnds, reach_twinFrame, reach_engFrameNum] at hready'
  have hnow : headMissOp s = headMissNow w := by
    subst hw
    exact (if_neg hready').trans (if_neg (Nat.not_lt.mpr hpast))
  refine hnow.trans ((if_neg hready).trans (congrArg (fun take => (w.missesHead take).goesOnAlone) ?_))
  have htake := w.countsMiss_take
  unfold State.countsMiss at htake ⊢
  rw [htake]
  generalize w.twin.take = take
  cases take <;> rfl

end

/-- Settles O53: a HEAD is held (`headOp_next`) or judged (`headOp_now`) by its reason, and one that lacks is missed (`headMissOp_lacks`). -/
theorem partnersFollowHeads : Obligations.PartnersFollowHeads := by
  unfold Obligations.PartnersFollowHeads
  intro s hruns
  constructor
  · intro pl ws t hgood hpartner hfresh hunlost b bnd tol next n diff u
    have hhead : s.TakesHead pl ws t := ⟨rfl, hgood, hpartner, hfresh, hunlost⟩
    have hact {v : State} (hv : headOp pl ws s = v) : exec (.head pl ws) s = .next (finish s v) :=
      exec_of_gated (f := headOp pl ws) hruns rfl hv
    refine ⟨fun hnext => hact (headOp_next hhead hnext), ?_⟩
    intro hnow hstarted hearly hnew c i hdigests
    have hjudged := headOp_now hhead hnow hstarted hearly
    have hreason {r : Nat} (hr : t.headReason ws (some (c, i)) = r) : t.headReason ws (t.digestsOf t.engFrameNum) = r := by
      rw [show t.digestsOf t.engFrameNum = some (c, i) from hdigests, hr]
    constructor
    · intro hc hi hnear v
      have hagrees := hjudged.trans (headJudge_agrees hnew (hreason ((State.headReason_inputs hc).trans
        ((if_neg fun hne => hne hi).trans (if_neg (Nat.not_lt.mpr hnear))))))
      exact ⟨fun hmirror => hact (hagrees.trans (if_pos hmirror)), fun hother => hact (hagrees.trans (if_neg hother))⟩
    · intro off
      have hoff {r : Nat} (hr : t.headReason ws (some (c, i)) = r) (hr0 : r ≠ 0) : exec (.head pl ws) s = .next (off r) :=
        hact (hjudged.trans (headJudge_differs hnew (hreason hr) hr0))
      refine ⟨fun hc => hoff (State.headReason_config hc) (by decide), fun hc hi => hoff ?_ (by decide),
        fun hc hi hfar => hoff ?_ (by decide)⟩
      · exact (State.headReason_inputs hc).trans (if_pos hi)
      · exact (State.headReason_inputs hc).trans ((if_neg fun hne => hne hi).trans (if_pos hfar))
  · intro w n hon hpartner hstarted hnew hpast t m failed take u
    have hmiss := headMissOp_lacks (s := s) (w := w) ⟨rfl, hon, hpartner, hstarted, hnew, hpast⟩
    have htake : take = takeLeft (t.pairNum n) w.twin.take := by
      have hkept : t.twin.take = w.twin.take := w.countsMiss_take
      simp only [take, hkept]
      generalize w.twin.take = x
      cases x <;> rfl
    have hu : w.missesHead (takeLeft (w.countsMiss.pairNum w.engFrameNum) w.twin.take) = u :=
      congrArg w.missesHead htake.symm
    rw [hu] at hmiss
    have hact {v : State} (hv : headMissOp s = v) : exec .headMiss s = .next (finish s v) := exec_of_gated hruns rfl hv
    exact ⟨fun hmirror => hact (hmiss.trans (if_pos (beq_iff_eq.mpr hmirror))),
      fun hother => hact (hmiss.trans (if_neg (fun h => hother (beq_iff_eq.mp h))))⟩

end Sys2Proof.Machine
end


section
/-!
PROOFS. The frame state record and its ACK (R373 to R376).
-/
namespace Sys2Proof.Machine

/-! ### Chunks of a record -/

section
variable {s t : State} {pl n : Nat} {ws : List Word} {body : List Byte}

/-- The bytes of a record that arrives, by offset, once a chunk is placed at its own; `old`: those that came before (R374). -/
def chunkPlaced (ws : List Word) (body : List Byte) (old : AMap Nat) : AMap Nat :=
  body.zipIdx.foldl (fun m y => amSet (fun _ => 256) m ((wordAt ws 3).toNat + y.2) y.1.toNat) old

/-- The size that a record's header names (R374). -/
def recordSize (got : AMap Nat) : Nat := (List.range 4).foldl (fun v k => v * 256 + amGet (fun _ => 256) got (8 + k) % 256) 0

/-- Whether a record is complete: its size is known, and every byte up to it has come (R374). -/
def recordWhole (got : AMap Nat) : Bool :=
  ((List.range 4).all fun k => amGet (fun _ => 256) got (8 + k) != 256) && decide (got.length = recordSize got) &&
    ((got.getLast?.map (·.1)) == some (recordSize got - 1))

/-- What has come of the record of frame `n`. -/
def State.recordOf (t : State) (n : Nat) : AMap Nat := ((t.twin.recIn.find? fun r => r.1 == n).map (·.2)).getD []

/-- The records that arrive beside that of frame `n`: of the frames in progress alone. -/
def State.recordsBeside (t : State) (n : Nat) : List (Nat × AMap Nat) :=
  t.twin.recIn.filter fun r => r.1 != n && (r.1 == t.engFrameNum || r.1 == t.frameNum)

/-- A chunk of the record of frame `n`, which is in progress and has no complete record yet, reaches a partner; `t`: its frame is taken
(R374). -/
structure State.Gathers (s : State) (pl : Nat) (ws : List Word) (body : List Byte) (n : Nat) (t : State) : Prop where
  taken : s.TakesPunty pl 3 0 ws body.length t
  partner : t.isPartner = true
  frame : n = t.ownNum (wordAt ws 2).toNat
  current : n = t.engFrameNum ∨ n = t.frameNum
  incomplete : (t.twin.recDone.any fun r => r.1 == n) = false

/-- The chunk is placed, and the record is complete with it or is not. -/
theorem recOp_gathers (h : s.Gathers pl ws body n t) :
    let got := chunkPlaced ws body (t.recordOf n)
    recOp pl ws body s = if recordWhole got then
        let i := t.detect P.TWIN 7 false
        let u := { i.2 with twin := { i.2.twin with recIn := t.recordsBeside n } }
        if i.1 then u
        else
          let v := (u.wr A.TWIN_REC_SIZE (w32 (recordSize got))).wr A.TWIN_REC_US (w32 (min 65535 ((u.nowNs - u.time.boundary) / 1000)))
          { v with twin := { v.twin with recDone := v.twin.recDone ++ [(n, got.map fun x => BitVec.ofNat 8 x.2)] } }
      else { t with twin := { t.twin with recIn := t.recordsBeside n ++ [(n, got)] } } := by
  obtain ⟨htaken, hpartner, rfl, hcurrent, hincomplete⟩ := h
  intro got
  unfold recOp
  rw [htaken.take]
  refine (if_neg (by rw [hpartner]; exact Bool.false_ne_true)).trans (if_neg ?_)
  rintro (⟨heng, hframe⟩ | hdone)
  · exact hcurrent.elim heng hframe
  · exact Bool.false_ne_true (hincomplete.symm.trans hdone)

/-- An incomplete record waits for its other chunks. -/
theorem recOp_part (h : s.Gathers pl ws body n t) (hpart : recordWhole (chunkPlaced ws body (t.recordOf n)) = false) :
    recOp pl ws body s =
      { t with twin := { t.twin with recIn := t.recordsBeside n ++ [(n, chunkPlaced ws body (t.recordOf n))] } } :=
  (recOp_gathers h).trans (if_neg (by rw [hpart]; decide))

/-- A complete record, with no loss injected, waits for the boundary, and its size and time are shown (R374). -/
theorem recOp_whole (h : s.Gathers pl ws body n t) (hwhole : recordWhole (chunkPlaced ws body (t.recordOf n)) = true)
    (hunlost : t.injArmed P.TWIN 7 = false) :
    let got := chunkPlaced ws body (t.recordOf n)
    let u := ({ t with twin := { t.twin with recIn := t.recordsBeside n } } : State).wr A.TWIN_REC_SIZE (w32 (recordSize got))
    let v := u.wr A.TWIN_REC_US (w32 (min 65535 ((t.nowNs - t.time.boundary) / 1000)))
    recOp pl ws body s =
      { v with twin := { v.twin with recDone := v.twin.recDone ++ [(n, got.map fun x => BitVec.ofNat 8 x.2)] } } := by
  intro got u v
  refine (recOp_gathers h).trans ((if_pos hwhole).trans ?_)
  rw [State.detect_unarmed hunlost]
  exact if_neg Bool.false_ne_true

end

/-! ### Records missed -/

section
variable {s : State} {n : Nat}

/-- The record of the engine frame before has not come to a partner (R375). -/
structure State.LacksRecord (s : State) (n : Nat) : Prop where
  before : n = (s.engFrameNum + 2 ^ 32 - 1) % 2 ^ 32
  enabled : s.twinOn = true
  partner : s.isPartner = true
  started : 3 ≤ s.time.bnds
  incomplete : (s.twin.recDone.any fun r => r.1 == n) = false
  unknown : ∀ f, s.twinFrame n = some f → f.recd = none

/-- Whether the HEAD of a frame was accepted (R376). -/
def State.headKnown (s : State) (n : Nat) : Bool := ((s.twinFrame n).map (·.head)).getD false

/-- The record of frame `n`, whose HEAD was accepted or not, is missing: the frame is not clean, and a full record is called for (R375). -/
def State.missesRecord (t : State) (n : Nat) (head : Bool) : State :=
  let u := notClean (noteFrame ⟨n, head, some false⟩ t)
  { u with twin := { u.twin with full := false, nextSeg := some 0, recIn := u.twin.recIn.filter fun r => r.1 != n } }

/-- A missing record is counted and reported (R375). -/
theorem recMissOp_lacks (h : s.LacksRecord n) :
    let t := ((s.inc A.TWIN_REC_MISS).raise P.TWIN 7).wr A.TWIN_REC_US 65535
    recMissOp s = t.missesRecord n (t.headKnown n) := by
  obtain ⟨hn, hon, hpartner, hstarted, hincomplete, hunknown⟩ := h
  intro t
  unfold recMissOp
  rw [← hn]
  refine (if_neg ?_).trans (congrArg (t.missesRecord n) ?_)
  · rw [hon, hpartner, hincomplete, decide_eq_false (Nat.not_lt.mpr hstarted)]
    cases hframe : s.twinFrame n with
    | none => exact Bool.false_ne_true
    | some f =>
      dsimp only
      rw [hunknown f hframe]
      exact Bool.false_ne_true
  · unfold State.headKnown
    generalize State.twinFrame _ _ = frame
    cases frame <;> rfl

end

/-! ### Records applied -/

section
variable {s t : State}

/-- At step 1 of the boundary table the complete records are taken up, and a partner applies them (R375). -/
theorem recordApplyOp_holding (hholding : s.sched.holding = true) :
    let t : State := { s with twin := { s.twin with recDone := [] } }
    recordApplyOp s = if t.isPartner then s.twin.recDone.foldl recordTake t else t := by
  intro t
  exact if_neg (by rw [hholding]; decide)

/-- A number of `k` bytes in a record, from byte `i`. -/
def recordNat (bs : List Byte) (i k : Nat) : Nat := leNat ((bs.drop i).take k).reverse

/-- The segment of the full state expected after a record that carries `seg` (R374). -/
def segmentAfter (expected : Option Nat) (seg : Nat) : Option Nat :=
  if seg = 0 then some 1 else if expected = some seg then some (seg + 1) else some 0

/-- Whether a partner holds the full state with a record that carries `seg` (R374). -/
def State.fullAfter (t : State) (seg : Nat) : Bool :=
  t.twin.full || (seg == 7 && segmentAfter t.twin.nextSeg seg == some 8)

/-- The loop entries of a record are in place: records alone give them. -/
def State.loopApplied (t : State) (bs : List Byte) : State := (recordParts bs).2.2.2.1.foldl (fun t b => applyLoop b t) t

/-- Whether the partner's state after frame `n` is that of the record (R375). -/
def State.recordAgrees (t : State) (n : Nat) (bs : List Byte) : Bool :=
  let u := t.loopApplied bs
  let old := ((u.twin.copies.find? fun x => x.1 == n).map (·.2)).getD TwinCopy.empty
  let own := if t.twin.full then old else old.patch (recordParts bs)
  decide (({ own with loop := u.twinCopy.loop }).digest.toNat = recordNat bs 16 8)

/-- A state block's entry replaces the partner's own. -/
def applyBlock (t : State) (b : List Byte) : State :=
  match t.blockAddr (leNat (b.take 4).reverse) with
  | some a => t.memWrite a (b.drop 4)
  | none => t

/-- The other entries of a record are in place: `blocks` places those of the state blocks (R375). -/
def State.entriesApplied (u : State) (blocks : State → List Byte → State) (bs : List Byte) : State :=
  let p := recordParts bs
  let w := (p.1.foldl (fun t b => applySlot b t) u).setFlags (leNat (p.2.1.take 8).reverse)
  p.2.2.2.2.foldl (fun t b => applyCur b t)
    (p.2.2.1.foldl blocks { w with sched := { w.sched with tcFired := leNat (p.2.1.drop 8).reverse } })

/-- A record is in place: a partner that held the full state and agrees keeps its own, and another takes the record's, `all` (R375). -/
def State.recordPlaced (t : State) (n : Nat) (bs : List Byte) (all : State) : State :=
  let seg := recordNat bs 12 4
  let z := if t.twin.full && t.recordAgrees n bs then t.loopApplied bs else all
  { z with twin := { z.twin with
      full := t.fullAfter seg, nextSeg := if t.fullAfter seg then none else segmentAfter t.twin.nextSeg seg } }

/-- What a record tells of frame `n`, whose HEAD was accepted or not, is noted, and a clean frame is counted (R375, R376). -/
def State.recordNoted (x : State) (n : Nat) (full same head : Bool) : State :=
  let y := noteFrame ⟨n, head, some (!full || same)⟩ x
  if full && head && same then y.add A.TWIN_STAT F.TWIN_STAT_CLEAN_CNT 1 else notClean y

/-- What follows from a record: a divergence, the way to MIRROR, or a request for authority (R375 to R377, R380). -/
def State.recordFollowed (v : State) (full same clean : Bool) : State :=
  if !(!full || same) then
    let w := diverge 4 v
    { w with twin := { w.twin with full := false, nextSeg := some 0 } }
  else if v.twinSt = 4 && clean then twinEnter 5 v
  else if v.twinSt = 6 && decide (8 ≤ v.get A.TWIN_STAT F.TWIN_STAT_CLEAN_CNT) then twinEnter 5 v
  else if clean then takeAuto v
  else v

/-- What a partner takes from a record that is in place. -/
def State.recordTaken (x : State) (n : Nat) (full same head : Bool) : State :=
  (x.recordNoted n full same head).recordFollowed full same (full && head && same)

/-- A record is put in place, and what it tells is taken. -/
theorem recordTake_eq (t : State) (n : Nat) (bs : List Byte) :
    let x := t.recordPlaced n bs ((t.loopApplied bs).entriesApplied applyBlock bs)
    recordTake t (n, bs) = x.recordTaken n (t.fullAfter (recordNat bs 12 4)) (t.recordAgrees n bs) (x.headKnown n) := by
  intro x
  have htaken {all : State} {head : Bool} (hall : all = (t.loopApplied bs).entriesApplied applyBlock bs)
      (hhead : head = (t.recordPlaced n bs all).headKnown n) :
      (t.recordPlaced n bs all).recordTaken n (t.fullAfter (recordNat bs 12 4)) (t.recordAgrees n bs) head =
        x.recordTaken n (t.fullAfter (recordNat bs 12 4)) (t.recordAgrees n bs) (x.headKnown n) := by
    subst hall hhead
    rfl
  refine htaken (congrArg (fun blocks => (t.loopApplied bs).entriesApplied blocks bs) (funext fun u => funext fun b => ?_)) ?_
  · unfold applyBlock
    generalize u.blockAddr _ = a
    cases a <;> rfl
  · generalize hframe : State.twinFrame _ _ = frame
    refine Eq.trans ?_ (congrArg (fun f : Option TwinFrame => (f.map (·.head)).getD false) hframe.symm)
    cases frame <;> rfl

end

/-! ### What follows from a record -/

section
variable {v : State} {full same clean : Bool}

/-- A state that differs makes a partner that holds the full state DIVERGED, and a full record is called for (R375). -/
theorem State.recordFollowed_differs (hfull : full = true) (hdiffers : same = false) :
    let w := diverge 4 v
    v.recordFollowed full same clean = { w with twin := { w.twin with full := false, nextSeg := some 0 } } :=
  if_pos (by rw [hfull, hdiffers]; rfl)

/-- Otherwise a JOINING partner is in MIRROR after a clean frame, a DIVERGED one after eight, and authority may be asked for (R375 to R377,
R380). -/
theorem State.recordFollowed_agrees (hagrees : full = false ∨ same = true) : v.recordFollowed full same clean =
    if v.twinSt = 4 && clean then twinEnter 5 v
    else if v.twinSt = 6 && decide (8 ≤ v.get A.TWIN_STAT F.TWIN_STAT_CLEAN_CNT) then twinEnter 5 v
    else if clean then takeAuto v
    else v :=
  if_neg (by rcases hagrees with h | h <;> rw [h] <;> simp)

end

/-! ### ACKs -/

section
variable {s t : State} {pl : Nat} {ws : List Word}

/-- An ACK gives the home device the counters of its partner, and the frame whose record the partner has (R373, R374). -/
def State.acknowledged (t : State) (ws : List Word) : State :=
  let rebase := puntyBody ws 65 == 1
  { t with twin := { t.twin with
      ack := some ((List.range 64).map (puntyBody ws))
      based := if rebase then t.twin.based else (t.ownNum (wordAt ws 2).toNat + 2 ^ 32 - 1) % 2 ^ 32
      wantRebase := t.twin.wantRebase || (rebase && t.twin.seg.isNone) } }

/-- A home device takes an ACK, and is HOMED while its partner is in MIRROR (R373, R377). -/
theorem ackOp_home (h : s.TakesPunty pl 4 264 ws 0 t) (hhome : t.twinSt = 2 ∨ t.twinSt = 3) :
    let u := t.acknowledged ws
    ackOp pl ws s = if peerState ws = 5 ∧ t.twinSt = 2 then twinEnter 3 u
      else if peerState ws ≠ 5 ∧ t.twinSt = 3 then twinEnter 2 u else u := by
  intro u
  unfold ackOp
  rw [h.take]
  exact if_neg (by rw [State.holdsAuthority_iff.mpr hhome]; exact Bool.false_ne_true)

end

/-- Settles O54: chunks by `recOp_part` and `recOp_whole`, a missing record by `recMissOp_lacks`, the records applied by `recordTake_eq`, and an
ACK by `ackOp_home`. -/
theorem recordsAndAcksAreTaken : Obligations.RecordsAndAcksAreTaken := by
  unfold Obligations.RecordsAndAcksAreTaken
  intro s hruns
  have hact {c : Instr} {g : State → State} {u : State} (hc : exec c s = gated g s) (hu : g s = u) :
      exec c s = .next (finish s u) := exec_of_gated hruns hc hu
  refine ⟨?_, ?_, ?_, ?_, ?_⟩
  · intro pl ws body t hgood hpartner n hcurrent hincomplete off others old got size known whole
    have hgathers : s.Gathers pl ws body n t := ⟨⟨rfl, hgood⟩, hpartner, rfl, hcurrent, hincomplete⟩
    refine ⟨fun hpart => hact rfl (recOp_part hgathers hpart), fun hwhole hunlost => ?_⟩
    intro u v
    exact hact rfl (recOp_whole hgathers hwhole hunlost)
  · intro n hon hpartner hstarted hincomplete hunknown t head u
    have hmiss := recMissOp_lacks ⟨rfl, hon, hpartner, hstarted, hincomplete, hunknown⟩
    have hhead : head = t.headKnown n := by
      unfold State.headKnown
      simp only [head]
      generalize t.twinFrame n = frame
      cases frame <;> rfl
    exact hact rfl (hmiss.trans (congrArg (t.missesRecord n) hhead.symm))
  · intro hholding t
    have happly := recordApplyOp_holding hholding
    refine ⟨fun hother => hact rfl (happly.trans (if_neg ?_)), fun hpartner => hact rfl (happly.trans (if_pos hpartner))⟩
    exact ne_true_of_eq_false hother
  · intro t n bs be p was seg next full u old own same w all z x head clean y v
    have hall : all = u.entriesApplied applyBlock bs := by
      refine congrArg (fun blocks => u.entriesApplied blocks bs) (funext fun a => funext fun c => ?_)
      unfold applyBlock
      generalize a.blockAddr _ = k
      cases k <;> rfl
    have hhead : head = x.headKnown n := by
      unfold State.headKnown
      simp only [head]
      generalize x.twinFrame n = frame
      cases frame <;> rfl
    have hx : x = t.recordPlaced n bs ((t.loopApplied bs).entriesApplied applyBlock bs) := congrArg (t.recordPlaced n bs) hall
    have htaken : recordTake t (n, bs) = v.recordFollowed full same clean := by
      refine (recordTake_eq t n bs).trans ?_
      rw [← hx, ← hhead]
      rfl
    refine ⟨fun hfull hdiffers => htaken.trans (State.recordFollowed_differs hfull hdiffers), fun hagrees => ?_⟩
    have hfollowed := htaken.trans (State.recordFollowed_agrees hagrees)
    refine ⟨fun hjoining hclean => hfollowed.trans (if_pos ?_),
      fun hdiverged hmany => hfollowed.trans ((if_neg ?_).trans (if_pos ?_)),
      fun hjoining hdiverged => hfollowed.trans ((if_neg ?_).trans (if_neg ?_))⟩
    all_goals
      rw [Bool.and_eq_true, decide_eq_true_eq]
    · exact ⟨hjoining, hclean⟩
    · rw [hdiverged]
      exact fun h => absurd h.1 (by decide)
    · rw [decide_eq_true_eq]
      exact ⟨hdiverged, hmany⟩
    · exact fun h => Bool.false_ne_true ((hjoining h.1).symm.trans h.2)
    · rw [decide_eq_true_eq]
      exact fun h => absurd (hdiverged h.1) (Nat.not_lt.mpr h.2)
  · intro pl ws t hgood hhome n rebase u st
    have hack {x : State} (hx : ackOp pl ws s = x) : exec (.ack pl ws) s = .next (finish s x) := hact rfl hx
    have htaken := ackOp_home ⟨rfl, hgood⟩ hhome
    refine ⟨fun hmirror hst => hack (htaken.trans (if_pos ⟨hmirror, hst⟩)),
      fun hmirror hst => hack (htaken.trans ((if_neg ?_).trans (if_neg fun h => h.1 hmirror))),
      fun hother hst => hack (htaken.trans ((if_neg fun h => hother h.1).trans (if_pos ⟨hother, hst⟩))),
      fun hother hst => hack (htaken.trans ((if_neg fun h => hother h.1).trans (if_neg ?_)))⟩
    · rintro ⟨-, hhome2⟩
      exact absurd (hst.symm.trans hhome2) (by decide)
    · rintro ⟨-, hhome3⟩
      exact absurd (hst.symm.trans hhome3) (by decide)

end Sys2Proof.Machine
end


section
/-!
PROOFS. How authority changes in the pair (R378, R380, R381, R384).
-/
namespace Sys2Proof.Machine

/-! ### What taking a state leaves of a take-back -/

/-- Forgetting what was sent to a set leaves the twin block. -/
@[simp] theorem forgetMembers_twin (i : Nat) (s : State) : (forgetMembers i s).twin = s.twin := by
  unfold forgetMembers
  cases s.tuiper.sets.find? fun d => d.id == i with
  | none => rfl
  | some d =>
    dsimp only
    refine foldl_invariant (fun t : State => t.twin = s.twin) _ (fun t f h => ?_) d.members s rfl
    exact h

/-- Looking at the sets anew leaves the twin block. -/
@[simp] theorem fallbackSync_twin (s : State) : (fallbackSync s).twin = s.twin :=
  foldl_invariant (fun t : State => t.twin = s.twin) _ (fun t i h => (forgetMembers_twin i t).trans h) _ s rfl

/-- Following the set states of its own leaves the twin block. -/
@[simp] theorem ownSets_twin (s : State) : (ownSets s).twin = s.twin := by
  unfold ownSets
  split
  · rfl
  · exact fallbackSync_twin s

/-- Reporting the page's fault leaves the twin block. -/
@[simp] theorem twinFault_twin (s : State) : (twinFault s).twin = s.twin := by
  unfold twinFault
  exact State.setFault_twin s _ _

/-- A choice between two states that both leave the twin block leaves it. -/
theorem State.twin_ite {c : Prop} [Decidable c] {a b s : State} (ha : a.twin = s.twin) (hb : b.twin = s.twin) :
    (if c then a else b).twin = s.twin := by
  split
  · exact ha
  · exact hb

/-- A device shows the state of R377 that it takes. -/
def showState (st : Nat) (s : State) : State :=
  let was := s.twinSt
  let partner := decide (4 ≤ st) && decide (st ≤ 6)
  let s := (s.put A.TWIN_STAT F.TWIN_STAT_STATE st).put A.TWIN_STAT F.TWIN_STAT_ROLE partner.toNat
  let s := s.raiseIf (st == 5 && was != 5) P.TWIN 5
  let s := if st = 6 ∧ was ≠ 6 then (s.inc A.TWIN_DIVERGE_CNT).raise P.TWIN 4 else s
  if st = 3 then s.put A.TWIN_STAT F.TWIN_STAT_FAILOVER 0 else s

/-- Only a partner keeps what it knows of its peer's frames. -/
def forgetFrames (st : Nat) (s : State) : State :=
  if decide (4 ≤ st) && decide (st ≤ 6) then s
  else ownSets { s.put A.TWIN_STAT F.TWIN_STAT_CLEAN_CNT 0 with
         twin := { s.twin with usedHead := none, nextHead := none, miss := 0, frames := [], takeover := false, takeDue := false } }

/-- What a state begins with: a full record awaited, no take-back asked again, or a search for the peer. -/
def beginState (st : Nat) (s : State) : State :=
  let s := if st = 4 then
      { s.put A.TWIN_STAT F.TWIN_STAT_CLEAN_CNT 0 with twin := { s.twin with full := false, nextSeg := some 0, lastHead := none } }
    else s
  let s := if st = 5 then s else { s with twin := { s.twin with again := false } }
  if st = 1 then { s with twin := { s.twin with helloAt := s.nowNs, seekAt := s.nowNs } } else s

/-- The parts of taking a state other than OFF. -/
theorem twinEnter_eq {st : Nat} (hst : st ≠ 0) (s : State) :
    twinEnter st s = twinFault (beginState st (forgetFrames st (showState st s))) := by
  unfold twinEnter
  exact congrArg twinFault (if_neg hst)

/-- Showing a state leaves the twin block. -/
theorem showState_twin (st : Nat) (s : State) : (showState st s).twin = s.twin := by
  unfold showState
  extract_lets was partner shown announced counted
  have hshown : shown.twin = s.twin := (State.put_twin _ _ _ _).trans (State.put_twin s _ _ _)
  have hannounced : announced.twin = s.twin := (State.raiseIf_twin shown _ _ _).trans hshown
  have hcounted : counted.twin = s.twin := State.twin_ite (by rw [State.raise_twin, State.inc_twin, hannounced]) hannounced
  exact State.twin_ite ((State.put_twin _ _ _ _).trans hcounted) hcounted

/-- What is known of the peer's frames is no take-back. -/
theorem forgetFrames_take (st : Nat) (s : State) : (forgetFrames st s).twin.take = s.twin.take := by
  unfold forgetFrames
  split
  · rfl
  · rw [ownSets_twin]

/-- What a state begins with is no take-back. -/
theorem beginState_take (st : Nat) (s : State) : (beginState st s).twin.take = s.twin.take := by
  unfold beginState
  simp only [apply_ite State.twin, apply_ite TwinSt.take, ite_self]

/-- Taking a state leaves the take-back that is asked. -/
theorem twinEnter_take {st : Nat} (hst : st ≠ 0) (s : State) : (twinEnter st s).twin.take = s.twin.take := by
  rw [twinEnter_eq hst, twinFault_twin, beginState_take, forgetFrames_take, showState_twin]

/-! ### Takeover -/

section
variable {s t : State} {r : Req} {pl n : Nat} {ws : List Word}

/-- A partner that is due takes authority, and an update in progress follows (R378, R425). -/
theorem takeoverCmdOp_due (hon : s.twinOn = true) (hpartner : s.isPartner = true) (hdue : s.twin.takeDue = true) :
    takeoverCmdOp s = updateTwin (twinEnter 2
      (((s.inc A.TWIN_TAKEOVER_CNT).raise P.TWIN 2).put A.TWIN_STAT F.TWIN_STAT_FAILOVER 1)) := by
  refine (if_pos (by rw [hon, hpartner, hdue]; rfl)).trans (congrArg updateTwin (if_neg ?_))
  rw [hon, hpartner, hdue]
  decide

/-! ### Commands of TWIN.CMD -/

/-- A write of CMD with no injection armed is the command that OP names (R384). -/
theorem twinCmd_op (hi : s.injArmed P.TWIN 31 = false) :
    twinCmd (w32 (1 * 2 ^ 28)) s = cmdTake s ∧ twinCmd (w32 (2 * 2 ^ 28)) s = cmdYield s ∧
      twinCmd (w32 (3 * 2 ^ 28)) s = cmdRejoin s ∧ twinCmd (w32 (4 * 2 ^ 28)) s = cmdClearFailover s := by
  have hunarmed : ¬ s.injArmed P.TWIN 31 = true := by rw [hi]; decide
  exact ⟨if_neg hunarmed, if_neg hunarmed, if_neg hunarmed, if_neg hunarmed⟩

/-- A command of TWIN.CMD by its requester (R384). -/
theorem exec_twinCmd {c : Instr} {v : Word} {u : State} (h : s.reaches r P.TWIN) (hc : exec c s = gated (regWrite r P.TWIN 0x094 v) s)
    (hu : twinCmd v (s.arrive r P.TWIN) = u) : exec c s = .next (finish s (u.reply r .done)) := by
  refine hc.trans (gated_of ((regWrite_acts h 0x094 (by decide) (by decide) v (d := ⟨0x094, 0, 1, .single, [⟨31, 28, .wo, 0⟩]⟩) rfl rfl
    (by decide) rfl rfl).trans ?_))
  rw [hu]

/-- TAKE is for a side A partner in MIRROR (R380). -/
theorem cmdTake_eq (s : State) : cmdTake s = if s.twinSt = 5 ∧ s.side = 0 then takeSend s else twinReject s :=
  ite_of_iff (by rw [Bool.and_eq_true, beq_iff_eq, beq_iff_eq])

/-- YIELD is for a HOMED device (R380). -/
theorem cmdYield_eq (s : State) : cmdYield s = if s.twinSt = 3 then takeSend s else twinReject s :=
  ite_of_iff beq_iff_eq

/-- REJOIN is for a DIVERGED partner (R384). -/
theorem cmdRejoin_eq (s : State) : cmdRejoin s =
    if s.twinSt = 6 then { s with twin := { s.twin with full := false, nextSeg := some 0 } } else twinReject s :=
  ite_of_iff beq_iff_eq

/-- CLEAR_FAILOVER is for a device whose FAILOVER is set and whose peer is not seen (R381). -/
theorem cmdClearFailover_eq (s : State) : cmdClearFailover s =
    if s.get A.TWIN_STAT F.TWIN_STAT_FAILOVER = 1 ∧ s.peerSeen = false then twinFault (s.put A.TWIN_STAT F.TWIN_STAT_FAILOVER 0)
    else twinReject s :=
  ite_of_iff (by rw [Bool.not_eq_true'])

/-! ### Take-back -/

/-- A device that may give authority up, or take it, answers TAKE (R380). -/
theorem takeMsgOp_answers (h : s.TakesPunty pl 5 0 ws 0 t)
    (hmay : t.twinSt = 5 ∨ ((t.twinSt = 2 ∨ t.twinSt = 3) ∧ peerState ws = 5)) :
    takeMsgOp pl ws s = puntyAll (t.puntyHeader 6 0 (wordAt ws 3).toNat 0)
      { t with twin := { t.twin with take := some ((wordAt ws 3).toNat, true) } } := by
  unfold takeMsgOp
  rw [h.take]
  refine (if_neg Bool.false_ne_true).trans (if_pos ?_)
  rw [Bool.or_eq_true, Bool.and_eq_true, State.holdsAuthority_iff, beq_iff_eq, beq_iff_eq]
  exact hmay.symm

/-- TAKE_OK answers the take-back that is asked where it names its frame (R380). -/
theorem takeOkOp_asked (h : s.TakesPunty pl 6 0 ws 0 t) (htake : t.twin.take = some (n, false)) :
    takeOkOp pl ws s = if (wordAt ws 2).toNat = n then { t with twin := { t.twin with take := some (n, true) } } else t := by
  unfold takeOkOp
  rw [h.take]
  refine (if_neg Bool.false_ne_true).trans ?_
  dsimp only
  rw [htake]

/-- The roles of the pair are exchanged: a partner is the HOMED device, and a home device a partner in MIRROR (R380). -/
def State.rolesChanged (u : State) : State :=
  if u.isPartner then twinEnter 3 u
  else
    let v := twinEnter 5 u
    notClean { v with twin := { v.twin with full := true, nextSeg := none, headSent := none, seg := none } }

/-- Exchanging roles leaves no take-back where none is asked. -/
theorem State.rolesChanged_take {u : State} (hnone : u.twin.take = none) : u.rolesChanged.twin.take = none := by
  unfold State.rolesChanged
  split
  · exact (twinEnter_take (by decide) u).trans hnone
  · exact (twinEnter_take (by decide) u).trans hnone

/-- At boundary T + 1 of an answered take-back the roles change, and an update in progress follows (R380, R425). -/
theorem takebackCmdOp_due {u : State} (hon : s.twinOn = true) (htake : s.twin.take = some (n, true))
    (hframe : s.pairNum s.frameNum = (n + 1) % 2 ^ 32)
    (hu : u = (({ s with twin := { s.twin with take := none } } : State).inc A.TWIN_TAKEBACK_CNT).raise P.TWIN 3) :
    takebackCmdOp s = updateTwin u.rolesChanged := by
  have hback : takebackOp s = u.rolesChanged := by
    subst hu
    unfold takebackOp
    rw [htake]
    exact if_pos (by rw [hon, hframe, beq_self_eq_true]; rfl)
  have hnone : u.twin.take = none := by rw [hu, State.raise_twin, State.inc_twin]
  unfold takebackCmdOp
  rw [hback]
  exact if_neg (by rw [State.rolesChanged_take hnone, htake]; exact (Option.some_ne_none _).symm)

end

/-- Settles O55: a takeover by `takeoverCmdOp_due`, commands by `exec_twinCmd` and their states, TAKE and its answer by `takeMsgOp_answers` and
`takeOkOp_asked`, and the change of roles by `takebackCmdOp_due`. -/
theorem authorityChanges : Obligations.AuthorityChanges := by
  unfold Obligations.AuthorityChanges
  intro s
  have hact {c : Instr} {g : State → State} {u : State} (hruns : s.runs) (hc : exec c s = gated g s) (hu : g s = u) :
      exec c s = .next (finish s u) := exec_of_gated hruns hc hu
  refine ⟨fun hruns hon hpartner hdue => hact hruns rfl (takeoverCmdOp_due hon hpartner hdue), ?_, ?_, ?_⟩
  · intro r hobeys a t u asks no
    obtain ⟨hreach, hguard⟩ := hobeys
    obtain ⟨htake, hyield, hrejoin, hclear⟩ := twinCmd_op hguard
    have hcmd {c : Instr} {v : Word} {x : State} (hc : exec c s = gated (regWrite r P.TWIN 0x094 v) s) (hx : twinCmd v a = x) :
        exec c s = .next (finish s (x.reply r .done)) := exec_twinCmd hreach hc hx
    refine ⟨fun hst hside => ?_, fun hother => ?_, fun hst => ?_, fun hother => ?_, fun hst => ?_, fun hother => ?_,
      fun hfailover hlost => ?_, fun hother => ?_⟩
    · exact hcmd rfl (htake.trans ((cmdTake_eq a).trans (if_pos ⟨hst, hside⟩)))
    · exact hcmd rfl (htake.trans ((cmdTake_eq a).trans (if_neg fun h => hother.elim (fun hne => hne h.1) (fun hne => hne h.2))))
    · exact hcmd rfl (hyield.trans ((cmdYield_eq a).trans (if_pos hst)))
    · exact hcmd rfl (hyield.trans ((cmdYield_eq a).trans (if_neg hother)))
    · exact hcmd rfl (hrejoin.trans ((cmdRejoin_eq a).trans (if_pos hst)))
    · exact hcmd rfl (hrejoin.trans ((cmdRejoin_eq a).trans (if_neg hother)))
    · exact hcmd rfl (hclear.trans ((cmdClearFailover_eq a).trans (if_pos ⟨hfailover, hlost⟩)))
    · refine hcmd rfl (hclear.trans ((cmdClearFailover_eq a).trans (if_neg ?_)))
      rintro ⟨hfailover, hlost⟩
      exact hother.elim (fun h => h hfailover) (fun h => Bool.false_ne_true (hlost.symm.trans h))
  · intro hruns pl ws t
    constructor
    · intro hgood n hmay u
      exact hact hruns rfl (takeMsgOp_answers ⟨rfl, hgood⟩ hmay)
    · intro hgood n htake
      have hasked := takeOkOp_asked ⟨rfl, hgood⟩ htake
      exact ⟨fun hsame => hact hruns rfl (hasked.trans (if_pos hsame)), fun hother => hact hruns rfl (hasked.trans (if_neg hother))⟩
  · intro hruns hon n htake hframe t u
    have hback := takebackCmdOp_due hon htake hframe (u := u) rfl
    constructor
    · intro hpartner
      exact hact hruns rfl (hback.trans (congrArg updateTwin (if_pos hpartner)))
    · intro hhome v
      exact hact hruns rfl (hback.trans (congrArg updateTwin (if_neg (ne_true_of_eq_false hhome))))

end Sys2Proof.Machine
end

section
/-!
PROOFS. A device that does not run: in reset, frozen or shut down it takes no command of its blocks (R396, R409, R449).
-/
namespace Sys2Proof.Machine

/-- `ungated` names the commands that always act; every other one acts while the device runs (log entry 9). -/
theorem exec_gated_or_always (c : Instr) (s : State) : ∃ f, exec c s = bif c.ungated then always f s else gated f s := by
  cases c <;> exact ⟨_, rfl⟩

/-- On a device that does not run, a command that acts only while it runs does nothing but settle. -/
theorem gated_stopped {s : State} (h : ¬ s.runs) (f : State → State) : gated f s = .next (finish s s) := gated_of (if_neg h)

/-- Settles O6: a command that `ungated` does not name is gated, and `gated_stopped` says what it then does. -/
theorem aStoppedDeviceTakesNoCommand : Obligations.AStoppedDeviceTakesNoCommand := by
  unfold Obligations.AStoppedDeviceTakesNoCommand
  intro c s hgated hstopped
  obtain ⟨f, hexec⟩ := exec_gated_or_always c s
  rw [hgated] at hexec
  exact hexec.trans (gated_stopped hstopped f)

end Sys2Proof.Machine
end

section
/-!
PROOFS. Lehr: samples of its sensors, the rise hold, the glide of the clocks, ACK_FAIL and RESTORE (R386 to R396, R406).
-/
namespace Sys2Proof.Machine

/-! ### Samples -/

section
variable {s : State} {x : SensorReading}

/-- A state with a sample noted: the reading, when it was taken, and how many samples in a row were good or spread (R386, R387). -/
def State.sampled (s : State) (x : SensorReading) : State :=
  let n := x.sensor
  let j := judgeSample n x.value s
  let t := match x.value with
    | some v => s.put (A.LEHR_SENSOR n) F.LEHR_SENSOR_READ (wrapN 16 v)
    | none => s
  t.setSensor n { t.sensor n with
    lastAt := some t.nowNs, prev := if x.value.isSome then x.value else (t.sensor n).prev, spread := j.2,
    good := min (if j.1 = 0 then (t.sensor n).good + 1 else 0) 16 }

/-- How many samples in a row of a sensor lie at the shut-down level, with the one noted last (R396). -/
def State.hotRun (s : State) (n : Nat) : Nat :=
  if s.level F.LEHR_LEVELS_SHUTDOWN ≤ s.reading n then (s.sensor n).hot + 1 else 0

/-- A sensor's cluster after a sample that fits it was noted (R386, R396). -/
def State.hotNoted (s : State) (n : Nat) : State :=
  clusterUpdate (n / 3) false (s.setSensor n { s.sensor n with hot := min (s.hotRun n) 2 })

/-- What a noted sample `u` does to the clusters, to its sensor and to the die, by its sensor's state before and its reason to fail. -/
def sampleEffect (n reason : Nat) (failed : Bool) (u : State) : State :=
  if failed then clusterUpdate (n / 3) false u
  else if reason ≠ 0 then sensorFail n reason u
  else if 2 ≤ u.hotRun n then thermalShutdown (u.hotNoted n) else u.hotNoted n

theorem sampleEffect_failed {n reason : Nat} {failed : Bool} {u : State} (h : failed = true) :
    sampleEffect n reason failed u = clusterUpdate (n / 3) false u := if_pos h

theorem sampleEffect_misfit {n reason : Nat} {failed : Bool} {u : State} (h : failed = false) (hbad : reason ≠ 0) :
    sampleEffect n reason failed u = sensorFail n reason u := (if_neg (ne_true_of_eq_false h)).trans (if_pos hbad)

theorem sampleEffect_fits {n reason : Nat} {failed : Bool} {u : State} (h : failed = false) (hfits : reason = 0) :
    sampleEffect n reason failed u = if 2 ≤ u.hotRun n then thermalShutdown (u.hotNoted n) else u.hotNoted n :=
  (if_neg (ne_true_of_eq_false h)).trans (if_neg fun hbad => hbad hfits)

/-- An armed injection fails the hottest sensor of a device that runs (R387). -/
def injectFailure (s : State) : State :=
  if s.injArmed P.LEHR 2 ∧ s.power.mode = .run then
    match s.hottestOf (s.validOf (List.range 24)) with
    | some h => sensorFail h.1 5 (s.injTake P.LEHR 2)
    | none => s
  else s

theorem injectFailure_unarmed (h : s.injArmed P.LEHR 2 = false) : injectFailure s = s :=
  if_neg fun hboth => Bool.false_ne_true (h.symm.trans hboth.1)

/-- A die that is shut down takes no injection (R396). -/
theorem injectFailure_shutdown (s : State) : injectFailure (thermalShutdown s) = thermalShutdown s :=
  if_neg fun hboth => PowerMode.noConfusion hboth.2

/-- A sample of the sensor that a calibration holds leaves its reading (R401). -/
theorem sensorSampleOp_held (hn : x.sensor < 24) (hdue : s.sampleDue x.sensor ≤ s.nowNs) (hheld : s.calHeld = some x.sensor) :
    sensorSampleOp x s = s.setSensor x.sensor { s.sensor x.sensor with lastAt := some s.nowNs } := by
  unfold sensorSampleOp
  exact (if_neg (by omega)).trans (if_pos hheld)

/-- Any other sample that is due is noted and has its effect, and an injection may add a failure (R386, R387). -/
theorem sensorSampleOp_taken (hn : x.sensor < 24) (hdue : s.sampleDue x.sensor ≤ s.nowNs) (hheld : s.calHeld ≠ some x.sensor) :
    sensorSampleOp x s =
      injectFailure (sampleEffect x.sensor (judgeSample x.sensor x.value s).1 (s.failed x.sensor) (s.sampled x)) := by
  unfold sensorSampleOp
  exact (if_neg (by omega)).trans (if_neg hheld)

end

/-- SENSOR_SAMPLE, at the time that is reached (R386). -/
theorem exec_sensorSample {s u : State} {x : SensorReading} (hruns : s.runs)
    (hu : sensorSampleOp x (reach (s.sampleDue x.sensor) s) = u) : exec (.sensorSample x) s = .next (finish s u) :=
  exec_of_gated (f := fun t => sensorSampleOp x (reach (t.sampleDue x.sensor) t)) hruns rfl hu

/-! ### The rise hold and the glide -/

section
variable {s : State}

/-- A hold that is over ends the demand of its cluster in RATE mode (R390). -/
theorem riseHoldExpireOp_over {c : Nat} (hrate : s.rateMode = true) (hc : c < 8) (hover : s.holdOver c = true) :
    let t := s.put (A.LEHR_CL_STAT c) F.LEHR_CL_STAT_DEMAND (s.leastDemand c)
    riseHoldExpireOp c s = lehrDepth (clusterReport c (fgetS (t.rd (A.LEHR_CL_TEMP c)) F.LEHR_CL_TEMP_TEMP) t) :=
  if_pos ⟨hrate, hc, hover⟩

/-- The clocks stand where the glide has come to D (R391). -/
theorem clockGlideOp_there (h : s.lehr.glide = s.depth) : clockGlideOp s = s := if_pos (Or.inl h)

/-- The clocks glide by one step towards D where the last step is 10 µs ago (R391). -/
theorem clockGlideOp_steps (hne : s.lehr.glide ≠ s.depth) (hdue : s.lehr.glideAt + 10000 ≤ s.nowNs) : clockGlideOp s =
    { s with lehr := { s.lehr with
      glide := if s.lehr.glide < s.depth then s.lehr.glide + 1 else s.lehr.glide - 1, glideAt := s.nowNs } } :=
  if_neg (not_or.mpr ⟨hne, Nat.not_lt.mpr hdue⟩)

/-- A clock below D glides up. -/
theorem clockGlideOp_up (hlt : s.lehr.glide < s.depth) (hdue : s.lehr.glideAt + 10000 ≤ s.nowNs) :
    clockGlideOp s = { s with lehr := { s.lehr with glide := s.lehr.glide + 1, glideAt := s.nowNs } } := by
  rw [clockGlideOp_steps (Nat.ne_of_lt hlt) hdue, if_pos hlt]

/-- A clock above D glides down. -/
theorem clockGlideOp_down (hlt : s.depth < s.lehr.glide) (hdue : s.lehr.glideAt + 10000 ≤ s.nowNs) :
    clockGlideOp s = { s with lehr := { s.lehr with glide := s.lehr.glide - 1, glideAt := s.nowNs } } := by
  rw [clockGlideOp_steps (Nat.ne_of_gt hlt) hdue, if_neg (Nat.lt_asymm hlt)]

end

/-! ### Commands of LEHR.CMD -/

section
variable {s : State} {r : Req} {n : Nat}

/-- A command of LEHR.CMD by its requester (R406). -/
theorem exec_lehrCmd {c : Instr} {v : Word} {u : State} (h : s.reaches r P.LEHR) (hc : exec c s = gated (regWrite r P.LEHR 0x094 v) s)
    (hu : lehrCmd v (s.arrive r P.LEHR) = u) : exec c s = .next (finish s (u.reply r .done)) := by
  refine hc.trans (gated_of ((regWrite_acts h 0x094 (by decide) (by decide) v rfl rfl (by decide) rfl rfl).trans ?_))
  rw [hu]

/-- OP 1 of CMD with no injection armed is ACK_FAIL (R406). -/
theorem lehrCmd_ackFail (hi : s.injArmed P.LEHR 31 = false) : lehrCmd (w32 (1 * 2 ^ 28)) s = ackFailOp s :=
  if_neg (ne_true_of_eq_false hi)

/-- The fields of RESTORE of sensor `n`. -/
theorem restore_fields (hn : n < 24) : fget (w32 (2 * 2 ^ 28 + n % 32)) F.LEHR_CMD_OP = 2 ∧
    fget (w32 (2 * 2 ^ 28 + n % 32)) F.LEHR_CMD_SENSOR = n := by
  unfold fget w32 F.LEHR_CMD_OP F.LEHR_CMD_SENSOR
  simp only [BitVec.toNat_ofNat]
  omega

/-- OP 2 of CMD with no injection armed is RESTORE of the sensor that SENSOR names (R406). -/
theorem lehrCmd_restore (hn : n < 24) (hi : s.injArmed P.LEHR 31 = false) : lehrCmd (w32 (2 * 2 ^ 28 + n % 32)) s = restoreOp n s := by
  obtain ⟨hop, hsensor⟩ := restore_fields hn
  unfold lehrCmd
  rw [if_neg (ne_true_of_eq_false hi), hop, hsensor]
  rfl

/-- RESTORE takes a failed sensor with 16 good samples back into use (R387). -/
theorem restoreOp_good (hn : n < 24) (hfailed : s.failed n = true) (hgood : 16 ≤ (s.sensor n).good) :
    let v := (s.put (A.LEHR_SENSOR n) F.LEHR_SENSOR_FAILED 0).put A.LEHR_FAILED ⟨n, n⟩ 0
    let w := v.put A.LEHR_STAT F.LEHR_STAT_BLIND ((List.range 8).filter v.blind).length
    restoreOp n s = clusterUpdate (n / 3) false { w with lehr := { w.lehr with unacked := w.lehr.unacked.filter (· != n / 3) } } :=
  if_pos ⟨hn, hfailed, hgood⟩

/-- RESTORE of any other sensor is rejected (R387). -/
theorem restoreOp_rejected (h : s.failed n = false ∨ (s.sensor n).good < 16) : restoreOp n s = s.guard1 P.LEHR 31 0x66 (some 2) := by
  refine if_neg ?_
  rintro ⟨-, hfailed, hgood⟩
  rcases h with hworks | hfew
  · exact Bool.false_ne_true (hworks.symm.trans hfailed)
  · omega

end

/-- Settles O56: a sample by `sensorSampleOp_held` and `sensorSampleOp_taken`, the hold by `riseHoldExpireOp_over`, a step of the glide
by its direction, and each command by `exec_lehrCmd`. -/
theorem sensorsThrottleTheClocks : Obligations.SensorsThrottleTheClocks := by
  unfold Obligations.SensorsThrottleTheClocks
  intro s
  refine ⟨?_, ?_, ?_, ?_⟩
  · intro hruns x n w hn hdue
    refine ⟨fun hheld => exec_sensorSample hruns (sensorSampleOp_held hn hdue hheld), ?_⟩
    intro hfree j t u
    have hsample {v : State} (hv : injectFailure (sampleEffect n j.1 (w.failed n) u) = v) : exec (.sensorSample x) s = .next (finish s v) :=
      exec_sensorSample hruns ((sensorSampleOp_taken hn hdue hfree).trans hv)
    have hunarmed {v : State} (hv : sampleEffect n j.1 (w.failed n) u = v) (hi : v.injArmed P.LEHR 2 = false) :
        exec (.sensorSample x) s = .next (finish s v) :=
      hsample (hv ▸ injectFailure_unarmed (hv ▸ hi))
    refine ⟨fun hfailed => hunarmed (sampleEffect_failed hfailed), fun hworks hbad => hunarmed (sampleEffect_misfit hworks hbad), ?_⟩
    intro hworks hfits hot v
    exact ⟨fun hcool => hunarmed ((sampleEffect_fits hworks hfits).trans (if_neg (Nat.not_le.mpr hcool))),
      fun hhot => hsample
        ((congrArg injectFailure ((sampleEffect_fits hworks hfits).trans (if_pos hhot))).trans (injectFailure_shutdown v))⟩
  · intro hruns c w hrate hc hover t
    exact exec_of_gated (f := fun t => riseHoldExpireOp c (reach (t.holdDue c) t)) hruns rfl (riseHoldExpireOp_over hrate hc hover)
  · intro hruns w g at_
    have hglide {u : State} (hu : clockGlideOp w = u) : exec .clockGlideStep s = .next (finish s u) :=
      exec_of_gated (f := fun t => clockGlideOp (reach (t.lehr.glideAt + 10000) t)) hruns rfl hu
    exact ⟨fun hlt hdue => hglide (clockGlideOp_up hlt hdue), fun hlt hdue => hglide (clockGlideOp_down hlt hdue),
      fun hthere => hglide (clockGlideOp_there hthere)⟩
  · intro r hobeys a t u
    obtain ⟨hreach, hguard⟩ := hobeys
    refine ⟨exec_lehrCmd hreach rfl (lehrCmd_ackFail hguard), fun n hn => ?_⟩
    have hrestore {x : State} (hx : restoreOp n a = x) : exec (.restore r n) s = .next (finish s (x.reply r .done)) :=
      exec_lehrCmd hreach rfl ((lehrCmd_restore hn hguard).trans hx)
    exact ⟨fun hfailed hgood => hrestore (restoreOp_good hn hfailed hgood), fun hno => hrestore (restoreOp_rejected hno)⟩

end Sys2Proof.Machine
end

section
/-!
PROOFS. Calibration: its commands, its ends, the epoch at which results take effect, and the eyes of the lanes (R400 to R405, R407).
-/
namespace Sys2Proof.Machine

/-! ### Commands of CAL.CMD -/

section
variable {s : State} {r : Req}

/-- A command of CAL.CMD by its requester (R407). -/
theorem exec_calCmd {c : Instr} {v : Word} {u : State} (h : s.reaches r P.CAL) (hc : exec c s = gated (regWrite r P.CAL 0x080 v) s)
    (hu : calCmd v (s.arrive r P.CAL) = u) : exec c s = .next (finish s (u.reply r .done)) := by
  refine hc.trans (gated_of ((regWrite_acts h 0x080 (by decide) (by decide) v rfl rfl (by decide) rfl rfl).trans ?_))
  rw [hu]

/-- The fields of LANE of lane `l`. -/
theorem calLane_fields {l : Nat} (hl : l < 70) : fget (w32 (3 * 2 ^ 28 + l % 128)) F.CAL_CMD_OP = 3 ∧
    fget (w32 (3 * 2 ^ 28 + l % 128)) F.CAL_CMD_LANE = l := by
  unfold fget w32 F.CAL_CMD_OP F.CAL_CMD_LANE
  simp only [BitVec.toNat_ofNat]
  omega

/-- A state in which calibration `op` has begun, of lane `lane` where it is LANE (R400). -/
def State.calBegun (s : State) (op lane : Nat) : State :=
  { s.put A.CAL_STAT F.CAL_STAT_BUSY 1 with cal := { s.cal with op := op, lane := lane, startAt := s.nowNs } }

/-- The rejection of a command of CMD (R407). -/
def State.calRejected (s : State) : State := (s.put A.CAL_STAT F.CAL_STAT_RESULT 5).guard1 P.CAL 31 0x7C (some 0)

section
variable {v : Word} {op l : Nat} (hop : fget v F.CAL_CMD_OP = op) (hlane : fget v F.CAL_CMD_LANE = l) (hi : s.injArmed P.CAL 31 = false)
include hop hlane hi

/-- While a calibration runs every command is rejected (R400). -/
theorem calCmd_busy (hbusy : s.get A.CAL_STAT F.CAL_STAT_BUSY = 1) : calCmd v s = s.calRejected :=
  (calCmd_spec hop hlane hi).trans (if_pos (by rw [hbusy]; rfl))

/-- SENSORS and TIMEBASE begin where no calibration runs (R401, R402). -/
theorem calCmd_starts (hidle : s.get A.CAL_STAT F.CAL_STAT_BUSY = 0) (h : op = 1 ∨ op = 2) : calCmd v s = s.calBegun op l := by
  refine (calCmd_spec hop hlane hi).trans (if_neg ?_)
  rw [hidle]
  obtain rfl | rfl := h
  · exact Bool.false_ne_true
  · exact Bool.false_ne_true

/-- LANE begins on a lane that is off line where no calibration runs, and is rejected on any other (R403, R404). -/
theorem calCmd_lane (hidle : s.get A.CAL_STAT F.CAL_STAT_BUSY = 0) (h : op = 3) (hl : l < 70) :
    calCmd v s = if s.offline (P.LANE l) = true then s.calBegun op l else s.calRejected := by
  have hrange : decide (69 < l) = false := decide_eq_false (by omega)
  rw [calCmd_spec hop hlane hi, hidle, h, hrange]
  cases s.offline (P.LANE l)
  · exact (if_pos rfl).trans (if_neg Bool.false_ne_true).symm
  · exact (if_neg Bool.false_ne_true).trans (if_pos rfl).symm

end

end

/-! ### The end of a calibration -/

section
variable {s c : State} {m : CalMeasure}

/-- The residuals of the sensors that lie within RES_LIMIT, each with its sensor (R401). -/
def State.goodResiduals (s : State) (m : CalMeasure) : List (Int × Nat) :=
  (m.residuals.take 24).zipIdx.filter fun x => decide (x.1.natAbs ≤ s.actF A.CAL_RES_LIMIT F.CAL_RES_LIMIT_MC)

/-- A residual waits for the epoch at which results take effect (R400, R401). -/
def residualWaits (s : State) (x : Int × Nat) : State :=
  { s.put (A.CAL_SENS_RES x.2) F.CAL_SENS_RES_PENDING (wrapN 16 x.1) with
    cal := { s.cal with sens := amSet (fun _ => 0) s.cal.sens x.2 x.1 } }

/-- SENSORS ends: with result 2 where EXTREF_V is out of range, and else with the residuals that are good (R401). -/
theorem calCompleteOp_sensors (hbusy : s.get A.CAL_STAT F.CAL_STAT_BUSY ≠ 0) (hc : calApplyOp s = c) (hop : c.cal.op = 1) :
    let t := c.put A.CAL_EXTREF_UV F.CAL_EXTREF_UV_UV m.extrefUv
    calCompleteOp m s = if m.extrefUv < 1243750 ∨ 1256250 < m.extrefUv then calEnd 2 false t
      else calEnd (if (t.goodResiduals m).length = 24 then 1 else 3) (!(t.goodResiduals m).isEmpty)
        ((t.goodResiduals m).foldl residualWaits t) := by
  unfold calCompleteOp
  rw [if_neg hbusy, hc]
  dsimp only
  rw [hop]
  rfl

/-- TIMEBASE ends: with result 2 without a good reference, and else with the error measured (R402). -/
theorem calCompleteOp_timebase (hbusy : s.get A.CAL_STAT F.CAL_STAT_BUSY ≠ 0) (hc : calApplyOp s = c) (hop : c.cal.op = 2) :
    let t := c.wr A.CAL_TB_PPB (w32 (wrapN 32 m.tbPpb))
    calCompleteOp m s = if m.refPresent = false ∨ 200 < m.refOffPpm then calEnd 2 false c
      else calEnd 1 true { t with cal := { t.cal with tb := some m.tbPpb } } := by
  unfold calCompleteOp
  rw [if_neg hbusy, hc]
  dsimp only
  rw [hop]
  exact ite_of_iff (by rw [Bool.not_eq_true'])

/-- LANE ends with what was found of its lane (R403). -/
theorem calCompleteOp_lane (hbusy : s.get A.CAL_STAT F.CAL_STAT_BUSY ≠ 0) (hc : calApplyOp s = c) (hop : c.cal.op = 3) :
    calCompleteOp m s = laneDone m c := by
  unfold calCompleteOp
  rw [if_neg hbusy, hc]
  dsimp only
  rw [hop]
  rfl

end

@[simp] theorem reach_get (due : Nat) (s : State) (a : Nat) (f : Fld) : (reach due s).get a f = s.get a f :=
  State.get_congr (congrArg RegFile.live (reach_rf due s)) a f

/-- CAL_COMPLETE of a calibration in progress, at the time that is reached; one of the start calibrations ends when it is told, and the next
begins (R400, R409). -/
theorem exec_calComplete {s w u : State} {m : CalMeasure} (hruns : s.runs) (hbusy : s.get A.CAL_STAT F.CAL_STAT_BUSY = 1)
    (hw : w = if s.stage = 1 then s else reach (s.calDue m) s) (hdue : s.stage = 1 ∨ w.calDue m ≤ w.nowNs)
    (hu : calCompleteOp m w = u) : exec (.calComplete m) s = .next (finish s (if s.stage = 1 then startCalNext u else u)) := by
  refine exec_of_gated (f := fun t => calibrationEnd m (if t.stage = 1 then t else reach (t.calDue m) t)) hruns rfl ?_
  rw [← hw]
  unfold calibrationEnd
  by_cases hstage : s.stage = 1
  · have hsame : w = s := hw.trans (if_pos hstage)
    subst hsame
    rw [if_pos hstage, if_pos ⟨hstage, hbusy⟩, hu]
  · have hwaits : w = reach (s.calDue m) s := hw.trans (if_neg hstage)
    have hcommanded : w.stage ≠ 1 := by rw [hwaits]; exact fun h => hstage ((reach_get _ _ _ _).symm.trans h)
    rw [if_neg hstage, if_neg (fun h => hcommanded h.1), if_neg (Nat.not_lt.mpr (hdue.resolve_left hstage)), hu]

/-! ### The epoch of the results -/

/-- Results that are due take effect together (R400). -/
theorem calApplyOp_due {s : State} (h : s.cal.due = true) :
    let t := s.cal.sens.foldl (fun t x => t.wr (A.CAL_SENS_RES x.1) (w32 (wrapN 16 x.2))) s
    let u : State := { t with cal := { t.cal with tbForce := t.cal.tb.getD t.cal.tbForce } }
    let v := u.cal.sel.foldl (fun t x => laneApply x t) u
    let w := calTrim { v with cal := { v.cal with sens := [], tb := none, sel := [], due := false } }
    let z := w.put A.CAL_STAT F.CAL_STAT_PENDING 0
    calApplyOp s = (z.wr A.CAL_CAL_FRAME (w32 w.frameNum)).raise P.CAL 1 := by
  refine if_neg ?_
  rw [h]
  decide

/-! ### The eyes of the lanes -/

section
variable {s : State} {l w h : Nat}

/-- A lane's eye with its figures shown, and the event where they lie below EYE_MIN (R405). -/
def eyeShown (l w h : Nat) (s : State) : State :=
  let t := (eyeStamp l s).wr (A.LANE_EYE l) (w32 (2 ^ 31 + h % 1024 * 65536 + w % 128))
  t.raiseIf (t.eyeLow l w h) (P.LANE l) 0

section
variable (hl : l < 70) (hen : s.actF (A.LANE_CTRL l) F.LANE_CTRL_EYE_EN ≠ 0) (hon : s.offline (P.LANE l) = false) (hdue : s.eyeDue l ≤ s.nowNs)
include hl hen hon hdue

/-- The eye of a lane that runs is not current without a spare slice (R405). -/
theorem eyeMeasureOp_noSpare (hspare : s.get (A.LANE_STAT l) F.LANE_STAT_SPARE_SLICES = 0) :
    eyeMeasureOp l w h s = s.put (A.LANE_EYE l) F.LANE_EYE_VALID 0 := by
  unfold eyeMeasureOp
  rw [decide_eq_false (Nat.not_le.mpr hl), beq_false_of_ne hen, hon, decide_eq_false (Nat.not_lt.mpr hdue)]
  exact (if_neg Bool.false_ne_true).trans (if_pos hspare)

/-- The eye of a lane that runs is measured with a spare slice (R405). -/
theorem eyeMeasureOp_spare (hspare : s.get (A.LANE_STAT l) F.LANE_STAT_SPARE_SLICES ≠ 0) (hi : s.injArmed (P.LANE l) 0 = false) :
    eyeMeasureOp l w h s = eyeShown l w h s := by
  have hunarmed : (eyeStamp l s).injArmed (P.LANE l) 0 = false := hi
  unfold eyeMeasureOp
  rw [decide_eq_false (Nat.not_le.mpr hl), beq_false_of_ne hen, hon, decide_eq_false (Nat.not_lt.mpr hdue), State.detect_unarmed hunarmed]
  exact (if_neg Bool.false_ne_true).trans (if_neg hspare)

end

theorem State.eyeLow_iff : s.eyeLow l w h = true ↔
    w < s.actF (A.LANE_EYE_MIN l) F.LANE_EYE_MIN_W ∨ h < s.actF (A.LANE_EYE_MIN l) F.LANE_EYE_MIN_H_MV := by
  unfold State.eyeLow
  rw [Bool.or_eq_true, decide_eq_true_iff, decide_eq_true_iff]

end

/-- Settles O57: a command by `exec_calCmd` and its lemma, an end by `exec_calComplete` and what was measured, the results by
`calApplyOp_due`, and an eye by whether its lane has a spare slice. -/
theorem calibrationsRunAndApply : Obligations.CalibrationsRunAndApply := by
  unfold Obligations.CalibrationsRunAndApply
  intro s
  refine ⟨?_, ?_, ?_, ?_⟩
  · intro r hobeys a b no
    obtain ⟨hreach, hguard⟩ := hobeys
    have hcmd {c : Instr} {v : Word} {u : State} (hc : exec c s = gated (regWrite r P.CAL 0x080 v) s) (hu : calCmd v a = u) :
        exec c s = .next (finish s (u.reply r .done)) := exec_calCmd hreach hc hu
    constructor
    · intro hidle
      refine ⟨hcmd rfl (calCmd_starts rfl rfl hguard hidle (Or.inl rfl)), hcmd rfl (calCmd_starts rfl rfl hguard hidle (Or.inr rfl)), ?_⟩
      intro l hl
      obtain ⟨hop, hlane⟩ := calLane_fields hl
      have hstart := calCmd_lane hop hlane hguard hidle rfl hl
      exact ⟨fun hoff => hcmd rfl (hstart.trans (if_pos hoff)), fun hon => hcmd rfl (hstart.trans (if_neg (ne_true_of_eq_false hon)))⟩
    · intro hbusy
      have hreject {c : Instr} {v : Word} (hc : exec c s = gated (regWrite r P.CAL 0x080 v) s) : exec c s = .next no :=
        hcmd hc (calCmd_busy rfl rfl hguard hbusy)
      exact ⟨hreject rfl, hreject rfl, fun l _ => hreject rfl⟩
  · intro hruns hbusy m w hdue c ends
    have hwbusy : w.get A.CAL_STAT F.CAL_STAT_BUSY = 1 := by
      refine Eq.trans ?_ hbusy
      dsimp only [w]
      split
      · rfl
      · exact reach_get _ _ _ _
    have hne : w.get A.CAL_STAT F.CAL_STAT_BUSY ≠ 0 := by rw [hwbusy]; decide
    have hends {t : State} (ht : calCompleteOp m w = t) : ends t := exec_calComplete hruns hbusy rfl hdue ht
    refine ⟨fun hop => ?_, fun hop => ?_, fun hop => hends (calCompleteOp_lane hne rfl hop)⟩
    · intro t
      have hend := calCompleteOp_sensors (m := m) hne rfl hop
      exact ⟨fun hout => hends (hend.trans (if_pos hout)), fun hlow hhigh => hends (hend.trans (if_neg (by omega)))⟩
    · have hend := calCompleteOp_timebase (m := m) hne rfl hop
      refine ⟨fun hbad => hends (hend.trans (if_pos hbad)), fun href hnear => hends (hend.trans (if_neg ?_))⟩
      exact not_or.mpr ⟨fun hnone => Bool.false_ne_true (hnone.symm.trans href), Nat.not_lt.mpr hnear⟩
  · intro hruns hdue
    exact exec_of_gated hruns rfl (calApplyOp_due hdue)
  · intro hruns l w h hl x hen hon hdue
    have heye {u : State} (hu : eyeMeasureOp l w h x = u) : exec (.eyeMeasure l w h) s = .next (finish s u) :=
      exec_of_gated (f := fun t => eyeMeasureOp l w h (reach (t.eyeDue l) t)) hruns rfl hu
    refine ⟨fun hnone => heye (eyeMeasureOp_noSpare hl hen hon hdue hnone), ?_⟩
    intro hspare hi t low
    have hshown := heye (eyeMeasureOp_spare hl hen hon hdue hspare hi)
    exact ⟨fun hlow => hshown.trans (finish_congr (if_pos (State.eyeLow_iff.mpr hlow))),
      fun hopen => hshown.trans (finish_congr (if_neg (mt State.eyeLow_iff.mp hopen)))⟩

end Sys2Proof.Machine
end

section
/-!
PROOFS. The step of the device (log entry 3).
-/
namespace Sys2Proof.Machine

/-- Settles O1: a queue that is not empty takes the second branch of `step`. -/
theorem stepRunsTheFrontCommand : Obligations.StepRunsTheFrontCommand := by
  unfold Obligations.StepRunsTheFrontCommand
  exact fun _ _ _ => rfl

end Sys2Proof.Machine
end

section
/-!
PROOFS. A freeze (R448 to R451): what ends it, and what the reset after it shows.
-/
namespace Sys2Proof.Machine

/-! ### What settling leaves of the supplies -/

theorem State.endFree_power (s : State) (id : Nat) : (s.endFree id).power = s.power := by
  unfold State.endFree State.setBuf State.add State.put
  dsimp only
  split
  · rw [State.raise_power]
  · rw [State.raise_power]
    rfl

theorem State.leaseSweep_power (s : State) : s.leaseSweep.power = s.power := by
  have hstep (t : State) (b : BufDef) :
      (if t.lease.bufs.contains b && !t.leased b then t.endFree b.id else t).power = t.power := by
    split
    · exact t.endFree_power b.id
    · rfl
  exact foldl_keeps (fun s t => t.power = s.power) (fun _ => rfl) (fun h h' => h'.trans h) _ hstep _ _

/-- What follows carriage in settling leaves the supplies and the reset pins. -/
theorem finish_power (s t : State) : (finish s t).power = (running carriageSettle t).power := by
  obtain ⟨m, x, hfree⟩ := State.hostFreeSync_live (running carriageSettle t).leaseSweep
  obtain ⟨w, hmarver⟩ := marverRelease_eq (running carriageSettle t).leaseSweep.hostFreeSync
  obtain ⟨m', x', c, hcal⟩ := calHold_eq (marverRelease (running carriageSettle t).leaseSweep.hostFreeSync)
  have hsweep := (running carriageSettle t).leaseSweep_power
  unfold finish settle
  rw [State.irqSync_power, hcal, hmarver, hfree]
  exact hsweep

theorem State.not_runs_of_held {s : State} (h : s.power.mode = .held) : ¬ s.runs := by
  rw [State.runs, h]
  decide

theorem State.not_runs_of_frozen {s : State} (h : s.power.mode = .frozen) : ¬ s.runs := by
  rw [State.runs, h]
  decide

/-- Settling leaves the supplies of a device that does not run. -/
theorem finish_power_stopped {t : State} (s : State) (h : ¬ t.runs) : (finish s t).power = t.power :=
  (finish_power s t).trans (congrArg State.power (if_neg h))

/-! ### Commands that always act -/

section
variable (s : State) (ws : List Word) (src : Nat)

theorem fixRequest_power (type op need : Nat) : (fixRequest type op need ws src s).2.power = s.power := by
  unfold fixRequest
  dsimp only
  split
  · rfl
  · split
    · rfl
    · split <;> rfl

theorem freshWords_power (n : Nat) : ∀ s : State, (freshWords n s).2.power = s.power := by
  induction n with
  | zero => exact fun _ => rfl
  | succ n ih => exact fun s => ih _

theorem fixtureFrameOp_power : (fixtureFrameOp ws src s).power = s.power := by
  unfold fixtureFrameOp
  dsimp only
  split
  · rfl
  · split
    · rfl
    · split <;> rfl

theorem fixtureLossDarkOp_power : (fixtureLossDarkOp s).power = s.power := by
  unfold fixtureLossDarkOp
  dsimp only
  split <;> rfl

theorem fixtureSyncOp_power : (fixtureSyncOp ws src s).power = s.power := by
  unfold fixtureSyncOp
  dsimp only
  split
  · rfl
  · split <;> rfl

theorem fixtureDelayReqOp_power : (fixtureDelayReqOp s).power = s.power := by
  unfold fixtureDelayReqOp
  dsimp only
  split
  · split <;> rfl
  · rfl

theorem fixtureDelayRespOp_power : (fixtureDelayRespOp ws s).power = s.power := by
  unfold fixtureDelayRespOp
  dsimp only
  split
  · rfl
  · split
    · split <;> rfl
    · rfl

theorem foldl_fixSend_power (dsts : List Nat) (s : State) : (dsts.foldl (fun t d => fixSend d ws t) s).power = s.power :=
  foldl_keeps (fun s t => t.power = s.power) (fun _ => rfl) (fun h h' => h'.trans h) (fun t d => fixSend d ws t) (fun _ _ => rfl) dsts s

theorem fixtureTelemetryOp_power : (fixtureTelemetryOp s).power = s.power := by
  unfold fixtureTelemetryOp
  dsimp only
  split
  · rfl
  · exact (foldl_fixSend_power _ _ _).trans (freshWords_power _ _)

theorem fixtureReplyOp_power : (fixtureReplyOp s).power = s.power := by
  unfold fixtureReplyOp
  dsimp only
  split <;> rfl

theorem discoverOp_power : (discoverOp ws src s).power = s.power := by
  have hreq := fixRequest_power s ws src 7 1 20
  unfold discoverOp
  dsimp only
  split <;> exact hreq

theorem muteOp_power : (muteOp ws src s).power = s.power := by
  have hreq := fixRequest_power s ws src 7 2 20
  unfold muteOp
  dsimp only
  split <;> exact hreq

theorem unmuteOp_power : (unmuteOp ws src s).power = s.power := by
  have hreq := fixRequest_power s ws src 7 3 20
  unfold unmuteOp
  dsimp only
  split <;> exact hreq

theorem setAnswer_power (op v : Nat) : (setAnswer ws src op v s).power = s.power := rfl

theorem setWriteOp_power : (setWriteOp ws src s).power = s.power := by
  have hreq := fixRequest_power s ws src 8 1 16
  unfold setWriteOp
  dsimp only
  split
  · exact hreq
  · split
    · split <;> exact hreq
    · split
      · exact hreq
      · split <;> exact hreq

theorem setReadOp_power : (setReadOp ws src s).power = s.power := by
  have hreq := fixRequest_power s ws src 8 2 16
  unfold setReadOp
  dsimp only
  split
  · split
    · rw [setAnswer_power, State.fresh_power, hreq]
    · rw [setAnswer_power, State.fresh_power, hreq]
  · exact hreq

theorem logEvent_power (kind : Nat) : (logEvent kind s).power = s.power := by
  unfold logEvent
  dsimp only
  split
  · rfl
  · exact State.raise_power _ _ _

theorem tamperOp_power : (tamperOp s).power = s.power := by
  unfold tamperOp
  dsimp only
  split
  · rw [State.guard1_power, State.injTake_power]
  · split
    · rw [logEvent_power, State.raise_power, State.put_power]
    · rw [State.raise_power, State.put_power]

theorem tapShift_power : (tapShift ws s).power = s.power := rfl

theorem dumpScanOp_power : (dumpScanOp s).power = s.power := by
  unfold dumpScanOp
  dsimp only
  split
  · rfl
  · split
    · rfl
    · rw [tapShift_power, freshWords_power]

end

/-! ### What ends a freeze -/

section
variable {s : State} (h : s.power.mode = .frozen)
include h

theorem pinGlitchOp_frozen (pin : Pin) : (pinGlitchOp pin s).power.mode = .frozen := by
  have hstopped : ¬ s.runs := State.not_runs_of_frozen h
  have hnothing (f : State → State) : (running f s).power.mode = .frozen := by
    rw [running, if_neg hstopped, h]
  cases pin with
  | tamperN => exact (congrArg Power.mode (State.guard1_power ..)).trans h
  | rstN | frzN => exact hnothing fun t => t.guard1 _ 28 (openCode _) none
  | genlock | ltc | cap _ => exact hnothing fun t => t.guard1 _ 28 _ (some _)
  | dmx n => exact hnothing fun t => t.guard1 P.DMX 28 (openCode (A.DMX_CFG n)) none

theorem clockStopOp_frozen (domain sub : Nat) (forced : Bool) : (clockStopOp domain sub forced s).power.mode = .frozen := by
  unfold clockStopOp
  dsimp only
  split
  · exact h
  · split <;> exact h

theorem freezeOvertempOp_frozen : (freezeOvertempOp s).power.mode = .frozen := by
  rw [freezeOvertempOp, if_pos h]
  exact h

theorem extestOp_frozen (pins : List Nat) : (extestOp pins s).power.mode = .frozen := by
  rw [extestOp, if_pos (Or.inr h)]
  exact h

theorem tapFreezeOp_frozen : (tapFreezeOp s).power.mode = .frozen := by
  rw [tapFreezeOp, if_neg (fun hruns => State.not_runs_of_frozen h hruns.1)]
  exact h

theorem keeperLostCmdOp_frozen : (keeperLostCmdOp s).power.mode = .frozen := by
  unfold keeperLostCmdOp
  split <;> exact h

/-- RST_N rises on a frozen device: only a device that is held starts (R451, R466). -/
theorem rstRise_frozen : (rstNOp false s).power.mode = .frozen := by
  rw [rstNOp, if_neg Bool.false_ne_true, rstRise]
  dsimp only
  rw [if_neg (by rw [h]; exact fun hheld => absurd hheld.1 (by decide))]
  exact h

/-- The end of a power-on reset starts only a device that is held (R465). -/
theorem resetReleaseOp_frozen : (resetReleaseOp s).power.mode = .frozen := by
  rw [resetReleaseOp, if_pos (by rw [h]; decide)]
  exact h

/-- Of the commands that always act, only a fall of RST_N, a power-on reset and a falling supply end a freeze (R451). -/
theorem ungated_frozen {c : Instr} (hc : c.ungated = true) (hrst : c ≠ .rstN true) (hpor : c ≠ .powerOnReset)
    (hfall : c ≠ .supplyFall) : ∃ u, exec c s = .next (finish s u) ∧ u.power.mode = .frozen := by
  have hkeeps {f : State → State} (hf : (f s).power = s.power) : (f s).power.mode = .frozen := by rw [hf, h]
  cases c with
  | pinGlitch pin => exact ⟨_, rfl, pinGlitchOp_frozen h pin⟩
  | powerOnReset => exact absurd rfl hpor
  | supplyFall => exact absurd rfl hfall
  | rstN low =>
    cases low with
    | true => exact absurd rfl hrst
    | false => exact ⟨_, rfl, rstRise_frozen h⟩
  | resetRelease => exact ⟨_, rfl, resetReleaseOp_frozen h⟩
  | keepSecond => exact ⟨_, rfl, hkeeps (State.wr64_power ..)⟩
  | tamper => exact ⟨_, rfl, hkeeps (tamperOp_power s)⟩
  | keeperLost => exact ⟨_, rfl, keeperLostCmdOp_frozen h⟩
  | freezeClockStop domain sub forced => exact ⟨_, rfl, clockStopOp_frozen h domain sub forced⟩
  | freezeOvertemp => exact ⟨_, rfl, freezeOvertempOp_frozen h⟩
  | extest pins => exact ⟨_, rfl, extestOp_frozen h pins⟩
  | samplePreload pins => exact ⟨_, rfl, h⟩
  | idcode => exact ⟨_, rfl, h⟩
  | dumpSel chain => exact ⟨_, rfl, h⟩
  | dumpScan => exact ⟨_, rfl, hkeeps (dumpScanOp_power s)⟩
  | tapFreeze => exact ⟨_, rfl, tapFreezeOp_frozen h⟩
  | bypass code => exact ⟨_, rfl, h⟩
  | fixtureFrameAccept m => exact ⟨_, rfl, hkeeps (fixtureFrameOp_power s m.words m.src)⟩
  | fixtureApply pt => exact ⟨_, rfl, h⟩
  | fixtureLossDark => exact ⟨_, rfl, hkeeps (fixtureLossDarkOp_power s)⟩
  | fixtureSync ws src => exact ⟨_, rfl, hkeeps (fixtureSyncOp_power s ws src)⟩
  | fixtureDelayReqSend => exact ⟨_, rfl, hkeeps (fixtureDelayReqOp_power s)⟩
  | fixtureTelemetrySend => exact ⟨_, rfl, hkeeps (fixtureTelemetryOp_power s)⟩
  | discover m => exact ⟨_, rfl, hkeeps (discoverOp_power s m.words m.src)⟩
  | fixtureReplySend => exact ⟨_, rfl, hkeeps (fixtureReplyOp_power s)⟩
  | mute m => exact ⟨_, rfl, hkeeps (muteOp_power s m.words m.src)⟩
  | unmute m => exact ⟨_, rfl, hkeeps (unmuteOp_power s m.words m.src)⟩
  | setWrite m => exact ⟨_, rfl, hkeeps (setWriteOp_power s m.words m.src)⟩
  | setReadParam m => exact ⟨_, rfl, hkeeps (setReadOp_power s m.words m.src)⟩
  | fixtureDelayResp ws => exact ⟨_, rfl, hkeeps (fixtureDelayRespOp_power s ws)⟩
  | fixturePowerUp => exact ⟨_, rfl, h⟩
  | _ => exact absurd hc Bool.false_ne_true

/-- Every other command leaves a freeze: one of the device's blocks does nothing while it does not run (R449, R451). -/
theorem exec_frozen {c : Instr} {t : State} (hrst : c ≠ .rstN true) (hpor : c ≠ .powerOnReset) (hfall : c ≠ .supplyFall)
    (ht : exec c s = .next t) : t.power.mode = .frozen := by
  have hend : ∃ u, exec c s = .next (finish s u) ∧ u.power.mode = .frozen := by
    cases hc : c.ungated with
    | true => exact ungated_frozen h hc hrst hpor hfall
    | false =>
      obtain ⟨f, hexec⟩ := exec_gated_or_always c s
      rw [hc] at hexec
      exact ⟨s, hexec.trans (gated_stopped (State.not_runs_of_frozen h) f), h⟩
  obtain ⟨u, hexec, hu⟩ := hend
  obtain rfl : finish s u = t := Host.Outcome.next.inj (hexec.symm.trans ht)
  rw [finish_power_stopped s (State.not_runs_of_frozen hu), hu]

end

/-! ### The reset that ends it -/

/-- Without carriage, an acknowledgement to send, or a bench that samples, carriage settles nothing. -/
theorem carriageSettle_idle {s : State} (hcur : ∀ e, (s.engine e).cur = none) (hbnds : s.time.bnds < 2)
    (hbenches : ∀ b ∈ s.sched.benches, b.job = none) : carriageSettle s = s := by
  have hcheck (e : Nat) : carriageCheck e s = s := by rw [carriageCheck, hcur e]
  have hcarriage : carriageAll s = s := List.foldl_fixed' (fun e => hcheck e) _
  have hack : ackCarried s = s := by
    unfold ackCarried
    rw [decide_eq_false (by omega)]
    simp
  have hgrants : grantDemand s = s := by
    unfold grantDemand
    rw [List.filter_eq_nil_iff.mpr fun b hb => by rw [hbenches b hb]; decide]
    exact if_neg (by decide)
  rw [carriageSettle, hcarriage, hack, hgrants]

/-- A device that has just started has no carriage to settle, and no slice that holds the sampler (R409). -/
theorem carriageSettle_restart (cause : Nat) (s : State) : carriageSettle (restart cause s) = restart cause s := by
  obtain ⟨m, x, k, hform, -, -⟩ := restartFrom_form cause (interruptedFuse (interruptedSave s))
  have hrestart : restart cause s = _ := hform
  have hscan : (restart cause s).scan = State.reset.scan := by rw [hrestart]; rfl
  have hbnds : (restart cause s).time.bnds = 0 := by rw [hrestart]; rfl
  have hsched : (restart cause s).sched = State.reset.sched := by rw [hrestart]; rfl
  refine carriageSettle_idle (fun e => ?_) (by omega) (by rw [hsched]; decide)
  unfold State.engine State.reset at *
  rw [hscan, List.getD_eq_getElem?_getD, List.getElem?_replicate]
  split <;> rfl

/-! ### RESET_CAUSE -/

theorem calShow_rd {a : Nat} (h : ∀ n, a ≠ A.LEHR_SENSOR n) (n : Option Nat) (v : Nat) (s : State) : (calShow n v s).rd a = s.rd a := by
  cases n with
  | none => rfl
  | some n => exact State.rd_put_ne _ _ _ (h n)

theorem calHold_rd {a : Nat} (h : ∀ n, a ≠ A.LEHR_SENSOR n) (s : State) : (calHold s).rd a = s.rd a := by
  unfold calHold
  split
  · rfl
  · exact (calShow_rd h _ _ _).trans (calShow_rd h _ _ _)

theorem hostFreeSync_cause (s : State) : s.hostFreeSync.rd A.SYS_RESET_CAUSE = s.rd A.SYS_RESET_CAUSE := by
  unfold State.hostFreeSync
  refine foldl_keeps (fun s t => t.rd A.SYS_RESET_CAUSE = s.rd A.SYS_RESET_CAUSE) (fun _ => rfl) (fun h h' => h'.trans h) _
    (fun t f => foldl_keeps (fun s t => t.rd A.SYS_RESET_CAUSE = s.rd A.SYS_RESET_CAUSE) (fun _ => rfl) (fun h h' => h'.trans h) _
      (fun t n => ?_) _ _) _ _
  have hstat : A.SYS_RESET_CAUSE ≠ A.FLOW_STAT f := by unfold A.SYS_RESET_CAUSE A.FLOW_STAT; omega
  have hevt : A.SYS_RESET_CAUSE ≠ H.EVT_STAT (P.FLOW f) := by unfold A.SYS_RESET_CAUSE H.EVT_STAT P.FLOW; omega
  have hmerged : A.SYS_RESET_CAUSE ≠ H.EVT_MERGED (P.FLOW f) := by unfold A.SYS_RESET_CAUSE H.EVT_MERGED P.FLOW; omega
  dsimp only
  split
  · rfl
  · rw [State.rd_raiseIf _ _ _ _ hevt hmerged (by decide), State.rd_put_ne _ _ _ hstat]

/-- Settling leaves RESET_CAUSE of a device on which neither carriage nor a pending free is left to settle (R61). -/
theorem finish_cause {t : State} (s : State) (hcarriage : carriageSettle t = t) (hbufs : t.lease.bufs = []) :
    (finish s t).rd A.SYS_RESET_CAUSE = t.rd A.SYS_RESET_CAUSE := by
  have hrunning : running carriageSettle t = t := by
    unfold running
    split
    · exact hcarriage
    · rfl
  have hsweep : t.leaseSweep.rf = t.rf := by
    unfold State.leaseSweep
    rw [hbufs]
    rfl
  obtain ⟨w, hmarver⟩ := marverRelease_eq t.leaseSweep.hostFreeSync
  have hfinish : (finish s t).rd A.SYS_RESET_CAUSE = (settle t).rd A.SYS_RESET_CAUSE := State.rd_congr (by rw [finish]) _
  rw [hfinish, settle_eq, hrunning, State.irqSync_rd _ _ (by decide),
    calHold_rd (fun n => by unfold A.SYS_RESET_CAUSE A.LEHR_SENSOR; omega), hmarver]
  exact (hostFreeSync_cause _).trans (State.rd_congr (congrArg RegFile.live hsweep) _)

/-- A device that has just started runs, and RESET_CAUSE shows the cause as its one bit (R61, R409). -/
theorem finish_restart (s t : State) (cause : Nat) :
    (finish s (restart cause t)).power.mode = .run ∧ (finish s (restart cause t)).rd A.SYS_RESET_CAUSE = w32 (2 ^ cause) := by
  obtain ⟨-, -, -, -, -, hmode, hlease, -, -, hcause⟩ := restart_spec cause t
  have hcarriage := carriageSettle_restart cause t
  refine ⟨?_, ?_⟩
  · rw [finish_power, running_runs hmode, hcarriage, hmode]
  · rw [finish_cause s hcarriage (by rw [hlease]; rfl), hcause]

/-- A fall of RST_N holds a frozen device, and FREEZE is the cause of its next release (R451, R466). -/
theorem rstNOp_frozen {s : State} (h : s.power.mode = .frozen) (hpor : s.power.por = false) : rstNOp true s =
    { s with power := { s.power with rstLow := true, mode := .held, cause := causeFreeze, thermtrip := false } } := by
  rw [rstNOp_fall (fun hruns => absurd hruns (State.not_runs_of_frozen h))]
  unfold rstFall holdReset
  dsimp only
  rw [h, hpor, if_neg (fun hruns => absurd hruns.2 (by decide)), if_neg (by decide), if_pos rfl]
  rfl

/-- Settles O9: `exec_frozen` for the commands that leave a freeze; each reset that ends it is released by `finish_restart`. -/
theorem aFreezeIsTerminal : Obligations.AFreezeIsTerminal := by
  unfold Obligations.AFreezeIsTerminal
  intro s hfrozen
  refine ⟨fun c t hrst hpor hfall ht => exec_frozen hfrozen hrst hpor hfall ht, fun hpor => ?_, fun hhigh => ?_⟩
  · have hfall := rstNOp_frozen hfrozen hpor
    have hpower : (finish s (rstNOp true s)).power = _ :=
      (finish_power_stopped s (State.not_runs_of_held (by rw [hfall]))).trans (congrArg State.power hfall)
    have hheld : (finish s (rstNOp true s)).power.mode = .held := by rw [hpower]
    have hended : (finish s (rstNOp true s)).power.por = false := by rw [hpower]; exact hpor
    have hcause : (finish s (rstNOp true s)).power.cause = causeFreeze := by rw [hpower]
    refine ⟨_, rfl, hheld, _, exec_of_always (f := rstNOp false) rfl (rstNOp_rise hheld hended), ?_⟩
    rw [hcause]
    exact finish_restart _ _ _
  · have hpower : (finish s (powerOnOp s)).power = (powerOnOp s).power :=
      finish_power_stopped s (State.not_runs_of_held rfl)
    rw [powerOnOp_eq] at hpower
    have hheld : (finish s (powerOnOp s)).power.mode = .held := by rw [powerOnOp_eq, hpower]
    have hcause : (finish s (powerOnOp s)).power.cause = causePor := by rw [powerOnOp_eq, hpower]
    have hlow : (finish s (powerOnOp s)).power.rstLow = false := by rw [powerOnOp_eq, hpower]; exact hhigh
    refine ⟨_, rfl, hheld, _, exec_of_always (f := resetReleaseOp) rfl ((resetReleaseOp_held hheld).trans
      (if_neg (by rw [hlow]; exact Bool.false_ne_true))), ?_⟩
    rw [hcause]
    exact finish_restart _ _ _

end Sys2Proof.Machine
end

section
/-!
PROOFS. Registers of the page shell that act when written: EVT_INJ, ST_CTRL, and WITHDRAW of PAGE_CTRL (R427, R428, R435 to R440, R454).
-/
namespace Sys2Proof.Machine

/-! ### EVT_INJ and ST_CTRL -/

/-- While INJ_CTRL.EN is 0, EVT_INJ is read-only (R454). -/
theorem injArm_disabled {s : State} {p : Nat} (w : Word) (h : s.get A.DEBUG_INJ_CTRL F.DEBUG_INJ_CTRL_EN = 0) :
    injArm p w s = s.guard1 p 31 0xFF none := if_pos h

/-- While it is 1, a page whose detectors do not evaluate at once is armed (R454). -/
theorem injArm_enabled {s : State} {p : Nat} (w : Word) (h : s.get A.DEBUG_INJ_CTRL F.DEBUG_INJ_CTRL_EN = 1)
    (hkeep : p ≠ P.KEEP) (hgaffer : p ≠ P.GAFFER) (hptp : p ≠ P.PTP) :
    injArm p w s = s.wr (H.EVT_INJ p) (s.rd (H.EVT_INJ p) ||| (w &&& w32 (injBits p))) := by
  unfold injArm
  dsimp only
  rw [if_neg (by rw [h]; decide), if_neg (fun hk => hkeep hk.1), if_neg (fun hg => hgaffer hg.1), if_neg hptp]

/-- The word that requests a test: REQ and TEST_SEL, without ABORT (R435). -/
theorem stReqWord_fields {k : Nat} (hk : k < 256) :
    bitOf (w32 (k * 256 + 1)) 1 = false ∧ bitOf (w32 (k * 256 + 1)) 0 = true ∧ fget (w32 (k * 256 + 1)) ⟨15, 8⟩ = k := by
  unfold bitOf fget w32
  simp only [BitVec.toNat_ofNat, beq_eq_false_iff_ne, beq_iff_eq]
  omega

/-- The word that aborts a slice: ABORT with the TEST_SEL that stands, without REQ (R439). -/
theorem stAbortWord_fields {k : Nat} (hk : k < 256) :
    bitOf (w32 (k * 256 + 2)) 1 = true ∧ bitOf (w32 (k * 256 + 2)) 0 = false ∧ fget (w32 (k * 256 + 2)) ⟨15, 8⟩ = k := by
  unfold bitOf fget w32
  simp only [BitVec.toNat_ofNat, beq_eq_false_iff_ne, beq_iff_eq]
  omega

theorem fget_testSel_lt (w : Word) : fget w ⟨15, 8⟩ < 256 := Nat.mod_lt _ (by decide)

/-- A write of REQ with a test selection, and without ABORT, requests that test (R435). -/
theorem stWrite_request {k : Nat} (hk : k < 256) (p : Nat) (s : State) : stWrite p (w32 (k * 256 + 1)) s = stReqOp p k s := by
  obtain ⟨habort, hreq, hsel⟩ := stReqWord_fields hk
  unfold stWrite
  dsimp only
  rw [habort, if_neg Bool.false_ne_true, hreq, if_pos rfl, hsel]

/-- A test that the life cycle allows and the block has waits for its slice (R435, R437). -/
theorem stReqOp_allowed {s : State} {p k : Nat} (hallowed : s.sliceAllowed p = true) (hok : testOk p k = true) :
    stReqOp p k s = (s.put (H.ST_CTRL p) ⟨15, 8⟩ k).put (H.ST_CTRL p) ⟨0, 0⟩ 1 := by
  rw [stReqOp, hallowed, hok]
  rfl

/-- A request that the life cycle does not allow is refused and counted (R435). -/
theorem stReqOp_refused {s : State} {p : Nat} (k : Nat) (hallowed : s.sliceAllowed p = false) :
    stReqOp p k s = ((s.inc A.GLORY_REFUSED).wr A.GLORY_REF_PAGE (w32 p)).guard1 p 31 (openCode (H.ST_CTRL p)) none := by
  rw [stReqOp, hallowed]
  rfl

/-- ABORT ends the slice that runs on the page and leaves TEST_SEL (R439). -/
theorem stWrite_abort {s : State} {p k : Nat} {x : Slice} (hk : k < 256) (hslice : s.dbg.slice = some x) (hpage : x.page = p) :
    let m := freeMeasure x.test s
    stWrite p (w32 (k * 256 + 2)) s = (sliceFinish .other m.1 m.2).put (H.ST_CTRL p) ⟨15, 8⟩ k := by
  obtain ⟨habort, hreq, hsel⟩ := stAbortWord_fields hk
  intro m
  have hstop : sliceStopOn .other p s = sliceFinish .other m.1 m.2 := by
    unfold sliceStopOn
    rw [hslice]
    exact if_pos hpage
  unfold stWrite
  dsimp only
  rw [habort, if_pos rfl, hstop, hreq, if_neg Bool.false_ne_true, hsel]

/-- What a command that writes a register of the page shell answers (R31). -/
theorem exec_shellWrite {s u : State} {c : Instr} {r : Req} {p o : Nat} {g : State → Word} (hruns : s.runs) (hb : blkOf p ≠ none)
    (ho : o ∈ [0x00C, 0x010, 0x014, 0x018, 0x01C, 0x028, 0x030]) (hc : exec c s = gated (fun t => regWrite r p o (g t) t) s)
    (hu : shellWrite r p o (g s) (s.tlp r) = u) : exec c s = .next (finish s (u.reply r .done)) :=
  hc.trans (gated_of ((running_regWrite_value g s).trans ((regWrite_header hruns hb ho (g s)).trans (congrArg (State.reply · r .done) hu))))

/-- Settles O16: each command writes its register of the shell, and the lemma on that register says what the word does. -/
theorem headerRegistersActWhenWritten : Obligations.HeaderRegistersActWhenWritten := by
  unfold Obligations.HeaderRegistersActWhenWritten
  intro s r p v k hruns hb t
  have hk : k % 256 < 256 := Nat.mod_lt _ (by decide)
  refine ⟨fun hen hkeep hgaffer hptp => ?_, fun hen => ?_, fun hallowed hok => ?_, fun hallowed => ?_, fun x hslice hpage => ?_⟩
  · exact exec_shellWrite (g := fun _ => v) hruns hb (by decide) rfl (injArm_enabled v hen hkeep hgaffer hptp)
  · exact exec_shellWrite (g := fun _ => v) hruns hb (by decide) rfl (injArm_disabled v hen)
  · exact exec_shellWrite (g := fun _ => w32 (k % 256 * 256 + 1)) hruns hb (by decide) rfl
      ((stWrite_request hk p t).trans (stReqOp_allowed hallowed hok))
  · exact exec_shellWrite (g := fun _ => w32 (k % 256 * 256 + 1)) hruns hb (by decide) rfl
      ((stWrite_request hk p t).trans (stReqOp_refused _ hallowed))
  · exact exec_shellWrite (g := fun t => w32 (t.get (H.ST_CTRL p) ⟨15, 8⟩ * 256 + 2)) hruns hb (by decide) rfl
      (stWrite_abort (fget_testSel_lt _) hslice hpage)

/-! ### WITHDRAW -/

/-- WITHDRAW with the VIEW that stands (R427). -/
theorem exec_withdraw {s u : State} {r : Req} {p : Nat} (hruns : s.runs) (hb : blkOf p ≠ none) (hi : (s.tlp r).injArmed p 31 = false) :
    let b := s.bank (H.PAGE_CTRL p) 0 r
    b.toNat < 3 → withdrawOp p (((s.tlp r).setBank (H.PAGE_CTRL p) 0 r (b &&& 3)).put (H.PAGE_CTRL p) ⟨30, 30⟩ 1) = u →
      exec (.withdraw r p) s = .next (finish s (u.reply r .done)) := by
  intro b hview hu
  refine gated_of ((running_regWrite_value (fun t => w32 (2 ^ 30) ||| t.bank (H.PAGE_CTRL p) 0 r) s).trans ?_)
  rw [regWrite_withdraw hruns hb hi b hview, hu]

/-- WITHDRAW = 0 with the VIEW that stands (R428). -/
theorem exec_blockReturn {s u : State} {r : Req} {p : Nat} (hruns : s.runs) (hb : blkOf p ≠ none) (hi : (s.tlp r).injArmed p 31 = false) :
    let b := s.bank (H.PAGE_CTRL p) 0 r
    b.toNat < 3 → returnOp p (((s.tlp r).setBank (H.PAGE_CTRL p) 0 r (b &&& 3)).put (H.PAGE_CTRL p) ⟨30, 30⟩ 0) = u →
      exec (.blockReturn r p) s = .next (finish s (u.reply r .done)) := by
  intro b hview hu
  refine gated_of ((running_regWrite_value (fun t => t.bank (H.PAGE_CTRL p) 0 r) s).trans ?_)
  rw [regWrite_return hruns hb hi b hview, hu]

/-- Settles O17: a write of WITHDRAW by what the page's block lets it do at once, and its clearing by `returnOp_spec`. -/
theorem withdrawalAndReturnOfAPage : Obligations.WithdrawalAndReturnOfAPage := by
  unfold Obligations.WithdrawalAndReturnOfAPage
  intro s r p hruns hb t b hi hview a z
  refine ⟨fun hunit hin => ?_, fun k hk hpage hin hjob => ?_, fun hslice hout => ?_⟩
  · exact exec_withdraw hruns hb hi hview (withdrawOp_unit hin hunit)
  · subst hpage
    exact exec_withdraw hruns hb hi hview (withdrawOp_bench hin hk hjob)
  · exact exec_blockReturn hruns hb hi hview (returnOp_spec hout hslice)

end Sys2Proof.Machine
end

section
/-!
PROOFS. Commands at an open mailbox (R413, R419 to R423, R426).
-/
namespace Sys2Proof.Machine

/-! ### What a request in service leaves as it was -/

section
variable (s : State) (src : MbxSrc) (cmd tag : Nat) (p : List Byte)

theorem asked_stage : (s.asked src cmd tag p).stage = s.stage := asked_get s src cmd tag p (by decide) (by decide) _

theorem asked_phase : (s.asked src cmd tag p).phase = s.phase := asked_get s src cmd tag p (by decide) (by decide) _

theorem asked_slotOf (i : Nat) : (s.asked src cmd tag p).slotOf i = s.slotOf i := by
  obtain ⟨⟨m, n, hasked⟩, -⟩ := asked_frame s src cmd tag p
  rw [hasked]
  rfl

theorem asked_staged : (s.asked src cmd tag p).gaffer.staged = s.gaffer.staged := by
  obtain ⟨⟨m, n, hasked⟩, -⟩ := asked_frame s src cmd tag p
  rw [hasked]

theorem asked_saving : (s.asked src cmd tag p).gaffer.saving = s.gaffer.saving := by
  obtain ⟨⟨m, n, hasked⟩, -⟩ := asked_frame s src cmd tag p
  rw [hasked]

theorem asked_bufSize (b : Nat) : (s.asked src cmd tag p).bufSize b = s.bufSize b := by
  obtain ⟨⟨m, n, hasked⟩, -⟩ := asked_frame s src cmd tag p
  rw [hasked]
  rfl

theorem asked_bufBase (b : Nat) : (s.asked src cmd tag p).bufBase b = s.bufBase b := by
  obtain ⟨⟨m, n, hasked⟩, -⟩ := asked_frame s src cmd tag p
  rw [hasked]
  rfl

theorem asked_memRead (a k : Nat) : (s.asked src cmd tag p).memRead a k = s.memRead a k := by
  obtain ⟨⟨m, n, hasked⟩, -⟩ := asked_frame s src cmd tag p
  rw [hasked]
  rfl

theorem asked_jackBusy (c : Nat) : (s.asked src cmd tag p).jackBusy c = s.jackBusy c := by
  unfold State.jackBusy
  rw [(asked_frame s src cmd tag p).2 _ (by decide) (mbxReq_ne (by decide))]

end

/-! ### The commands, once in service -/

/-- The word of a payload of one word (R420). -/
theorem word0_beBytes (cmd tag : Nat) (src : MbxSrc) {n : Nat} (h : n < 2 ^ 32) : (MbxReq.mk src cmd tag (beBytes 4 n)).word 0 = n :=
  word0_be cmd tag src n h []

theorem beBytes_pair_length (a b : Nat) : (beBytes 4 a ++ beBytes 4 b).length = 8 := rfl

section
variable {t : State} {src : MbxSrc} {tag : Nat} (hmay : t.mayWrite src = true) (hstage : t.stage = 2)
include hmay hstage

/-- IMAGE_BEGIN empties STAGING for an image of `n` bytes (R421). -/
theorem mbxHandle_imageBegin {n : Nat} (hphase : t.phase = 0) (hn : n ≤ 0x2000000) :
    mbxHandle ⟨src, 0x10, tag, beBytes 4 n⟩ t =
      mbxDone 0 [] 0 (slotState 1 1 { t with gaffer := { t.gaffer with staged := n } }) := by
  rw [mbxHandle_image hmay hstage (by simp) (by simp), imageCmd_begin src tag _ hphase, word0_beBytes _ _ _ (by omega),
    beBytes_four_length, if_neg (by omega)]

/-- IMAGE_DATA writes its bytes into STAGING (R421). -/
theorem mbxHandle_imageData {off : Nat} {d : List Byte} (hphase : t.phase = 0) (hslot : (t.slotOf 1).state = 1) (hoff : off < 2 ^ 32)
    (hfits : off + d.length ≤ t.gaffer.staged) :
    mbxHandle ⟨src, 0x11, tag, beBytes 4 off ++ d⟩ t = mbxDone 0 [] 0 (flashWrite (slotAt 1 + off) d t) := by
  have hdata : (beBytes 4 off ++ d).drop 4 = d := List.drop_left' (beBytes_four_length off)
  have hshort : ¬ (beBytes 4 off ++ d).length < 4 := by rw [List.length_append, beBytes_four_length]; omega
  rw [mbxHandle_image hmay hstage (by simp) (by simp), imageCmd_data src tag _ hphase, word0_be _ _ _ _ hoff, hdata,
    if_neg (fun h => h hslot), if_neg (by omega)]

/-- IMAGE_BUF writes the bytes of a buffer into STAGING (R421). -/
theorem mbxHandle_imageBuf {b n : Nat} (hphase : t.phase = 0) (hslot : (t.slotOf 1).state = 1) (hb : b < 2 ^ 32) (hn : n < 2 ^ 32)
    (hsize : n ≤ t.bufSize b) (hfits : n ≤ t.gaffer.staged) :
    mbxHandle ⟨src, 0x12, tag, beBytes 4 b ++ beBytes 4 n⟩ t =
      mbxDone 0 [] 0 (flashWrite (slotAt 1) (t.memRead (t.bufBase b) n) t) := by
  rw [mbxHandle_image hmay hstage (by simp) (by simp), imageCmd_buf src tag _ hphase, word0_be _ _ _ _ hb, word1_be _ _ _ _ _ hn,
    beBytes_pair_length, if_neg (fun h => h hslot), if_neg (by omega)]

/-- IMAGE_END stays in service while the image is verified (R413, R421). -/
theorem mbxHandle_imageEnd (hphase : t.phase = 0) (hslot : (t.slotOf 1).state = 1) :
    mbxHandle ⟨src, 0x13, tag, []⟩ t = { t with gaffer := { t.gaffer with mbxBusy := true } } := by
  rw [mbxHandle_image hmay hstage (by simp) (by simp), imageCmd_end src tag _ hphase, if_neg (fun h => h hslot)]

/-- UPDATE begins a live update where one may begin (R423). -/
theorem mbxHandle_update (hok : t.updateOk = true) :
    mbxHandle ⟨src, 0x20, tag, []⟩ t = mbxDone 0 [] 0 (t.put A.GAFFER_UPD_STAT F.GAFFER_UPD_STAT_PHASE 1) :=
  (mbxHandle_other hmay hstage (by simp)).trans (if_pos hok)

/-- REVERT_UPDATE in probation makes a reversal due (R426). -/
theorem mbxHandle_revertUpdate (hphase : t.phase = 4) : mbxHandle ⟨src, 0x21, tag, []⟩ t = mbxDone 0 [] 0 (reversalDue t) :=
  (mbxHandle_other hmay hstage (by simp)).trans (if_pos hphase)

/-- CONFIRM of a VERIFIED image (R421). -/
theorem mbxHandle_confirm (hphase : t.phase = 0) (hslot : (t.slotOf 1).state = 2) :
    mbxHandle ⟨src, 0x22, tag, []⟩ t = mbxDone 0 [] 0 (slotState 1 3 t) :=
  (mbxHandle_other hmay hstage (by simp)).trans (if_pos ⟨hphase, hslot⟩)

/-- SET_SAVE takes the record list of a buffer and stays in service while it is saved (R419). -/
theorem mbxHandle_setSave {b n : Nat} (hphase : t.phase = 0) (hsaving : t.gaffer.saving = none) (hb : b < 2 ^ 32) (hn : n ≤ 131064)
    (hsize : 8 * n ≤ t.bufSize b) :
    let x := (saveBegin t.gaffer.image.setVer (t.memRead (t.bufBase b) (8 * n)) t).hold .mailbox b
    mbxHandle ⟨src, 0x30, tag, beBytes 4 b ++ beBytes 4 n⟩ t = { x with gaffer := { x.gaffer with mbxBusy := true } } := by
  refine (mbxHandle_other hmay hstage (by simp)).trans (?_ : setSaveCmd _ t = _)
  unfold setSaveCmd
  dsimp only
  rw [word0_be _ _ _ _ hb, word1_be _ _ _ _ _ (by omega), hphase, hsaving, beBytes_pair_length, if_neg (by simp), if_neg (by omega)]

/-- SET_READ answers at most 1016 bytes of a settings copy (R421). -/
theorem mbxHandle_setRead {k off : Nat} (hk : k ≤ 2) (hoff : off < 0x100000) :
    let n := min 1016 (0x100000 - off)
    mbxHandle ⟨src, 0x31, tag, beBytes 4 k ++ beBytes 4 off⟩ t =
      mbxDone 0 (packWords ((n + 3) / 4) (t.flashRead (setAt k + off) n)) n t := by
  refine (mbxHandle_other hmay hstage (by simp)).trans (?_ : setReadCmd _ t = _)
  unfold setReadCmd
  dsimp only
  rw [word0_be _ _ _ _ (by omega), word1_be _ _ _ _ _ (by omega), beBytes_pair_length, if_neg (by omega)]

/-- JACK_RELOAD starts the reload of a core that is not being reloaded (R422). -/
theorem mbxHandle_jackReload {c : Nat} (hc : c ≤ 7) (hidle : t.jackBusy c = false) :
    mbxHandle ⟨src, 0x40, tag, beBytes 4 c⟩ t = mbxDone 0 [] 0 (jackStart c t) := by
  have hshort : ¬ ((beBytes 4 c).length < 4 ∨ 7 < (MbxReq.mk src 0x40 tag (beBytes 4 c)).word 0) := by
    rw [word0_beBytes _ _ _ (by omega), beBytes_four_length]
    omega
  refine (mbxHandle_other hmay hstage (by simp)).trans ((if_neg hshort).trans ?_)
  rw [word0_beBytes _ _ _ (by omega), hidle, if_neg Bool.false_ne_true]

/-- REBOOT with its key restarts the device (R421). -/
theorem mbxHandle_reboot : mbxHandle ⟨src, 0x50, tag, beBytes 4 0x5A3C⟩ t = restart causeWarm t := by
  refine (mbxHandle_other hmay hstage (by simp)).trans (if_neg ?_)
  rw [beBytes_four_length, word0_beBytes _ _ _ (by decide)]
  decide

end

/-! ### At the open mailbox -/

/-- A request at an open mailbox is served at once (R420). -/
theorem exec_mailbox {s u : State} {src : MbxSrc} {tag cmd : Nat} {p : List Byte} {c : Instr} (hopen : s.mbxOpen src tag)
    (hc : exec c s = gated (mbxCommand src cmd tag p) s) (hcmd : cmd < 256) (hp : p.length ≤ 1020)
    (hu : mbxHandle ⟨src, cmd, tag % 256, p⟩ (s.asked src cmd tag p) = u) : exec c s = .next (finish s (mbxServe 2 u)) :=
  exec_of_gated hopen.1 hc ((mbxCommand_open hopen cmd hcmd p hp).trans (congrArg (mbxServe 2) hu))

/-- Settles O25: each command is served at once (`exec_mailbox`), and its own lemma says what `mbxHandle` does with it. -/
theorem mailboxCommandsTakeEffect : Obligations.MailboxCommandsTakeEffect := by
  unfold Obligations.MailboxCommandsTakeEffect
  intro s src tag hopen hwrites q ok
  have hmay (cmd : Nat) (p : List Byte) : (s.asked src cmd tag p).mayWrite src = true := (asked_mayWrite ..).trans hwrites
  refine ⟨exec_mailbox hopen rfl (by decide) (by decide) (mbxHandle_ping (hmay _ _) rfl),
    exec_mailbox hopen rfl (by decide) (by decide) (mbxHandle_info (hmay _ _) rfl), ?_, ?_⟩
  · intro hready hnone
    have hstage (cmd : Nat) (p : List Byte) : (s.asked src cmd tag p).stage = 2 := (asked_stage ..).trans hready
    have hphase (cmd : Nat) (p : List Byte) : (s.asked src cmd tag p).phase = 0 := (asked_phase ..).trans hnone
    have hslot {k : Nat} (h : (s.slotOf 1).state = k) (cmd : Nat) (p : List Byte) : ((s.asked src cmd tag p).slotOf 1).state = k := by
      rw [asked_slotOf, h]
    refine ⟨fun n hn => ?_, fun hloading => ⟨fun off d hfits hoff hd => ?_, fun b n hb hn hsize hfits => ?_, ?_⟩, fun hok => ?_,
      fun hverified => ?_, fun b n hb hn hsize hsaving => ?_⟩
    · exact exec_mailbox hopen rfl (by decide) (by rw [beBytes_four_length]; decide)
        (mbxHandle_imageBegin (hmay _ _) (hstage _ _) (hphase _ _) hn)
    · exact exec_mailbox hopen rfl (by decide) (by rw [List.length_append, beBytes_four_length]; omega)
        (mbxHandle_imageData (hmay _ _) (hstage _ _) (hphase _ _) (hslot hloading _ _) hoff (by rw [asked_staged]; exact hfits))
    · rw [← asked_memRead s src 0x12 tag (beBytes 4 b ++ beBytes 4 n), ← asked_bufBase s src 0x12 tag (beBytes 4 b ++ beBytes 4 n)]
      exact exec_mailbox hopen rfl (by decide) (by rw [beBytes_pair_length]; decide) (mbxHandle_imageBuf (hmay _ _) (hstage _ _) (hphase _ _)
        (hslot hloading _ _) hb hn (by rw [asked_bufSize]; exact hsize) (by rw [asked_staged]; exact hfits))
    · exact exec_mailbox hopen rfl (by decide) (by decide)
        (mbxHandle_imageEnd (hmay _ _) (hstage _ _) (hphase _ _) (hslot hloading _ _))
    · exact exec_mailbox hopen rfl (by decide) (by decide) (mbxHandle_update (hmay _ _) (hstage _ _) hok)
    · exact exec_mailbox hopen rfl (by decide) (by decide)
        (mbxHandle_confirm (hmay _ _) (hstage _ _) (hphase _ _) (hslot hverified _ _))
    · exact exec_mailbox hopen rfl (by decide) (by rw [beBytes_pair_length]; decide) (mbxHandle_setSave (hmay _ _) (hstage _ _) (hphase _ _)
        (by rw [asked_saving]; exact hsaving) hb hn (by rw [asked_bufSize]; exact hsize))
  · intro hready
    have hstage (cmd : Nat) (p : List Byte) : (s.asked src cmd tag p).stage = 2 := (asked_stage ..).trans hready
    refine ⟨fun hprobation => ?_, fun k off hk hoff => ?_, fun c hc hidle => ?_, ?_⟩
    · exact exec_mailbox hopen rfl (by decide) (by decide)
        (mbxHandle_revertUpdate (hmay _ _) (hstage _ _) ((asked_phase ..).trans hprobation))
    · exact exec_mailbox hopen rfl (by decide) (by rw [beBytes_pair_length]; decide) (mbxHandle_setRead (hmay _ _) (hstage _ _) hk hoff)
    · exact exec_mailbox hopen rfl (by decide) (by rw [beBytes_four_length]; decide)
        (mbxHandle_jackReload (hmay _ _) (hstage _ _) hc ((asked_jackBusy ..).trans hidle))
    · exact exec_mailbox hopen rfl (by decide) (by decide) (mbxHandle_reboot (hmay _ _) (hstage _ _))

end Sys2Proof.Machine
end

section
/-!
PROOFS. The start, the Gaffer's work, and live update (R409, R413 to R426).
-/
namespace Sys2Proof.Machine

/-! ### The start -/

section
variable {s : State} (hnew : s.gaffer.started = false) (hstage : s.stage = 0) (hlocked : s.get A.CLK_PLL_STAT F.CLK_PLL_STAT_LOCKED = 0x7F)
include hnew hstage hlocked

/-- The boot ROM looks for a valid image once every PLL has locked (R409, R414). -/
theorem bootRomOp_locked : bootRomOp s =
    let t := takeStaging (slotReport s)
    let u := (slotState 0 6 t).raise P.GAFFER 2
    if t.imageValid 0 then firmwareStart 0 t
    else if u.imageValid 2 then firmwareStart 2 u
    else gafferFault (settingsChoose 0 (u.wr A.GAFFER_BOOT_STAT (w32 (3 * 2 ^ 28)))) := by
  unfold bootRomOp
  rw [hnew, hstage, hlocked]
  exact if_neg (by decide)

end

/-- READY, in STAGE 1 with no calibration in progress (R409, R417, R418). -/
theorem readyOp_started {s : State} (hstage : s.stage = 1) (hidle : s.get A.CAL_STAT F.CAL_STAT_BUSY ≠ 1) :
    let t := commitWrite .gaffer 1 (s.gaffer.settings.foldl (fun t x => applyRecord x t) s)
    readyOp s = mbxServe 3 ((t.put A.GAFFER_BOOT_STAT F.GAFFER_BOOT_STAT_STAGE 2).raise P.GAFFER 0) :=
  if_neg (not_or.mpr ⟨fun h => h hstage, hidle⟩)

/-! ### Work in service -/

section
variable {s : State} (hserving : s.serving 0x13 = true)
include hserving

/-- A valid image in STAGING is VERIFIED, and IMAGE_END answered; only recovery goes on to start it (R413, R414). -/
theorem imageVerifyDoneOp_valid (hvalid : s.imageValid 1 = true) :
    let t := mbxDone 0 [] 0 (putSlot 1 ⟨2, (s.imageInfo 1).version⟩ s)
    t.stage ≠ 3 → imageVerifyDoneOp s = mbxServe 3 t := by
  intro t hstage
  unfold imageVerifyDoneOp
  rw [hserving, hvalid, if_neg (by decide), if_pos rfl]
  exact if_neg hstage

/-- An image that is not valid is BAD_SIGNATURE, and IMAGE_END answered FAILED (R413). -/
theorem imageVerifyDoneOp_invalid (hinvalid : s.imageValid 1 = false) :
    imageVerifyDoneOp s = mbxServe 3 (mbxDone 5 [] 0 (slotState 1 6 s)) := by
  unfold imageVerifyDoneOp
  rw [hserving, hinvalid]
  rfl

end

/-- A settings save whose three copies are written: the conflict is cleared, and SET_SAVE answered where it is in service (R419). -/
theorem setSaveDoneOp_saved {s : State} {d : List Byte} (hsaving : s.gaffer.saving = some d) :
    let t := ((flashWrite (setAt 2) d (flashWrite (setAt 1) d (flashWrite (setAt 0) d s))).wr A.SYS_SETTINGS_STAT 0).release .mailbox
    let u : State := { t with gaffer := { t.gaffer with saving := none } }
    setSaveDoneOp s = if u.serving 0x30 then mbxServe 3 (mbxDone 0 [] 0 u) else u := by
  unfold setSaveDoneOp
  rw [hsaving]
  rfl

/-- A core whose reload is done runs again, and the next of a sequence is reloaded (R422). -/
theorem jackDoneOp_busy {s : State} {c : Nat} (hc : c < 8) (hbusy : s.jackBusy c = true) :
    let t := (s.put A.GAFFER_JACK_STAT ⟨8 + c, 8 + c⟩ 0).put A.GAFFER_JACK_STAT ⟨c, c⟩ 1
    jackDoneOp c s = if t.gaffer.jackNew.head? = some c then
        jackNext { t with gaffer := { t.gaffer with jackNew := t.gaffer.jackNew.drop 1 } }
      else t := by
  unfold jackDoneOp
  rw [hbusy]
  exact if_neg (not_or.mpr ⟨by omega, by decide⟩)

/-- A datagram on MG0 is dropped while one is pending, or while MG_EN is 0 (R420). -/
theorem mgDropOp_drops {s : State} (hon : s.portOn 70 = true)
    (h : s.mgPending = true ∨ s.get A.GAFFER_MBX_CFG F.GAFFER_MBX_CFG_MG_EN = 0) : mgDropOp s = (takeRx 70 s).inc A.GAFFER_MG_DROP := by
  have htake : (takeRx 70 s).mgPending = true ∨ (takeRx 70 s).get A.GAFFER_MBX_CFG F.GAFFER_MBX_CFG_MG_EN = 0 := h
  unfold mgDropOp
  rw [hon]
  exact if_pos htake

/-- Settles O26: the boot ROM by `bootRomOp_locked`, READY by `readyOp_started`, and each end of work by the lemma on its operation. -/
theorem startAndGafferWork : Obligations.StartAndGafferWork := by
  unfold Obligations.StartAndGafferWork
  constructor
  · intro s hruns
    refine ⟨fun hnew hstage hlocked => ?_,
      fun hstage hidle => exec_of_gated (f := readyOp) hruns rfl (readyOp_started hstage hidle)⟩
    intro t u
    have hboot := bootRomOp_locked hnew hstage hlocked
    refine ⟨fun hactive => exec_of_gated hruns rfl (hboot.trans (if_pos hactive)), fun hbad hfallback => ?_, fun hbad hnone => ?_⟩
    · exact exec_of_gated hruns rfl (hboot.trans ((if_neg (ne_true_of_eq_false hbad)).trans (if_pos hfallback)))
    · exact exec_of_gated hruns rfl
        (hboot.trans ((if_neg (ne_true_of_eq_false hbad)).trans (if_neg (ne_true_of_eq_false hnone))))
  · intro s hruns
    refine ⟨fun hserving hstage => ⟨fun hvalid hready => ?_, fun hinvalid => ?_⟩, fun d hsaving => ?_, fun c hc hbusy => ?_,
      fun hon hpending => ?_, fun hon hdisabled => ?_⟩
    · exact exec_of_gated hruns rfl (imageVerifyDoneOp_valid hserving hvalid hready)
    · exact exec_of_gated hruns rfl (imageVerifyDoneOp_invalid hserving hinvalid)
    · intro t u
      have hsaved := setSaveDoneOp_saved hsaving
      exact ⟨fun hserving => exec_of_gated hruns rfl (hsaved.trans (if_pos hserving)),
        fun hidle => exec_of_gated hruns rfl (hsaved.trans (if_neg (ne_true_of_eq_false hidle)))⟩
    · intro t
      have hdone := jackDoneOp_busy hc hbusy
      exact ⟨fun hother => exec_of_gated hruns rfl (hdone.trans (if_neg hother)),
        fun hnext => exec_of_gated hruns rfl (hdone.trans (if_pos hnext))⟩
    · exact exec_of_gated hruns rfl (mgDropOp_drops hon (Or.inl hpending))
    · exact exec_of_gated hruns rfl (mgDropOp_drops hon (Or.inr hdisabled))

/-! ### Live update -/

section
variable {s : State}

/-- An image that loads starts the migration; one that is not valid ends the update (R424, R425). -/
theorem updateLoadDoneOp_loading (hphase : s.phase = 1) : updateLoadDoneOp s =
    if s.imageValid 1 then s.put A.GAFFER_UPD_STAT F.GAFFER_UPD_STAT_PHASE 2 else updateAbort 2 (slotState 1 6 s) :=
  if_neg fun h => h hphase

/-- Settings that are migrated wait 1 ms for the handover; where they cannot be, the update ends (R424, R425). -/
theorem updateMigrationOp_migrating (ok : Bool) (hphase : s.phase = 2) (hwaits : s.gaffer.handoverAt = none) :
    let old := s.gaffer.image.setVer
    let new := (s.imageInfo 1).setVer
    let recs := if new = old then s.settingsRecords else Config.migrate old new s.settingsRecords
    updateMigrationOp ok s = if ok then
        { s with gaffer := { s.gaffer with migrated := some recs, handoverAt := some (s.nowNs + 1000000) } }
      else updateAbort 1 (slotState 1 5 s) :=
  if_neg (not_or.mpr ⟨fun h => h hphase, by rw [hwaits]; decide⟩)

/-- The handover runs the image of STAGING in the other bank, on probation, and reloads every Jack core (R424). -/
theorem updateHandoverOp_due (hphase : s.phase = 3) :
    let t := runImage (s.imageInfo 1) (1 - s.get A.GAFFER_BOOT_STAT F.GAFFER_BOOT_STAT_BANK)
      { s with gaffer := { s.gaffer with oldImage := s.gaffer.image } }
    let u := (t.put A.GAFFER_UPD_STAT F.GAFFER_UPD_STAT_PHASE 4).put A.GAFFER_UPD_STAT F.GAFFER_UPD_STAT_PROB_LEFT 1200
    let v : State := { u with gaffer := { u.gaffer with handoverAt := none, reversal := none, jackNew := List.range 8 } }
    updateHandoverOp s = mbxServe 3 (jackNext (v.raise P.GAFFER 4)) :=
  if_neg fun h => h hphase

/-- A probation that has run out confirms the image and saves the settings it migrated (R424). -/
theorem updateConfirmedOp_over (hphase : s.phase = 4) (hkept : s.gaffer.reversal = none)
    (hover : s.get A.GAFFER_UPD_STAT F.GAFFER_UPD_STAT_PROB_LEFT = 0) :
    let recs := s.gaffer.migrated.getD []
    let t := slotState 1 3 (s.put A.GAFFER_UPD_STAT F.GAFFER_UPD_STAT_PHASE 0)
    let u : State := { t with gaffer := { t.gaffer with settings := parseRecords (recs.length / 8) recs, migrated := none } }
    updateConfirmedOp s = (saveBegin u.gaffer.image.setVer recs u).raise P.GAFFER 5 :=
  if_neg (not_or.mpr ⟨fun h => h hphase, not_or.mpr ⟨fun h => h hover, by rw [hkept]; decide⟩⟩)

/-- A reversal falls due at the next boundary (R426). -/
theorem reversalDue_probation (hphase : s.phase = 4) (hkept : s.gaffer.reversal = none) :
    reversalDue s = { s with gaffer := { s.gaffer with reversal := some s.time.bnds } } :=
  if_pos ⟨hphase, by rw [hkept]; rfl⟩

/-- A reversal whose boundary has come runs the old image in the bank it left (R426). -/
theorem updateReversedOp_due {b : Nat} (hphase : s.phase = 4) (hdue : s.gaffer.reversal = some b) (hb : b < s.time.bnds) :
    let t := runImage s.gaffer.oldImage (1 - s.get A.GAFFER_BOOT_STAT F.GAFFER_BOOT_STAT_BANK) s
    let u := slotState 1 4 (t.wr A.GAFFER_UPD_STAT (w32 (4 * 2 ^ 24)))
    let again := (List.range 8).filter fun c => !u.gaffer.jackNew.contains c || (u.gaffer.jackNew.head? == some c && u.jackBusy c)
    let v : State := { u with gaffer := { u.gaffer with reversal := none, migrated := none, jackNew := again } }
    updateReversedOp s = mbxFailAll 3 (jackNext (v.raise P.GAFFER 6)) := by
  unfold updateReversedOp
  rw [hdue]
  exact if_neg (not_or.mpr ⟨fun h => h hphase, by omega⟩)

end

/-- Settles O27: each event of an update in its phase by the lemma on its operation, and the watchdog by the phase it finds. -/
theorem aLiveUpdateRunsItsPhases : Obligations.ALiveUpdateRunsItsPhases := by
  unfold Obligations.ALiveUpdateRunsItsPhases
  intro s hruns
  refine ⟨fun hphase => ?_, fun hphase hwaits => ?_, fun hphase => exec_of_gated hruns rfl (updateHandoverOp_due hphase),
    fun hphase hkept => ⟨fun hover => ?_, ?_⟩, fun b hphase hdue hb => exec_of_gated hruns rfl (updateReversedOp_due hphase hdue hb),
    fun hphase => ?_, fun hphase => ?_⟩
  · have hload := updateLoadDoneOp_loading hphase
    exact ⟨fun hvalid => exec_of_gated hruns rfl (hload.trans (if_pos hvalid)),
      fun hinvalid => exec_of_gated hruns rfl (hload.trans (if_neg (ne_true_of_eq_false hinvalid)))⟩
  · exact ⟨exec_of_gated hruns rfl (updateMigrationOp_migrating true hphase hwaits),
      exec_of_gated hruns rfl (updateMigrationOp_migrating false hphase hwaits)⟩
  · exact exec_of_gated hruns rfl (updateConfirmedOp_over hphase hkept hover)
  · exact exec_of_gated (f := probationFailureOp) hruns rfl (reversalDue_probation hphase hkept)
  · exact exec_of_gated (f := watchdogOp) hruns rfl (if_pos hphase)
  · exact exec_of_gated (f := watchdogOp) hruns rfl (if_neg hphase)

end Sys2Proof.Machine
end

section
/-!
PROOFS. Repairs of memories, and the fuses of the life cycle (R444, R445, R447, R472).
-/
namespace Sys2Proof.Machine

/-- A command that writes a register which acts, on a page that serves it (R30). -/
theorem exec_actWrite {s t : State} {c : Instr} {r : Req} {p o : Nat} {v : Word} {d : RegDef} (h : s.reaches r p)
    (hc : exec c s = gated (regWrite r p o v) s) (ho : 0x80 ≤ o) (ho' : o < 0x1000) (hd : findReg (p * 0x1000 + o) = some d)
    (hro : d.readOnly = false) (hp : d.pair ≠ .lo) (hr : d.isRws = false)
    (ht : actWrite r (p * 0x1000 + o) v (s.arrive r p) = some t) : exec c s = .next (finish s (t.reply r .done)) :=
  hc.trans (gated_of (regWrite_acts h o ho ho' v hd hro hp hr ht))

/-! ### Repairs -/

/-- Where a repair of memory `m` of page `p` may be made (R444). -/
def State.mayRepair (s : State) (p m : Nat) : Prop :=
  (blkOf p).isSome = true ∧ m < memCount p ∧ s.offline p = true ∧ s.sliceOn p = false ∧ s.life ≠ 0 ∧ s.life ≠ 4

/-- What rejects repair `op` of memory `m` of page `p`, as `gloryRepair` tests it (R444). -/
def State.repairRefused (s : State) (op p m : Nat) : Bool :=
  op == 0 || decide (3 < op) || (blkOf p).isNone || decide (memCount p ≤ m) || !s.offline p || s.sliceOn p ||
    s.life == 0 || s.life == 4 || (op == 3 && s.life != 1)

/-- One of the three operations is refused only where no repair may be made, and FUSE beyond FACTORY (R444). -/
theorem State.repairRefused_iff {s : State} {op p m : Nat} (hop : 1 ≤ op) (hop' : op ≤ 3) :
    s.repairRefused op p m = false ↔ s.mayRepair p m ∧ (op = 3 → s.life = 1) := by
  have hsome : (blkOf p).isNone = false ↔ (blkOf p).isSome = true := by rw [Option.isNone_eq_false_iff]
  have hfuse : (op == 3 && s.life != 1) = false ↔ (op = 3 → s.life = 1) := by
    by_cases h : op = 3 <;> simp [h]
  have hzero : (op == 0) = false := beq_eq_false_iff_ne.mpr (by omega)
  have hthree : decide (3 < op) = false := decide_eq_false (by omega)
  unfold State.repairRefused State.mayRepair
  simp only [Bool.or_eq_false_iff, hzero, hthree, hsome, hfuse, decide_eq_false_iff_not, Nat.not_le, Bool.not_eq_false',
    beq_eq_false_iff_ne, true_and, and_assoc]

/-- The word of REPAIR: the operation, the page and the memory (R444). -/
theorem repairWord_fields {op p m : Nat} (hop : op < 16) (hp : p < 4096) (hm : m < 256) :
    let w := w32 (op * 2 ^ 28 + p % 4096 * 65536 + m % 256)
    fget w F.GLORY_REPAIR_OP = op ∧ fget w F.GLORY_REPAIR_PAGE = p ∧ fget w F.GLORY_REPAIR_MEM = m := by
  unfold fget w32 F.GLORY_REPAIR_OP F.GLORY_REPAIR_PAGE F.GLORY_REPAIR_MEM
  simp only [BitVec.toNat_ofNat]
  omega

/-- A command that writes REPAIR, on a page GLORY that serves it (R444). -/
theorem exec_repair {s u : State} {c : Instr} {r : Req} {op p m : Nat} (h : s.reaches r P.GLORY) (hop : op < 16) (hp : p < 4096)
    (hm : m < 256) (hc : exec c s = gated (regWrite r P.GLORY 0x0A0 (w32 (op * 2 ^ 28 + p % 4096 * 65536 + m % 256))) s)
    (hu : gloryRepair op p m (s.arrive r P.GLORY) = u) : exec c s = .next (finish s (u.reply r .done)) := by
  obtain ⟨hfop, hfpage, hfmem⟩ := repairWord_fields hop hp hm
  have hact : actWrite r (P.GLORY * 0x1000 + 0x0A0) (w32 (op * 2 ^ 28 + p % 4096 * 65536 + m % 256)) (s.arrive r P.GLORY) =
      some (gloryRepair (fget (w32 (op * 2 ^ 28 + p % 4096 * 65536 + m % 256)) F.GLORY_REPAIR_OP)
        (fget (w32 (op * 2 ^ 28 + p % 4096 * 65536 + m % 256)) F.GLORY_REPAIR_PAGE)
        (fget (w32 (op * 2 ^ 28 + p % 4096 * 65536 + m % 256)) F.GLORY_REPAIR_MEM) (s.arrive r P.GLORY)) := rfl
  rw [hfop, hfpage, hfmem, hu] at hact
  exact exec_actWrite h hc (by decide) (by decide) rfl rfl (by decide) rfl hact

/-- A write of REPAIR, with no injection armed into the page's guard (R444). -/
theorem gloryRepair_eq {a : State} {op p m : Nat} (hi : a.injArmed P.GLORY 31 = false) : gloryRepair op p m a =
    if a.repairRefused op p m then repairResult 3 p m (a.guard1 P.GLORY 31 0x69 (some 1))
    else if op = 3 then
      repairResult 1 p m { a with dbg := { a.dbg with
        repairs := a.dbg.repairs.map fun x => if x.page = p ∧ x.mem = m then { x with fused := true } else x } }
    else if 2 ≤ (a.repairsOf p m (op == 2)).length then repairResult 2 p m a
    else
      repairResult 1 p m { a with dbg := { a.dbg with
        repairs := a.dbg.repairs ++ [⟨p, m, op == 2, a.get A.GLORY_REPAIR_IDX F.GLORY_REPAIR_IDX_IDX, false, false⟩] } } := by
  unfold gloryRepair
  dsimp only
  rw [hi, if_neg Bool.false_ne_true, Bool.or_false]
  rfl

/-! ### Fuses -/

section
variable {a : State} {key : Nat} {ok : Bool} (op : FuseOp) (hi : a.injArmed P.LIFE 31 = false)
include hi

/-- A fuse operation begins with its key, where it is allowed and none is in progress (R445). -/
theorem fuseBegin_begins (hkey : key = 0x6C1E) (hfree : a.dbg.fuse = none) (hok : ok = true) :
    fuseBegin key ok op a = { a.wr A.LIFE_FUSE_STAT (w32 (2 ^ 31)) with dbg := { a.dbg with fuse := some op } } := by
  unfold fuseBegin
  dsimp only
  rw [hi, if_neg Bool.false_ne_true, hkey, hfree, hok]
  exact if_neg (by decide)

/-- Anywhere else it is rejected (R445). -/
theorem fuseBegin_rejects (h : ¬ (key = 0x6C1E ∧ a.dbg.fuse = none ∧ ok = true)) : fuseBegin key ok op a = fuseReject a := by
  unfold fuseBegin
  dsimp only
  rw [hi, if_neg Bool.false_ne_true]
  refine if_pos ?_
  by_contra hnot
  simp only [not_or, not_not, Option.not_isSome_iff_eq_none, Bool.not_eq_true', Bool.not_eq_false] at hnot
  obtain ⟨hkey, hok, -, hfree⟩ := hnot
  exact h ⟨hkey, hfree, hok⟩

end

/-- The states that ADVANCE may go to: the next in order, or RETIRED from FIELD (R445). -/
theorem advanceAllowed_iff (t now : Nat) :
    ((t == now + 1 && decide (t ≤ 4)) || (now == 2 && t == 4)) = true ↔ (t = now + 1 ∧ t ≤ 4) ∨ (now = 2 ∧ t = 4) := by
  simp only [Bool.or_eq_true, Bool.and_eq_true, beq_iff_eq, decide_eq_true_iff]

/-- The key slots that REVOKE may burn: slot 0 alone while BLANK, none once RETIRED, and not that of the running image (R447). -/
theorem revokeAllowed_iff (life k slot : Nat) (started : Bool) :
    ((if life = 0 then k == 0 else life != 4) && !(started && slot == k)) = true ↔
      (life = 0 → k = 0) ∧ life ≠ 4 ∧ ¬ (started = true ∧ slot = k) := by
  have hrunning : (!(started && slot == k)) = true ↔ ¬ (started = true ∧ slot = k) := by
    cases started <;> simp
  rw [Bool.and_eq_true, hrunning]
  by_cases hblank : life = 0 <;> simp [hblank]

/-- Where SEC_BUMP may raise the minimum security version (R447). -/
theorem secBumpAllowed_iff (life next secVer : Nat) (started : Bool) :
    (life != 4 && started && decide (next ≤ secVer) && decide (next ≤ 64)) = true ↔
      life ≠ 4 ∧ started = true ∧ next ≤ secVer ∧ next ≤ 64 := by
  simp only [Bool.and_eq_true, bne_iff_ne, decide_eq_true_iff, and_assoc]

theorem fuseBurn_power (op : FuseOp) (s : State) : (fuseBurn op s).power = s.power := by
  cases op <;> rfl

/-- A fuse operation ends: its fuses are burnt where the supply held (R472). -/
theorem fuseDoneOp_burning {s : State} {op : FuseOp} (ok : Bool) (hop : s.dbg.fuse = some op) (hrst : s.power.rstWait = false) :
    let t : State := { s with dbg := { s.dbg with fuse := none } }
    fuseDoneOp ok s =
      ((if ok then fuseBurn op t else t).wr A.LIFE_FUSE_STAT (w32 ((if ok then 1 else 3) * 2 ^ 28))).raise P.LIFE 0 := by
  intro t
  have hend : fuseEnd ok s =
      ((if ok then fuseBurn op t else t).wr A.LIFE_FUSE_STAT (w32 ((if ok then 1 else 3) * 2 ^ 28))).raise P.LIFE 0 := by
    unfold fuseEnd
    rw [hop]
  have hpower : (fuseEnd ok s).power = s.power := by
    rw [hend, State.raise_power, State.wr_power]
    split
    · exact fuseBurn_power op t
    · rfl
  unfold fuseDoneOp
  dsimp only
  rw [hpower, hrst, if_neg Bool.false_ne_true, hend]

/-- Settles O59: a write of REPAIR by whether the repair may be made, a fuse operation by whether its write is allowed, and the end of one
by `fuseDoneOp_burning`. -/
theorem repairsAndFusesAreMade : Obligations.RepairsAndFusesAreMade := by
  unfold Obligations.RepairsAndFusesAreMade
  intro s
  refine ⟨?_, ?_, ?_⟩
  · intro r p m hp hm hobeys a may no takes
    obtain ⟨hreach, hguard⟩ := hobeys
    have hrow {u : State} (hu : gloryRepair 1 p m a = u) : exec (.row r p m) s = .next (finish s (u.reply r .done)) :=
      exec_repair hreach (by decide) hp hm rfl hu
    have hcolumn {u : State} (hu : gloryRepair 2 p m a = u) : exec (.column r p m) s = .next (finish s (u.reply r .done)) :=
      exec_repair hreach (by decide) hp hm rfl hu
    have hfuse {u : State} (hu : gloryRepair 3 p m a = u) : exec (.fuse r p m) s = .next (finish s (u.reply r .done)) :=
      exec_repair hreach (by decide) hp hm rfl hu
    have hwrite (op : Nat) := gloryRepair_eq (a := a) (op := op) (p := p) (m := m) hguard
    have hmade {op : Nat} (hop : 1 ≤ op) (hop' : op ≤ 3) (hmay : may) (hfactory : op = 3 → a.life = 1) :
        ¬ a.repairRefused op p m = true :=
      ne_true_of_eq_false ((State.repairRefused_iff hop hop').mpr ⟨hmay, hfactory⟩)
    have hrefused {op : Nat} (hop : 1 ≤ op) (hop' : op ≤ 3) (hnot : ¬ (may ∧ (op = 3 → a.life = 1))) :
        a.repairRefused op p m = true :=
      eq_true_of_ne_false (mt (State.repairRefused_iff hop hop').mp hnot)
    constructor
    · intro hmay
      have h1 := (hwrite 1).trans ((if_neg (hmade (by decide) (by decide) hmay fun h => absurd h (by decide))).trans (if_neg (by decide)))
      have h2 := (hwrite 2).trans ((if_neg (hmade (by decide) (by decide) hmay fun h => absurd h (by decide))).trans (if_neg (by decide)))
      refine ⟨⟨fun hspare => ?_, fun hfull => ?_⟩, ⟨fun hspare => ?_, fun hfull => ?_⟩, fun hfactory => ?_, fun hlater => ?_⟩
      · exact hrow (h1.trans (if_neg (Nat.not_le.mpr hspare)))
      · exact hrow (h1.trans (if_pos hfull))
      · exact hcolumn (h2.trans (if_neg (Nat.not_le.mpr hspare)))
      · exact hcolumn (h2.trans (if_pos hfull))
      · exact hfuse ((hwrite 3).trans ((if_neg (hmade (by decide) (by decide) hmay fun _ => hfactory)).trans (if_pos rfl)))
      · exact hfuse ((hwrite 3).trans (if_pos (hrefused (by decide) (by decide) fun h => hlater (h.2 rfl))))
    · intro hnot
      have hno {op : Nat} (hop : 1 ≤ op) (hop' : op ≤ 3) := (hwrite op).trans (if_pos (hrefused hop hop' fun h => hnot h.1))
      exact ⟨hrow (hno (by decide) (by decide)), hcolumn (hno (by decide) (by decide)), hfuse (hno (by decide) (by decide))⟩
  · intro r v hobeys a begins no free t now k next advance revoke bump
    obtain ⟨hreach, hguard⟩ := hobeys
    have hadvance {u : State} (hu : lifeAdvance v a = u) : exec (.advance r v) s = .next (finish s (u.reply r .done)) :=
      exec_actWrite hreach rfl (by decide) (by decide) rfl rfl (by decide) rfl (congrArg some hu)
    have hrevoke {u : State} (hu : lifeRevoke v a = u) : exec (.revoke r v) s = .next (finish s (u.reply r .done)) :=
      exec_actWrite hreach rfl (by decide) (by decide) rfl rfl (by decide) rfl (congrArg some hu)
    have hbump {u : State} (hu : lifeSecBump v a = u) : exec (.secBump r v) s = .next (finish s (u.reply r .done)) :=
      exec_actWrite hreach rfl (by decide) (by decide) rfl rfl (by decide) rfl (congrArg some hu)
    refine ⟨fun h => ?_, fun h => ?_, fun h => ?_, fun h => ?_, fun h => ?_, fun h => ?_⟩
    · obtain ⟨hkey, hfree, hok⟩ := h
      exact hadvance (fuseBegin_begins _ hguard hkey hfree ((advanceAllowed_iff _ _).mpr hok))
    · exact hadvance (fuseBegin_rejects _ hguard fun ⟨hkey, hfree, hok⟩ => h ⟨hkey, hfree, (advanceAllowed_iff _ _).mp hok⟩)
    · obtain ⟨hkey, hfree, hok⟩ := h
      exact hrevoke (fuseBegin_begins _ hguard hkey hfree ((revokeAllowed_iff _ _ _ _).mpr hok))
    · exact hrevoke (fuseBegin_rejects _ hguard fun ⟨hkey, hfree, hok⟩ => h ⟨hkey, hfree, (revokeAllowed_iff _ _ _ _).mp hok⟩)
    · obtain ⟨hkey, hfree, hok⟩ := h
      exact hbump (fuseBegin_begins _ hguard hkey hfree ((secBumpAllowed_iff _ _ _ _).mpr hok))
    · exact hbump (fuseBegin_rejects _ hguard fun ⟨hkey, hfree, hok⟩ => h ⟨hkey, hfree, (secBumpAllowed_iff _ _ _ _).mp hok⟩)
  · intro hruns hrst op hop t burnt
    have hburnt : fuseBurn op t = burnt := by cases op <;> rfl
    rw [← hburnt]
    exact ⟨exec_of_gated hruns rfl (fuseDoneOp_burning true hop hrst), exec_of_gated hruns rfl (fuseDoneOp_burning false hop hrst)⟩

end Sys2Proof.Machine
end

section
/-!
PROOFS. Freeze and the test access port (R446, R448 to R450, R452, R453).
-/
namespace Sys2Proof.Machine

/-! ### How a freeze begins -/

/-- The life-cycle states that allow a freeze and the dump chains (R446). -/
theorem State.mayFreeze_iff {s : State} : s.mayFreeze = true ↔ s.life = 1 ∨ s.life = 2 ∨ s.life = 4 := by
  simp only [State.mayFreeze, Bool.or_eq_true, beq_iff_eq, or_assoc]

/-- DEBUG.FREEZE with its key, where the life cycle allows it (R448). -/
theorem debugFreezeWrite_allowed {a : State} {v : Word} (hi : a.injArmed P.DEBUG 31 = false)
    (hkey : fget v F.DEBUG_FREEZE_KEY = 0x7A5C) (hmay : a.mayFreeze = true) :
    debugFreezeWrite v a = if fget v F.DEBUG_FREEZE_GO = 1 then freezeBegin 2 a else a := by
  unfold debugFreezeWrite
  dsimp only
  rw [hi, if_neg Bool.false_ne_true, hkey, hmay]
  exact if_neg (by decide)

/-- DEBUG.FREEZE without its key, or where the life cycle does not allow it (R446, R448). -/
theorem debugFreezeWrite_rejects {a : State} {v : Word} (hi : a.injArmed P.DEBUG 31 = false)
    (h : fget v F.DEBUG_FREEZE_KEY ≠ 0x7A5C ∨ ¬ a.mayFreeze = true) :
    debugFreezeWrite v a = a.guard1 P.DEBUG 31 0x6C (some 0) := by
  unfold debugFreezeWrite
  dsimp only
  rw [hi, if_neg Bool.false_ne_true]
  refine if_pos (h.imp_right fun hnot => Or.inl ?_)
  rw [eq_false_of_ne_true hnot]
  rfl

/-- A pulse of FRZ_N that no injection takes out begins a freeze (R448, R455). -/
theorem frzNOp_unarmed {s : State} (hi : s.injArmed P.DEBUG 31 = false) : frzNOp s = freezeBegin 1 s := by
  unfold frzNOp
  rw [pinRemoved_unarmed hi]
  rfl

/-! ### While it lasts -/

/-- A domain of the clock table stops in a freeze, by itself or forced (R449). -/
theorem clockStopOp_stops {s : State} {k : Nat} (hfrozen : s.power.mode = .frozen) (hk : k < 9) (sub : Nat) (forced : Bool) :
    let d : Debug := { s.dbg with stoppedDomains :=
      if s.dbg.stoppedDomains.contains (k, sub) then s.dbg.stoppedDomains else s.dbg.stoppedDomains ++ [(k, sub)] }
    let e : Debug := { d with forced := d.forced ||| 2 ^ k }
    let g : Debug := if k = 7 then { e with forcedLnk := e.forcedLnk ||| (1 <<< (sub % 64)) }
      else if k = 8 then { e with forcedShow := e.forcedShow ||| 2 ^ (sub % 4) } else e
    clockStopOp k sub forced s = { s with dbg := if forced then g else d } := by
  intro d e g
  unfold clockStopOp
  rw [if_neg (not_or.mpr ⟨fun h => h hfrozen, by omega⟩)]
  cases forced <;> rfl

/-! ### The test access port -/

/-- EXTEST drives the pins while RST_N is low or the device is frozen (R452). -/
theorem extestOp_drives {s : State} (pins : List Nat) (h : s.power.rstLow = true ∨ s.power.mode = .frozen) : extestOp pins s =
    { s with dbg := { s.dbg with tapOut := s.dbg.boundary.map w32, boundary := pins, pinsDriven := some pins } } := if_pos h

/-- Settles O60: each way into a freeze by the state that allows it, and each TAP instruction by what it shifts. -/
theorem freezeAndTestPort : Obligations.FreezeAndTestPort := by
  unfold Obligations.FreezeAndTestPort
  intro s
  refine ⟨?_, ?_, ?_, ?_⟩
  · intro frozen
    refine ⟨fun r v hobeys => ?_, fun hruns hguard => ?_, ?_⟩
    · obtain ⟨hreach, hguard⟩ := hobeys
      intro a may
      have hwrite {u : State} (hu : debugFreezeWrite v a = u) : exec (.debugFreeze r v) s = .next (finish s (u.reply r .done)) :=
        exec_actWrite hreach rfl (by decide) (by decide) rfl rfl (by decide) rfl (congrArg some hu)
      refine ⟨fun hkey hgo hmay => ?_, fun hkey hstay hmay => ?_, fun hnot => ?_⟩
      · exact hwrite ((debugFreezeWrite_allowed hguard hkey (State.mayFreeze_iff.mpr hmay)).trans (if_pos hgo))
      · exact hwrite ((debugFreezeWrite_allowed hguard hkey (State.mayFreeze_iff.mpr hmay)).trans
          (if_neg (by rw [hstay]; decide)))
      · exact hwrite (debugFreezeWrite_rejects hguard (hnot.imp_right (mt State.mayFreeze_iff.mp)))
    · exact exec_of_gated hruns rfl (frzNOp_unarmed hguard)
    · intro t
      refine ⟨fun hruns hmay => ?_, fun hnot => ?_⟩
      · exact exec_of_always (f := tapFreezeOp) rfl (if_pos ⟨hruns, State.mayFreeze_iff.mpr hmay⟩)
      · refine exec_of_always (f := tapFreezeOp) rfl (if_neg fun h => ?_)
        obtain ⟨hruns, hmay⟩ := h
        have hlife := State.mayFreeze_iff.mp hmay
        rcases hnot with hstopped | hblank | hlocked
        · exact hstopped hruns
        · omega
        · omega
  · intro hfrozen k sub hk d e g
    exact ⟨exec_of_always rfl (clockStopOp_stops hfrozen hk sub false), exec_of_always rfl (clockStopOp_stops hfrozen hk sub true)⟩
  · exact fun hfrozen => exec_of_always (f := freezeOvertempOp) rfl (if_pos hfrozen)
  · intro out
    refine ⟨fun pins => ⟨fun hmay => exec_of_always rfl (extestOp_drives pins hmay), fun hhigh hmode => ?_, rfl⟩, rfl, fun _ => rfl,
      fun _ => rfl, fun hfrozen hmay hdirectory => ?_, fun hnot => ?_⟩
    · exact exec_of_always (f := extestOp pins) rfl (if_neg (not_or.mpr ⟨ne_true_of_eq_false hhigh, hmode⟩))
    · have hallowed : ¬ (s.power.mode ≠ .frozen ∨ (!s.mayFreeze) = true) := by
        rw [State.mayFreeze_iff.mpr hmay]
        exact not_or.mpr ⟨fun h => h hfrozen, by decide⟩
      exact exec_of_always (f := dumpScanOp) rfl ((if_neg hallowed).trans (if_pos hdirectory))
    · refine exec_of_always (f := dumpScanOp) rfl (if_pos (hnot.imp_right fun hlife => ?_))
      have hdenied : ¬ s.mayFreeze = true := fun hmay => by
        have := State.mayFreeze_iff.mp hmay
        omega
      rw [eq_false_of_ne_true hdenied]
      rfl

end Sys2Proof.Machine
end

section
/-!
PROOFS. Self-test slices (R435 to R441): a slice that withdrew its block by no window leaves it resumed.
-/
namespace Sys2Proof.Machine

/-- A device that seeks its partner, with the TWIN page withdrawn and a slice of a logic section running on it. -/
def twinUnderTest : State :=
  let s := (State.reset.wrActive A.TWIN_CTRL (fput 0 F.TWIN_CTRL_EN 1)).put A.TWIN_STAT F.TWIN_STAT_STATE 1
  { s.put (H.PAGE_STAT P.TWIN) ⟨29, 29⟩ 1 with dbg := { s.dbg with slice := some ⟨150000, P.TWIN, 64, false, false⟩ } }

/-- A measurement that reached its section total with the golden signature. -/
def passingMeasure : SliceMeasure := ⟨1, 1, 0, 0, 0, 0, 0, 0⟩

/-- The end of the slice resets the block and resumes it, and a twin block that resumes with TWIN_CTRL.EN at 1 seeks (R441, R479). -/
theorem sliceFinish_twin_seeks :
    (finish twinUnderTest (sliceFinish .other passingMeasure twinUnderTest)).twinSt = 1 := by decide +kernel

/-- Refutes O58: the statement's end of a slice resets a block without resuming it, so it leaves the twin block of `twinUnderTest` in
OFF, where the model's `blockResume` has it SEEKING. -/
theorem not_slicesRunAndEnd : ¬ Obligations.SlicesRunAndEnd := by
  unfold Obligations.SlicesRunAndEnd
  intro h
  have hruns : twinUnderTest.runs := by decide
  obtain ⟨-, hends⟩ := h twinUnderTest hruns
  obtain ⟨-, hsound⟩ := hends ⟨150000, P.TWIN, 64, false, false⟩ passingMeasure rfl
  obtain ⟨-, hwhole⟩ := hsound (Or.inl (by decide))
  obtain ⟨hpass, -⟩ := hwhole (by decide)
  have hend := hpass (Or.inr rfl) 0 (by decide) (fun hbudget => absurd hbudget (by decide))
  have hmodel : exec (.sliceEnd passingMeasure) twinUnderTest =
      .next (finish twinUnderTest (sliceFinish .other passingMeasure twinUnderTest)) := gated_runs hruns _
  have htwin := congrArg State.twinSt (Host.Outcome.next.inj (hmodel.symm.trans hend))
  rw [sliceFinish_twin_seeks] at htwin
  exact absurd htwin (by decide +kernel)

end Sys2Proof.Machine
end
